-- ==== Sys2Proof/Word.lean ====
section
/-! DEFINITION. The register word of the module and the shape of its sparse tables. -/

namespace Sys2Proof

/-- A set-up register holds 32 bits (00, Notation: "Registers are 32-bit"). -/
abbrev Word := BitVec 32

/-- A table of the module, kept sparse: pairs of an index and a value, indices strictly rising, no
entry equal to what an unlisted index reads as.  The operations stand in `Machine/Ops.lean`. -/
abbrev Tab (α : Type) := List (Nat × α)

/-- A packed field: its width in bytes and its value (R487). -/
abbrev Fld := Nat × Nat

end Sys2Proof
end

