-- ==== Sys2Proof/Syntax.lean ====
section
/-! DEFINITION. What comes to the module from outside, as data: the operands of the steps, and `Instr`,
the one inductive with a constructor for every row of `spec/opcode_table.json`.  A step is "whole and
indivisible" (95); an operand is what the step is about (an index, a value written) or what arrives with
it (the contents of a descriptor, of a frame, of a measurement). -/

namespace Sys2Proof

/-- The two halves of the module (R17). -/
inductive Half where
  | A | B
deriving DecidableEq, Repr

/-- The two sides of a tributary (R118): A faces the line at a terminating module. -/
inductive Side where
  | A | B
deriving DecidableEq, Repr

/-- A direction: transmit or receive. -/
inductive Dir where
  | tx | rx
deriving DecidableEq, Repr

/-- Privilege levels of the management cores (01; R447). -/
inductive Level where
  | secure | system | user
deriving DecidableEq, Repr

/-- Access types of `PROT_FAULT_INFO.TYPE` (14). -/
inductive AccessType where
  | read | write | execute
deriving DecidableEq, Repr

/-- The header of a command: the function and ring it was posted on, its position on that ring and its
TAG (Table 16.5, Table 16.7), and the half on whose BAR2 the doorbell that covers it was rung (R492). -/
structure Hdr where
  fn    : Nat
  table : Bool
  pos   : Nat
  tag   : Nat
  on    : Half
  /-- The reserved bytes of the descriptor are 0 (R233). -/
  clean : Bool := true
deriving DecidableEq, Repr

/-- A command descriptor as the module's DMA reads it (Table 16.5, R482, R486). -/
structure Desc where
  dmaOk   : Bool
  phase   : Bool
  opcode  : Nat
  tag     : Nat
  extAddr : Nat
deriving DecidableEq, Repr

/-- A time base value (R367): seconds, nanoseconds, and sub-nanoseconds in units of 2^-16 ns. -/
structure TimeVal where
  seconds : Nat
  nanos   : Nat
  subns   : Nat
deriving DecidableEq, Repr

/-- An instant in a command (Table 12.1), with its reserved bytes (R368). -/
structure Instant where
  time     : TimeVal
  reserved : Nat
deriving DecidableEq, Repr

/-- "Immediate, or time base and instant" (R487). -/
inductive When where
  | immediate
  | scheduled (tb : Nat) (at_ : Instant)
deriving DecidableEq, Repr

/-- The action of TRIB_FORCE (Table 04.10). -/
inductive ForceAct where
  | ais | substitute | release
deriving DecidableEq, Repr

/-- Cipher suites of Table 06.1. -/
inductive Suite where
  | gcm128 | gcm256 | xpn128 | xpn256
deriving DecidableEq, Repr

/-- The fields of SECY_SC_CREATE (Table 06.4). -/
structure ScArgs where
  dir           : Dir
  port          : Nat
  sci           : Nat
  suite         : Suite
  confOffset    : Nat
  domain        : Nat
  mka           : Bool
  express       : Bool
  autoAdvance   : Bool
  includeSci    : Bool
  useEs         : Bool
  useScb        : Bool
  clearTags     : Nat
  replayProtect : Bool
  replayWindow  : Nat
deriving DecidableEq, Repr

/-- The fields of SECY_SA_INSTALL (Table 06.4). -/
structure SaArgs where
  dir    : Dir
  sc     : Nat
  an     : Nat
  handle : Nat
  pn     : Nat
  ssci   : Nat
  pin    : Bool
deriving DecidableEq, Repr

/-- A prefix record (Table 07.7): family 4 or 6, length, the address left aligned in 32 or 64 bits, and
the result of Table 07.4. -/
structure PrefixRec where
  family : Nat
  len    : Nat
  bits   : Nat
  result : BitVec 32
deriving DecidableEq, Repr

/-- The key of a station (07): key domain, VLAN ID, MAC address. -/
structure StnKey where
  domain : Nat
  vid    : Nat
  mac    : Nat
deriving DecidableEq, Repr

/-- A station record (Table 07.7). -/
structure StationRec where
  key  : StnKey
  sc   : Nat
  port : Nat
deriving DecidableEq, Repr

/-- The fields of STN_FLUSH (Table 07.8). -/
structure FlushArgs where
  byDomain      : Bool
  byPort        : Bool
  bySc          : Bool
  includeStatic : Bool
  domain        : Nat
  port          : Nat
  sc            : Nat
deriving DecidableEq, Repr

/-- Shaper kinds of Table 08.6. -/
inductive ShaperKind where
  | queue | sc | control
deriving DecidableEq, Repr

/-- The fields of SHAPER_SET (Table 08.6); `zero` is RESET = ZERO. -/
structure ShaperArgs where
  kind   : ShaperKind
  index  : Nat
  enable : Bool
  rate   : Nat
  burst  : Nat
  zero   : Bool
  w      : When
deriving DecidableEq, Repr

/-- The fields of KEY_IMPORT (Table 09.10), with the material as the module's one DMA read finds it (R283);
an expected KCV of `none` is the field at 0. -/
structure ImportArgs where
  parent   : Nat
  kind     : Nat
  len256   : Bool
  xpn      : Bool
  addr     : Nat
  material : Nat
  salt     : Nat
  kcv      : Option Nat
deriving DecidableEq, Repr

/-- The purpose of a pairing (R317). -/
inductive Purpose where
  | cak128 | cak256 | cwyAssoc
deriving DecidableEq, Repr

/-- A pairing (R317). -/
structure Pairing where
  member  : Nat
  purpose : Purpose
  object  : Nat
  domain  : Nat
  tag     : Nat
  target  : Nat
  auto    : Bool
deriving DecidableEq, Repr

/-- The fields of CA_BIND (R330); the CKN as bytes, empty when none is given (R331). -/
structure CaArgs where
  port       : Nat
  handle     : Nat
  ckn        : List Nat
  priority   : Nat
  suites     : List Suite
  confOffset : Nat
  express    : Bool
  clearTags  : Nat
  group      : Bool
deriving DecidableEq, Repr

/-- The target kinds of a periodic rekey (R336). -/
inductive RekeyKind where
  | tributary | ca | pairing
deriving DecidableEq, Repr

/-- A curve parameter record (11): p, a, b, Gx, Gy, n and the bit length of p. -/
structure Curve where
  p    : Nat
  a    : Nat
  b    : Nat
  gx   : Nat
  gy   : Nat
  n    : Nat
  bits : Nat
deriving DecidableEq, Repr

/-- What PKE_VERIFY verifies (Table 11.9). -/
inductive VerifyAlg where
  | ecdsa (curve hash : Nat)
  | hss
  | dual
deriving DecidableEq, Repr

/-- The fields of PKE_VERIFY, with the bytes of its input buffers. -/
structure VerifyArgs where
  alg : VerifyAlg
  key : List Nat
  msg : List Nat
  sig : List Nat
deriving DecidableEq, Repr

/-- Sensors of Table 18.11. -/
inductive Sensor where
  | junctionA | junctionB | envelope0 | envelope1 | outlet | psu1 | psu2
deriving DecidableEq, Repr

/-- Which sense failed at a slipway (R67). -/
inductive SlipSense where
  | supplies | activity
deriving DecidableEq, Repr

/-- A lane frame as a receiver in SYNC finds it: bit errors in its FAS (pre-FEC); after FEC correction and descrambling,
whether its overhead codeword is correctable (R88), bytes 8 to 63 (56 bytes, Table 03.1) and the payload words (R101),
each with whether part of it came in an uncorrectable codeword (R57); the codewords it brought and what the lane's decoder
and crossing FIFO did for them (R57, R58, R38); and the lane's advance in ns (R97). -/
structure LaneFrameIn where
  fasErrors : Nat
  ovhOk     : Bool
  ovh       : List Nat
  payload   : List (Nat × Bool)
  codewords : Nat
  uncorr    : Nat
  corrCw    : Nat
  corrSym   : Nat
  late      : Nat
  overrun   : Nat
  advanceNs : Int
deriving DecidableEq, Repr

/-- A handshake FIFO over a crossing: words passed, occupancy at its end, corrected single-bit errors (R37, R39), and
the words that its clocked producer discarded outside any frame (R38). -/
structure FifoIn where
  index : Nat
  words : Nat
  occ   : Nat
  cerr  : Nat
  lost  : Nat := 0
deriving DecidableEq, Repr

/-- What the decoder and the receive crossing FIFO of a lane did for a frame: codewords received, corrected symbols,
corrected and uncorrectable codewords (R57), late releases (R58), words discarded at a full FIFO (R38). -/
structure LaneFec where
  codewords : Nat := 0
  corrSym : Nat := 0
  corrCw  : Nat := 0
  uncorr  : Nat := 0
  late    : Nat := 0
  overrun : Nat := 0
deriving DecidableEq, Repr

/-- What a DEG_WINDOW_END closes: the window of a line lane (DEG) or of a tributary side (PDEG). -/
inductive DegScope where
  | lane (k : Nat)
  | side (t : Nat) (s : Side)
deriving DecidableEq, Repr

/-- What a hub's outgoing side sees during a lane frame: the words of slot index 0 written to its elastic store (R129), and
the row word of the incoming rows that comes next as the frame starts. -/
structure HubIn where
  t     : Nat
  side  : Side
  words : Nat
  pos   : Nat
deriving DecidableEq, Repr

/-- What comes while a lane frame is sent: the stream bits of each terminating tributary's client (R108), and what each
hub side sees. -/
structure TxIn where
  client : List (Nat × List Bool)
  hub    : List HubIn
deriving DecidableEq, Repr

/-- Kinds of a 66b block (R157). -/
inductive BlkKind where
  | start | terminate | data | idle | other
deriving DecidableEq, Repr

/-- A 66b block of a client stream at a span's verdict (R157): its kind, whether it has a bit in the span, whether it has
been handed to the client FEC encoder, and whether it lies in a failed span. -/
structure Blk66 where
  kind   : BlkKind
  inSpan : Bool
  handed : Bool
  failed : Bool
deriving DecidableEq, Repr

/-- A VLAN tag: TPID and TCI. -/
structure Vlan where
  tpid : Nat
  tci  : Nat
deriving DecidableEq, Repr

/-- An Ethernet frame: addresses, the VLAN tags from the outermost, the EtherType after them, and the bytes from there to
the FCS; and, of a frame received, what the lanes of its port did for it, by their place in the port. -/
structure FrameIn where
  id        : Nat
  dst       : Nat
  src       : Nat
  tags      : List Vlan
  etherType : Nat
  payload   : List Nat
  fec       : List LaneFec := []
deriving DecidableEq, Repr

/-- A SecTAG (IEEE 802.1AE, Table 06.1): the bits of TCI, AN, the short length, the low 32 bits of the PN, and the SCI where
SC is set. -/
structure SecTag where
  v   : Bool
  es  : Bool
  sc  : Bool
  scb : Bool
  e   : Bool
  c   : Bool
  an  : Nat
  sl  : Nat
  pn  : Nat
  sci : Nat
deriving DecidableEq, Repr

/-- A frame from a packet-mode line port: addresses, the VLAN tags that stand before its SecTAG or EtherType, and behind
them the SecTAG with the secure data and the ICV, or the EtherType and the bytes to the FCS. -/
structure LineFrameIn where
  id        : Nat
  dst       : Nat
  src       : Nat
  tags      : List Vlan
  secTag    : Option SecTag
  etherType : Nat
  data      : List Nat
  icv       : List Nat
  fec       : List LaneFec := []
deriving DecidableEq, Repr

/-- A learn request (R225): the key, the receive SC and line port it was heard on. -/
structure LearnReq where
  key  : StnKey
  sc   : Nat
  port : Nat
  vid  : Nat
deriving DecidableEq, Repr

/-- A carrier instance (Table 10.3). -/
inductive Carrier where
  | lane (k : Nat)
  | trib (t : Nat)
  | port (p : Nat)
deriving DecidableEq, Repr

/-- A piece of a peer message (Table 10.1). -/
structure Piece where
  ty      : Nat
  version : Nat
  sender  : Nat
  session : Nat
  piece   : Nat
  pieces  : Nat
  total   : Nat
  data    : List Nat
deriving DecidableEq, Repr

/-- A HAIL body (Table 10.4). -/
structure HailBody where
  mdomain : Nat
  member  : Nat
  hailMs  : Nat
  digest  : Nat
  run     : Nat
  caps    : Nat
  seq     : Nat
deriving DecidableEq, Repr

/-- What an MKA Life Time expiry ends: a live peer, or the wait for every peer before an SA change (R338). -/
inductive MkaLife where
  | peer (mi : Nat)
  | sak
  | oldRx (an : Nat)
  | regen
deriving DecidableEq, Repr

/-- The tests of Table 13.3. -/
inductive SelfTest where
  | gcm (lane : Nat)
  | engine
  | eye (lane mv ui : Nat)
  | scrub
  | table (region : Nat)
  | pace
deriving DecidableEq, Repr

/-- The kinds of usher sources (R36): those that wait, those that report a level, and alarms. -/
inductive Src where
  | command | cores | learning | sched | level | alarm
deriving DecidableEq, Repr

/-- Kinds of DRAM integrity failure (R439, `PMM_DRAM_STAT.FAIL_KIND`). -/
inductive DramFail where
  | tag | group | node | uncorrectable
deriving DecidableEq, Repr

/-- What DRAM returns to an access where it is not what the half wrote there (R439): ciphertext words and tag of the line;
the 576 bytes of its counter group; a tree node on the way up, by its level, and its 64 bytes; or an error that the
controller cannot correct. -/
structure DramIn where
  line  : Option (List Nat × Nat) := none
  group : Option (List Nat) := none
  node  : Option (Nat × List Nat) := none
  bad   : Bool := false
deriving DecidableEq, Repr

/-- What a step about block lock of a ferry lane brings: the sync headers received since the last such step, and whether
signal or clock lock is lost after them (R68). -/
structure FerryHeaders where
  lane    : Nat
  headers : List Nat
  lost    : Bool := false
deriving DecidableEq, Repr

/-- An alignment block of a ferry lane, and when it arrives against the stripe, in ns (R69). -/
structure FerryMark where
  lane : Nat
  at_  : Int
deriving DecidableEq, Repr

/-- A client's faults on a tributary: loss of FEC alignment and of PCS lane alignment, present from now on or not (R110). -/
structure ClientReport where
  t   : Nat
  fec : Bool
  pcs : Bool
deriving DecidableEq, Repr

/-- An egress port that may go on: with a new frame, or pausing the one in progress after `gone` bytes (R245). -/
structure PickAt where
  egress : Nat
  gone   : Option Nat := none
deriving DecidableEq, Repr

/-- A whole message of a key agreement, its session apart (Table 10.10). -/
structure ZkaBody where
  session : Nat
  body    : List Nat
deriving DecidableEq, Repr

/-- A tamper source whose condition ends, with the envelope sensors as they then read (R461). -/
structure SourceEnd where
  src     : Nat
  sensor0 : Int
  sensor1 : Int
deriving DecidableEq, Repr

/-- The steps of the module: one constructor per row of the table. -/
inductive Instr where
  /-- TRIB_SWITCH (R133). Command scheduling a switch of a tributary side between its primary and alternate slot sets. -/
  | tribSwitch (h : Hdr) (t : Nat) (side : Side) (alt : Bool) (tb : Nat) (at_ : Instant)
  /-- TRIB_FORCE (R138). Command forcing AIS rows or the substitute stream on a tributary direction, or releasing the force. -/
  | tribForce (h : Hdr) (t : Nat) (dir : Dir) (act : ForceAct)
  /-- TRIB_CIPHER_BIND (R164). Command binding a landing-4 association key to a terminating tributary and starting its first key change. -/
  | tribCipherBind (h : Hdr) (t handle : Nat)
  /-- TRIB_KEY_STEP (R161). Scheduled command starting a key change of a tributary's transmit association. -/
  | tribKeyStep (h : Hdr) (t tb : Nat) (at_ : Instant)
  /-- TRIB_CIPHER_UNBIND (R563). Command erasing every slot of a tributary's associations and unbinding its key. -/
  | tribCipherUnbind (h : Hdr) (t : Nat)
  /-- SECY_SC_CREATE (R202). Command creating a transmit or receive secure channel. -/
  | secyScCreate (h : Hdr) (a : ScArgs)
  /-- SECY_SC_DELETE (R202). Command deleting a secure channel and erasing its SAs. -/
  | secyScDelete (h : Hdr) (dir : Dir) (sc : Nat)
  /-- SECY_SA_INSTALL (R186). Command installing an SA under an AN with its SAK handle and PN. -/
  | secySaInstall (h : Hdr) (a : SaArgs)
  /-- SECY_SA_ACTIVATE (R187). Command making an SA the current AN of a transmit SC, at once or at an instant. -/
  | secySaActivate (h : Hdr) (sc an : Nat) (w : When)
  /-- SECY_SA_RETIRE (R199). Command erasing an SA from key RAM and wharf. -/
  | secySaRetire (h : Hdr) (dir : Dir) (sc an : Nat)
  /-- SECY_SA_PIN (R195). Command pinning or unpinning an SA resident. -/
  | secySaPin (h : Hdr) (dir : Dir) (sc an : Nat) (pin : Bool)
  /-- SECY_SA_READ (R202). Command returning an SA's PN, residency, pin and state. -/
  | secySaRead (h : Hdr) (dir : Dir) (sc an : Nat)
  /-- CHAN_WRITE (R209). Table command writing the inactive version of a channel entry and optionally flipping SEL. -/
  | chanWrite (h : Hdr) (index : Nat) (flip holdLock unlock clearHw : Bool) (version : BitVec 128)
  /-- CHAN_READ (R208). Table command returning both versions and the control word of a channel entry. -/
  | chanRead (h : Hdr) (index addr : Nat)
  /-- CHAN_BULK (R234). Table command applying a host buffer of channel version records in order. -/
  | chanBulk (h : Hdr) (first count addr : Nat) (flip : Bool) (recs : List (BitVec 128))
  /-- TRIE_ADD (R216). Table command adding or replacing a prefix by copy-then-switch. -/
  | trieAdd (h : Hdr) (p : PrefixRec)
  /-- TRIE_DEL (R218). Table command deleting a prefix by copy-then-switch. -/
  | trieDel (h : Hdr) (p : PrefixRec)
  /-- TRIE_BULK (R219). Table command loading prefixes into the idle bank during a rebuild. -/
  | trieBulk (h : Hdr) (count addr : Nat) (recs : List PrefixRec)
  /-- TRIE_REBUILD_BEGIN (R219). Table command emptying the idle bank and starting a rebuild. -/
  | trieRebuildBegin (h : Hdr)
  /-- TRIE_REBUILD_COMMIT (R220). Table command making the idle bank serve by one write. -/
  | trieRebuildCommit (h : Hdr)
  /-- TRIE_REBUILD_ABORT (R220). Table command discarding the idle bank. -/
  | trieRebuildAbort (h : Hdr)
  /-- TRIE_LOOKUP (R214). Table command returning the longest matching prefix for an address. -/
  | trieLookup (h : Hdr) (family addr : Nat)
  /-- STN_ADD (R228). Table command installing a static station. -/
  | stnAdd (h : Hdr) (r : StationRec)
  /-- STN_DEL (R230). Table command deleting a station by key. -/
  | stnDel (h : Hdr) (k : StnKey)
  /-- STN_RELEASE (R227). Table command releasing a moored station to dynamic. -/
  | stnRelease (h : Hdr) (k : StnKey)
  /-- STN_FLUSH (R230). Table command removing stations by domain, port or receive SC. -/
  | stnFlush (h : Hdr) (a : FlushArgs)
  /-- STN_DUMP (R233). Table command writing the learned-station table to a host buffer. -/
  | stnDump (h : Hdr) (capacity addr : Nat)
  /-- PAIR_WRITE (R221). Table command writing a pairing table entry of a host-managed receive SC. -/
  | pairWrite (h : Hdr) (sc : Nat) (entry : BitVec 16)
  /-- SHAPER_SET (R251). Command changing a shaper's rate, burst and enable, at once or at an instant. -/
  | shaperSet (h : Hdr) (a : ShaperArgs)
  /-- SHAPER_READ (R263). Command returning a shaper's setting and present count. -/
  | shaperRead (h : Hdr) (kind : ShaperKind) (index : Nat)
  /-- POLICER_SET (R260). Command setting a policer's CIR, CBS and EBS and filling both buckets. -/
  | policerSet (h : Hdr) (pol cir cbs ebs : Nat)
  /-- POLICER_READ (R263). Command returning a policer's setting and bucket levels. -/
  | policerRead (h : Hdr) (pol : Nat)
  /-- SAMPLE_READ (R261). Command returning queue depth and delay samples, optionally restarting min and max. -/
  | sampleRead (h : Hdr) (first count addr : Nat) (restart : Bool)
  /-- KEY_AREA_SET (R277). Command registering a domain's host blob area. -/
  | keyAreaSet (h : Hdr) (domain addr len : Nat)
  /-- DOMAIN_CREATE (R283). Command generating a domain key and writing, verifying and journalling its blob. -/
  | domainCreate (h : Hdr) (domain : Nat)
  /-- KEY_IMPORT (R283). Command creating an IMPORTED CAK, CWY_ASSOC or SAK from host material. -/
  | keyImport (h : Hdr) (a : ImportArgs)
  /-- KEY_REPLACE (R285). Command replacing a landing-4 key in place through the gangway. -/
  | keyReplace (h : Hdr) (handle g addr : Nat) (material : Nat) (kcv : Option Nat)
  /-- KEY_INVALIDATE (R289). Command putting a key into INVALID and starting its cascade. -/
  | keyInvalidate (h : Hdr) (handle : Nat)
  /-- KEY_FREE (R293). Command returning an INVALID or ORPHANED key's index to FREE. -/
  | keyFree (h : Hdr) (handle : Nat)
  /-- KEY_QUERY (R300). Command writing a key's blob header and state to host memory. -/
  | keyQuery (h : Hdr) (handle addr : Nat)
  /-- KEY_PROVENANCE (R294). Command producing a dual-signed provenance statement for a key. -/
  | keyProvenance (h : Hdr) (handle challenge addr : Nat)
  /-- ENVELOPE_RENEW (R473). Command drawing a new envelope seed and ending the run without an erasure. -/
  | envelopeRenew (h : Hdr) (addr len : Nat) (auth : List Nat)
  /-- PAIRING_SET (R317). Command setting a pairing's peer, purpose, object, domain, TAG, target and AUTO. -/
  | pairingSet (h : Hdr) (index : Nat) (p : Pairing)
  /-- PAIRING_CLEAR (R341). Command clearing a pairing and ending its open sessions. -/
  | pairingClear (h : Hdr) (index : Nat)
  /-- PEER_QUERY (R341). Command returning a peer table entry. -/
  | peerQuery (h : Hdr) (member addr : Nat)
  /-- PEER_RELEASE (R315). Command tearing down a MOORED peer's associations at once. -/
  | peerRelease (h : Hdr) (member : Nat)
  /-- ZKA_START (R323). Command starting ZKA as initiator on a pairing. -/
  | zkaStart (h : Hdr) (index : Nat)
  /-- ZKA_CANCEL (R341). Command ending an open ZKA session with cause CANCELLED. -/
  | zkaCancel (h : Hdr) (session : Nat)
  /-- CA_BIND (R330). Command creating an MKA connectivity association on a line port. -/
  | caBind (h : Hdr) (index : Nat) (a : CaArgs)
  /-- CA_UNBIND (R330). Command ending a CA's participant and retiring its SAs. -/
  | caUnbind (h : Hdr) (index : Nat)
  /-- REKEY_SET (R336). Command creating a periodic rekey entry on a tributary, CA or pairing. -/
  | rekeySet (h : Hdr) (kind : RekeyKind) (index tb : Nat) (first : Instant) (period : Nat)
  /-- REKEY_CLEAR (R336). Command removing a periodic rekey. -/
  | rekeyClear (h : Hdr) (kind : RekeyKind) (index : Nat)
  /-- PKE_CURVE_LOAD (R347). Command checking and loading curve parameters into a slot. -/
  | pkeCurveLoad (h : Hdr) (slot addr : Nat) (c : Curve)
  /-- PKE_CURVE_CLEAR (R364). Command clearing a loaded curve slot. -/
  | pkeCurveClear (h : Hdr) (slot : Nat)
  /-- PKE_VERIFY (R346). Command verifying an ECDSA, HSS or dual signature at its deadline. -/
  | pkeVerify (h : Hdr) (a : VerifyArgs)
  /-- PKE_DIGEST (R342). Command hashing a host message. -/
  | pkeDigest (h : Hdr) (hash len addr : Nat) (message : List Nat)
  /-- PKE_IDENTITY (R354). Command returning the identity public keys, IDGEN and next HSS index. -/
  | pkeIdentity (h : Hdr) (addr : Nat)
  /-- PKE_ATTEST (R360). Command producing a dual-signed attestation report. -/
  | pkeAttest (h : Hdr) (challenge addr : Nat)
  /-- PKE_CHARTER_READ (R359). Command returning the module's charter. -/
  | pkeCharterRead (h : Hdr) (addr capacity : Nat)
  /-- TIME_SET (R369). Command stepping a time base to an instant and making it valid. -/
  | timeSet (h : Hdr) (tb : Nat) (at_ : Instant)
  /-- TIME_OFFSET (R393). Command feeding a host offset sample to a time base servo. -/
  | timeOffset (h : Hdr) (tb : Nat) (theta : Int) (at_ : Instant)
  /-- TIME_READ (R370). Command returning all four time bases latched at one tick with the run number. -/
  | timeRead (h : Hdr) (addr : Nat)
  /-- SCHED_LIST (R388). Command writing the scheduled action table to host memory. -/
  | schedList (h : Hdr) (addr capacity : Nat)
  /-- SCHED_CANCEL (R392). Command freeing an armed entry and completing its command ABORTED with CANCELLED. -/
  | schedCancel (h : Hdr) (entry : Nat)
  /-- LATENCY_READ (R382). Command returning a tributary's published transmit and receive latency. -/
  | latencyRead (h : Hdr) (t addr : Nat)
  /-- HELM_HANDOVER (R413). Command starting an announced handover, at once or as a drill, with optional return. -/
  | helmHandover (h : Hdr) (w : When) (returnMs : Nat)
  /-- HELM_HALF_HALT (R40). Command halting a half with cause 5. -/
  | helmHalfHalt (h : Hdr) (target : Half)
  /-- HELM_HALF_RESTART (R421). Command putting a halted or standby half through COLD and BOOTING. -/
  | helmHalfRestart (h : Hdr) (target : Half)
  /-- CFG_SAVE (R497). Command latching the set-up registers into the other standing configuration slot and committing it. -/
  | cfgSave (h : Hdr)
  /-- CFG_EXPORT (R503). Command writing the current standing configuration image to host memory. -/
  | cfgExport (h : Hdr) (addr capacity : Nat)
  /-- CFG_IMPORT (R503). Command making a host image the current standing configuration for the next boot. -/
  | cfgImport (h : Hdr) (addr len : Nat) (img : List Nat)
  /-- MODULE_SET (R501). Command moving policing between PROVISIONAL and SERVICE. -/
  | moduleSet (h : Hdr) (service : Bool)
  /-- STATS_SNAPSHOT (R516). Command writing a group of fixed statistics latched at one crossing end. -/
  | statsSnapshot (h : Hdr) (group first count addr : Nat)
  /-- FW_STAGE (R553). Command reading, checking and staging a firmware image in the non-boot slot. -/
  | fwStage (h : Hdr) (addr len : Nat) (img : List Nat)
  /-- FW_ACTIVATE (R540). Command restarting a half on a named slot. -/
  | fwActivate (h : Hdr) (target : Half) (slot : Nat)
  /-- FW_COMMIT (R555). Command making the staged slot the boot slot and burning the anti-rollback counter. -/
  | fwCommit (h : Hdr)
  /-- FW_QUERY (R557). Command returning slot versions, staged flags and running slots. -/
  | fwQuery (h : Hdr) (addr : Nat)
  /-- BIRTH_READ (R547). Command returning the birth record. -/
  | birthRead (h : Hdr) (addr capacity : Nat)
  /-- ENROL_ANCHOR (R548). Command installing the owner's anchor record. -/
  | enrolAnchor (h : Hdr) (addr : Nat) (anchor : List Nat)
  /-- ENROL_CHARTER (R548). Command installing a charter issued under the anchor. -/
  | enrolCharter (h : Hdr) (addr : Nat) (charter : List Nat)
  /-- IDGEN_ADVANCE (R551). Command burning one IDGEN step after HSS exhaustion. -/
  | idgenAdvance (h : Hdr) (addr len : Nat) (auth : List Nat)
  /-- DECOMMISSION (R556). Command zeroing keys, removing enrolment, defaulting configuration and ending the run. -/
  | decommission (h : Hdr) (addr len : Nat) (auth : List Nat)
  /-- CMD_PI_DOORBELL (R482). Doorbell write making the module take command descriptors up to the count. -/
  | cmdPiDoorbell (half : Half) (fn : Nat) (value width : Nat) (descs : List Desc)
  /-- TBL_PI_DOORBELL (R482). Doorbell write making the module take table ring descriptors up to the count. -/
  | tblPiDoorbell (half : Half) (fn : Nat) (value width : Nat) (descs : List Desc)
  /-- CPL_CI_DOORBELL (R485). Doorbell write reporting completion entries consumed. -/
  | cplCiDoorbell (half : Half) (fn : Nat) (value width : Nat)
  /-- EVT_CI_DOORBELL (R485). Doorbell write reporting event entries consumed, releasing held events. -/
  | evtCiDoorbell (half : Half) (fn : Nat) (value width : Nat)
  /-- PHASE_RETRY_EXPIRE (R482). Expiry of the 2 us re-read of a mismatched descriptor, stalling the ring with cause PHASE. -/
  | phaseRetryExpire (fn : Nat) (table : Bool)
  /-- MSIX_DELAY_EXPIRE (R491). Expiry of the interrupt moderation delay sending an MSI-X message. -/
  | msixDelayExpire (fn : Nat) (ring : Nat)
  /-- RING_ENABLE (R480). Write of EN 1 zeroing the ring counts and releasing held completions and events. -/
  | ringEnable (half : Half) (fn : Nat) (ring : Nat) (value : Word)
  /-- RING_DISABLE (R486). Write of EN 0 stopping the ring at once. -/
  | ringDisable (half : Half) (fn : Nat) (ring : Nat) (value : Word)
  /-- FUNCTION_LEVEL_RESET (R495). PCIe Function Level Reset disabling a function's rings and discarding its completions and held events. -/
  | functionLevelReset (half : Half) (fn : Nat)
  /-- REGISTER_WRITE (R42). Write to a set-up register without its own row, applied under its acceptance rules and forwarded if paired. -/
  | registerWrite (half : Half) (fn : Nat) (offset : Nat) (value : Word)
  /-- LANE_PWR_WRITE (R61). Write of LNE_LANE_CFG.PWR starting or superseding a lane power move. -/
  | lanePwrWrite (half : Half) (fn : Nat) (lane : Nat) (value : Word)
  /-- LANE_PWR_MOVE_DONE (R562). Completion of a lane power move, updating PWR_NOW. -/
  | lanePwrMoveDone (half : Half) (lane : Nat)
  /-- CAGE_MODE_WRITE (R45). Write of LNE_CAGE_MODE accepted only while the cage's lanes are in DEEP. -/
  | cageModeWrite (half : Half) (fn : Nat) (value : Word)
  /-- CAGE_SPLIT_WRITE (R49). Write of LNE_CAGE_SPLIT, accepted under R49 and restarting client PCS. -/
  | cageSplitWrite (half : Half) (fn : Nat) (value : Word)
  /-- CLIENT_MODE_WRITE (R48). Write of LNE_CLIENT_MODE assigning client ports to packet or causeway mode. -/
  | clientModeWrite (half : Half) (fn : Nat) (value : Word)
  /-- GROUP_ENABLE_WRITE (R96). Write of CWY_GROUP_CFG.EN enabling or disabling a line group. -/
  | groupEnableWrite (half : Half) (fn : Nat) (g : Nat) (value : Word)
  /-- GROUP_RETIME (R99). Write of 1 to RETIME rebuilding a group's deskew set from scratch. -/
  | groupRetime (half : Half) (fn : Nat) (g : Nat) (value : Word)
  /-- TRIB_ENABLE (R119). Write of TRB_TRIB_CFG.EN 1 enabling a tributary, starting CFC at 0 and pointers in LOP. -/
  | tribEnable (half : Half) (fn : Nat) (t : Nat) (value : Word)
  /-- TRIB_DISABLE (R563). Write of EN 0 erasing both associations' slots and putting transmit in NO_KEY. -/
  | tribDisable (half : Half) (fn : Nat) (t : Nat) (value : Word)
  /-- PKT_PORT_ENABLE (R203). Write of PKT_PORT_CFG.EN making a line port a SecY. -/
  | pktPortEnable (half : Half) (fn : Nat) (port : Nat) (value : Word)
  /-- XPN_THRESH_HI_WRITE (R204). Write of PKT_PN_THRESH_XPN_HI applying the new XPN threshold. -/
  | xpnThreshHiWrite (half : Half) (fn : Nat) (value : Word)
  /-- USHER_SEQ_LO_READ (R43). Read of GLB_USHER_SEQ_LO latching the upper half into GLB_USHER_SEQ_HI. -/
  | usherSeqLoRead (half : Half) (fn : Nat)
  /-- KEY_RUN_LO_READ (R302). Read of KEY_RUN_LO latching the upper run number bits. -/
  | keyRunLoRead (half : Half) (fn : Nat)
  /-- HSS_NEXT_LO_READ (R366). Read of PKE_HSS_NEXT_LO latching the upper index bits. -/
  | hssNextLoRead (half : Half) (fn : Nat)
  /-- PEER_HEALTH_LO_READ (R427). Read of HLM_PEER_HEALTH_LO latching the upper health word. -/
  | peerHealthLoRead (half : Half) (fn : Nat)
  /-- PMM_FAIL_LO_READ (R454). Read of PMM_FAIL_LO latching the upper address and agent. -/
  | pmmFailLoRead (half : Half) (fn : Nat)
  /-- CNT_VAL_LO_READ (R519). Read of CNT_VAL_LO latching STICKY and the upper value bits. -/
  | cntValLoRead (half : Half) (fn : Nat) (n : Nat)
  /-- TIM_TB_NS_READ (R370). Read of TIM_TB_NS latching seconds and sub-nanoseconds of the same instant. -/
  | timTbNsRead (half : Half) (fn : Nat) (n : Nat)
  /-- FIFO_CERR_READ (R37). Read-clear of the selected FIFO's corrected-error count. -/
  | fifoCerrRead (half : Half) (fn : Nat)
  /-- PRBS_ERR_READ (R14). Read-clear of a lane's pattern checker error count; `errors`: bit errors found since the last
  read. -/
  | prbsErrRead (half : Half) (fn : Nat) (lane errors : Nat)
  /-- PKE_LATE_READ (R345). Read-clear of the late-release count. -/
  | pkeLateRead (half : Half) (fn : Nat)
  /-- PMM_REENC_CNT_READ (R438). Read-clear of the page re-encryption count. -/
  | pmmReencCntRead (half : Half) (fn : Nat)
  /-- PMM_WALK_CNT_READ (R436). Read-clear of the tree walk count. -/
  | pmmWalkCntRead (half : Half) (fn : Nat)
  /-- PMM_CORR_READ (R442). Read-clear of the corrected DRAM error count. -/
  | pmmCorrRead (half : Half) (fn : Nat)
  /-- DB_STAT_READ (R493). Read-clear of the forwarded and unsent doorbell counts. -/
  | dbStatRead (half : Half) (fn : Nat)
  /-- RING_ERR_READ (R486). Read-clear of a ring's error count. -/
  | ringErrRead (half : Half) (fn : Nat) (ring : Nat)
  /-- CNT_CFG_WRITE (R510). Reprogramming write of CNT_CFG clearing value and STICKY and installing the setting. -/
  | cntCfgWrite (half : Half) (fn : Nat) (n : Nat) (value : Word)
  /-- CNT_THRESH_WRITE (R510). Reprogramming write of CNT_THRESH clearing value and STICKY. -/
  | cntThreshWrite (half : Half) (fn : Nat) (n : Nat) (value : Word)
  /-- COUNTER_WINDOW_READ (R513). BAR4 read of a counter word, atomic, with 4-byte high-word latching. -/
  | counterWindowRead (half : Half) (fn : Nat) (offset bytes : Nat)
  /-- COUNTER_WRAP (R508). Wrap of a programmable counter past 2^48 - 1, setting STICKY. -/
  | counterWrap (half : Half) (idx n : Nat)
  /-- TMP_LATCH_CLEAR (R461). W1C write clearing a tamper source latch if the source is out of alarm. -/
  | tmpLatchClear (half : Half) (fn : Nat) (value : Word)
  /-- TMP_LOCK_SET (R459). Write of 1 to TMP_CFG.LOCK freezing maps and MESH_DRIVEN until COLD. -/
  | tmpLockSet (half : Half) (fn : Nat) (value : Word)
  /-- CAGE_POWER_EN_WRITE (R523). Write of MOD_CAGE_CTRL.POWER_EN powering or unpowering a cage and clearing a fault. -/
  | cagePowerEnWrite (half : Half) (fn : Nat) (cage : Nat) (value : Word)
  /-- PROT_REGION_WRITE (R451). Secure-level write of a protection region register, applying to later accesses. -/
  | protRegionWrite (half : Half) (core : Nat) (level : Level) (offset : Nat) (value : Word)
  /-- PROT_FENCE (R451). Write of 1 to PROT_FENCE completing when earlier-checked accesses have drained. -/
  | protFence (half : Half) (core : Nat) (level : Level) (value : Word)
  /-- PROCESSOR_ACCESS (R450). Load, store or fetch of a core checked part by part by its protection unit. -/
  | processorAccess (half : Half) (core : Nat) (level : Level) (ty : AccessType) (addr size : Nat)
  /-- SIDEBAND_READ (R527). SMBus block read of a sideband page; page 0x50 clears change flags and releases MGMT_ALERT#. -/
  | sidebandRead (page : Nat)
  /-- MAINS_APPLIED (R533). Mains applied, starting the power-up sequence of Table 18.8. -/
  | mainsApplied (ps1 ps2 : Bool) (t0 t1 : Int)
  /-- ENVELOPE_COLD_RECHECK (R534). Once-per-second recheck of envelope sensors while below -10 C at step 4. -/
  | envelopeColdRecheck (t0 t1 : Int)
  /-- HALF_RAIL_FAIL (R533). Expiry of 10 ms without a half's rails in regulation, holding it unpowered. -/
  | halfRailFail (half : Half)
  /-- BOOT_START (R540). Release of reset starting a half's boot program steps. -/
  | bootStart (half : Half)
  /-- HALF_READY (R541). Half ready after image load and key derivation; half A claims generation 1. -/
  | halfReady (half : Half)
  /-- HALF_B_CLAIM_TIMEOUT (R541). Half B claims generation 1 after 2 s ready without half A's claim. -/
  | halfBClaimTimeout
  /-- BOOT (R542). First claim completing BOOTING: BOOT numbered 1, run number journalled, DRAM and keys set up, configuration applied, events posted. -/
  | boot (half : Half)
  /-- DRAM_INIT_DONE (R433). Completion of DRAM initialisation of a half, setting INIT_DONE. -/
  | dramInitDone (half : Half)
  /-- HSS_STATE_REBUILT (R355). Completion of the rebuild of a half's HSS traversal state. -/
  | hssStateRebuilt (half : Half)
  /-- BOOTING_END (R542). Leaving BOOTING once step 6 is done and HSS state is ready, in SOLO with PROVISIONAL policing. -/
  | bootingEnd
  /-- POWER_FAIL (R532). 12 V bus below 11.0 V asserting POWER_FAIL and stopping new flash records. -/
  | powerFail
  /-- RAILS_OFF (R532). 12 V bus below 10.8 V removing both halves' rails and passing the secure domain to the cell. -/
  | railsOff
  /-- PSU_STATE (R530). Loss or return of an inlet or supply, posted without interruption. -/
  | psuState (supply : Nat) (ac dc fault : Bool) (loadW : Nat)
  /-- MOD_RESET (R526). MOD_RESET# held low for 100 ms ending the run without erasure. -/
  | modReset (lowMs : Nat)
  /-- PERST (R525). A_PERST# or B_PERST# resetting that half's PCIe link only. -/
  | perst (half : Half)
  /-- OPTICS_INSERT (R524). Detection of an optical module insertion, powering it and bringing it to high power. -/
  | opticsInsert (cage : Nat)
  /-- OPTICS_REMOVE (R524). Detection of an optical module removal. -/
  | opticsRemove (cage : Nat)
  /-- OPTICS_READY (R522). Optics reaching high power with the matching application code. -/
  | opticsReady (cage : Nat) (caseTemp : Int) (powerQ : Nat)
  /-- CAGE_OVERCURRENT (R523). Cage drawing over budget, removing its power and setting FAULT. -/
  | cageOvercurrent (cage powerQ : Nat)
  /-- FAN_FAIL (R535). A fan below 50 % of commanded speed for 3 s, running the others at 100 %. -/
  | fanFail (fan : Nat)
  /-- FAN_TRAY_REMOVE (R536). Detection of fan tray removal. -/
  | fanTrayRemove
  /-- FAN_TRAY_INSERT (R536). Insertion of a fan tray, running fans at 100 % before control resumes. -/
  | fanTrayInsert
  /-- THERMAL_WARN (R535). A sensor reaching its warning limit, raising THERMAL_WARN. -/
  | thermalWarn (sensor : Sensor) (temp : Int)
  /-- THERMAL_TRIP (R537). A sensor reaching its trip limit, removing power from halves, slipways and cages. -/
  | thermalTrip (sensor : Sensor) (temp : Int)
  /-- THERMAL_RESTART (R537). Envelope at 60 C or less for 60 s, restarting from step 4 unless held off. -/
  | thermalRestart (t0 t1 : Int)
  /-- REF_LOCK (R528). Module reference locking to the TC1 10 MHz input. -/
  | refLock (ppb : Int)
  /-- REF_LOSS (R528). TC1 10 MHz input lost or out of range, holding the last frequency. -/
  | refLoss
  /-- PPS_EDGE (R376). Rising edge on a 1PPS input forming an offset sample. -/
  | ppsEdge (tc : Nat) (edge : TimeVal)
  /-- PPS_LOSS (R376). No 1PPS edge for 1.1 s. -/
  | ppsLoss (tc : Nat)
  /-- PPS_OUTPUT_PULSE (R377). 1PPS output rising at each whole second of its time base. -/
  | ppsOutputPulse (tc : Nat)
  /-- SERVO_SAMPLE (R371). Offset sample stepping or slewing a time base. -/
  | servoSample (tb src : Nat) (theta : Int) (dt : Nat)
  /-- SERVO_HOLDOVER (R372). No sample for 4 expected intervals, entering HOLDOVER. -/
  | servoHoldover (tb : Nat)
  /-- PTP_MESSAGE_RX (R380). PTP frame taken by the slave engine, feeding the servo.  `msg`: the bytes behind its
  EtherType. -/
  | ptpMessageRx (port : Nat) (msg : List Nat)
  /-- SCHED_FIRE (R385). Scheduled entry firing when its time base reaches its instant. -/
  | schedFire (entry : Nat)
  /-- SCHED_LATE_FIRE (R386). Late entry firing at the scheduler pass at crossing end, completing DONE_LATE. -/
  | schedLateFire (entry : Nat)
  /-- SIGNAL_CHANGE (R53). Change of signal detect or clock lock on a lane, posting LANE_SIGNAL. -/
  | signalChange (half : Half) (lane : Nat) (signal lock : Bool)
  /-- LANE_ADAPTED (R53). Completion of initial adaptation, setting ADAPT_DONE. -/
  | laneAdapted (half : Half) (lane ctle eyeV eyeH : Nat)
  /-- SLIPWAY_SUPPLY (R67). Loss or restoration of one slipway supply. -/
  | slipwaySupply (lane : Nat) (dir : Dir) (supply : Nat) (good : Bool)
  /-- SLIPWAY_FAULT (R67). Loss of both slipway supplies or output activity, stopping that lane. -/
  | slipwayFault (lane : Nat) (dir : Dir) (sense : SlipSense)
  /-- FERRY_LANE_LOCK (R68). 64th valid header in a row declaring block lock. -/
  | ferryLaneLock (half : Half) (v : FerryHeaders)
  /-- FERRY_LANE_UNLOCK (R68). 16th invalid header in a window, or signal loss, dropping block lock. -/
  | ferryLaneUnlock (half : Half) (v : FerryHeaders)
  /-- FERRY_LANE_ADMIT (R70). Locked ferry lane passing an alignment marker, at this instant against the stripe, and entering
  use. -/
  | ferryLaneAdmit (half : Half) (v : FerryMark)
  /-- HALF_HALT (R40). A half entering HALTED_HALF for a cause 1-7, sending HALT and stopping its claim. -/
  | halfHalt (half : Half) (cause fifo : Nat)
  /-- PACE_GOVERNOR_RUN (R22). Per-crossing governor step of a half adjusting core voltage and pace flags. -/
  | paceGovernorRun (half : Half) (pace : List Nat) (fifos : List FifoIn)
  /-- LANE_FRAME_TX (R75). Start of a lane frame on every causeway transmit lane with rows, overhead and scrambling.
  `arrived`: what comes from the clients while the frame is sent, and what the hub sides have seen since the last one
  (R123, R129). -/
  | laneFrameTx (half : Half) (arrived : TxIn)
  /-- POINTER_ADJUST (R130). Execution of a decided pointer adjustment in the first eligible frame. -/
  | pointerAdjust (half : Half) (t : Nat) (side : Side)
  /-- FAS_MATCH (R89). Exact FAS match in HUNT creating a sounding. -/
  | fasMatch (half : Half) (lane pos mfas : Nat)
  /-- SOUNDING_CHECK (R91). Check at a sounding's predicted position, counting or discarding it. -/
  | soundingCheck (half : Half) (lane pos fasErrors mfas : Nat)
  /-- LANE_FRAME_RX (R93). Receipt of a lane frame in SYNC: FAS and MFAS checks, overhead, BIP, remote indications, hail and GOB. -/
  | laneFrameRx (half : Half) (lane : Nat) (f : LaneFrameIn)
  /-- RETIME_IN_FORCE (R100). New release point coming into force, ending the retime failure. -/
  | retimeInForce (half : Half) (g : Nat)
  /-- DEG_WINDOW_END (R103). End of a degraded-signal window raising or clearing DEG or PDEG. -/
  | degWindowEnd (half : Half) (scope : DegScope)
  /-- CONTAINER_ROW_RX (R116). Receipt of a container row: COH decision, JC, PBIP, pointer, defects and extraction.
  `mfas`: of the lane frame that deskew releases; the slots of a side come in the order of their indices. -/
  | containerRowRx (half : Half) (t : Nat) (side : Side) (slot mfas : Nat)
  /-- TMC_MESSAGE_RX (R117). Delivery of a reassembled tributary message channel message. -/
  | tmcMessageRx (half : Half) (t : Nat) (bytes : List Nat)
  /-- CLIENT_FAULT (R110). Client ingress fault making the mapper send the substitute stream with CSF. -/
  | clientFault (half : Half) (v : ClientReport)
  /-- CLIENT_FAULT_CLEAR (R110). Return to the client stream after 1 ms clear of faults. -/
  | clientFaultClear (half : Half) (t : Nat)
  /-- SPAN_VERDICT (R154). Verdict of a span: authenticated, failed or broken, updating NOKEY and ACF.
  `blocks`: the 66b blocks of the client stream, from the start of the frame in progress as the span began. -/
  | spanVerdict (half : Half) (t : Nat) (blocks : List Blk66)
  /-- KEY_NEXT_RX (R162). Receive association answering KEY_NEXT with KEY_READY or KEY_REFUSE. -/
  | keyNextRx (t epoch spanKib kcv member : Nat)
  /-- KEY_READY_RX (R161). Transmit association receiving KEY_READY and awaiting the multiframe boundary. -/
  | keyReadyRx (t epoch kcv : Nat)
  /-- KEY_CONFIRM_RX (R161). Transmit association receiving KEY_CONFIRM for its CURRENT epoch. -/
  | keyConfirmRx (t epoch cfc0 : Nat)
  /-- KEY_REFUSE_RX (R161). Transmit association receiving KEY_REFUSE, resending or erasing the staged slot. -/
  | keyRefuseRx (t epoch cause : Nat)
  /-- KEY_NEXT_RESEND (R161). Resend of an unanswered KEY_NEXT after 8 container multiframes. -/
  | keyNextResend (t : Nat)
  /-- EPOCH_SWITCH (R161). Staged slot becoming CURRENT at the container multiframe boundary, posting TRIB_KEY_PHASE. -/
  | epochSwitch (t : Nat)
  /-- TX_KEY_RETIRE (R161). Erasure of the OLD transmit slot after confirmation and 8 multiframes. -/
  | txKeyRetire (t : Nat)
  /-- TX_KEY_REVERT (R161). CONFIRM_TO expiry reverting to the OLD slot. -/
  | txKeyRevert (t : Nat)
  /-- RX_KEY_RETIRE (R162). Erasure of an OLD receive slot 8 multiframes after its successor authenticated. -/
  | rxKeyRetire (t : Nat)
  /-- KEY_CONFIRM_RESEND (R162). Periodic resend of KEY_CONFIRM every 8 multiframes. -/
  | keyConfirmResend (t : Nat)
  /-- SPAN_COUNT_REKEY (R337). CURRENT epoch reaching 2^SPAN_EXP spans, starting a key change. -/
  | spanCountRekey (t : Nat)
  /-- CLIENT_FRAME_RX (R206). Frame from a client port classified, policed and admitted to a line egress queue. -/
  | clientFrameRx (half : Half) (port : Nat) (f : FrameIn)
  /-- SCHEDULER_PICK (R245). Egress scheduler choosing the next frame or fragment when the port can start one. -/
  | schedulerPick (half : Half) (v : PickAt)
  /-- LINE_FRAME_RX (R176). Frame from a packet-mode line port parsed, rejected or decrypted cut-through. -/
  | lineFrameRx (half : Half) (port : Nat) (f : LineFrameIn)
  /-- FRAME_VERDICT (R177). ICV verdict of a received frame, poisoning or dropping a failed frame. What the line
  MAC found wrong with it: a block that the FEC decoder marked, its FCS, its length. -/
  | frameVerdict (half : Half) (frame : Nat) (marked fcs length : Bool)
  /-- STATION_LEARN (R226). Learning engine applying a learn request: insert, refresh, move or moor. -/
  | stationLearn (half : Half) (r : LearnReq)
  /-- SA_LOAD_COMPLETE (R194). Completion or failure of a parked SA load, releasing or dropping held frames. -/
  | saLoadComplete (half : Half) (dir : Dir) (sc an : Nat)
  /-- HOLD_EXPIRE (R193). Expiry of a held frame's hold, dropping it. -/
  | holdExpire (half : Half) (frame : Nat)
  /-- PREEMPT_VERIFY (R196). Success or failure of IEEE 802.3br verification on a line port. -/
  | preemptVerify (half : Half) (port : Nat) (ok : Bool)
  /-- REFILL_TICK (R249). 128 ns refill tick of shapers and policers, installing pending privileged changes. -/
  | refillTick (half : Half)
  /-- CHANNEL_AGING_SWEEP (R212). Sweep copying HIT into IDLE for unlocked channel entries. -/
  | channelAgingSweep
  /-- STATION_AGING_SWEEP (R229). Sweep removing unhit dynamic stations and clearing HIT. -/
  | stationAgingSweep
  /-- STATION_MOOR_EXPIRE (R227). End of a station's mooring time, releasing it. -/
  | stationMoorExpire (k : StnKey)
  /-- TRIE_NODE_RELEASE (R217). Return of replaced nodes to their pool after 2 crossings. -/
  | trieNodeRelease
  /-- TRIE_BANK_RELEASE (R220). Old bank becoming idle 2 crossings after a commit. -/
  | trieBankRelease
  /-- CASCADE_GRACE_END (R290). End of orphan grace, marking descendants ORPHANED. -/
  | cascadeGraceEnd (handle : Nat)
  /-- KEY_LOAD (R281). Completion of a landing-4 blob DMA read, checking and making the key resident. -/
  | keyLoad (handle : Nat) (dmaOk : Bool) (blob : List Nat)
  /-- KEY_COMMIT_DURABLE (R285). Commit record durable, switching the key to the new generation. -/
  | keyCommitDurable (handle : Nat)
  /-- JOURNAL_COMPACTION (R301). Compaction of the key journal at 75 % use and switch to the image. -/
  | journalCompaction (done : Bool)
  /-- HAIL_SEND (R309). Sending of a HAIL on a carrier instance every HAIL_MS. -/
  | hailSend (c : Carrier)
  /-- PEER_PIECE_RX (R307). Receipt of a peer message piece joining or opening a reassembly. -/
  | peerPieceRx (half : Half) (c : Carrier) (p : Piece)
  /-- REASSEMBLY_TIMEOUT (R307). Discard of a reassembly not complete within 100 ms. -/
  | reassemblyTimeout (half : Half) (c : Carrier) (ty sender session : Nat)
  /-- HAIL_RX (R310). Valid HAIL updating or adding a peer entry. -/
  | hailRx (half : Half) (c : Carrier) (b : HailBody)
  /-- CARRIER_LOSS (R313). Three hail intervals plus 10 ms without a HAIL on an instance; departure when all are lost. -/
  | carrierLoss (member : Nat) (c : Carrier)
  /-- PEER_MOOR_EXPIRE (R315). End of mooring time tearing down the peer's associations. -/
  | peerMoorExpire (member : Nat)
  /-- ZKA_AUTO_START (R319). Automatic ZKA start on an AUTO pairing after TIMEOUT_MS following a failure. -/
  | zkaAutoStart (pairing : Nat)
  /-- ZKA_OFFER_RX (R323). Responder checking an OFFER and sending ANSWER. -/
  | zkaOfferRx (c : Carrier) (m : ZkaBody)
  /-- ZKA_ANSWER_RX (R323). Initiator checking ANSWER and sending FINISH. -/
  | zkaAnswerRx (c : Carrier) (m : ZkaBody)
  /-- ZKA_FINISH_RX (R323). Responder verifying FINISH, installing AK and sending DONE. -/
  | zkaFinishRx (c : Carrier) (m : ZkaBody)
  /-- ZKA_DONE_RX (R323). Initiator checking MAC_R and installing AK. -/
  | zkaDoneRx (c : Carrier) (session : Nat) (body : List Nat)
  /-- ZKA_ABORT_RX (R323). Receipt of ZKA_ABORT ending the session. -/
  | zkaAbortRx (c : Carrier) (session cause : Nat)
  /-- CHARTER_REQ_RX (R324). Answer to a CHARTER_REQ for the module's own charter. -/
  | charterReqRx (c : Carrier) (sender digest : Nat)
  /-- CHARTER_RX (R324). Verification and caching of a received charter. -/
  | charterRx (c : Carrier) (sender : Nat) (charter : List Nat)
  /-- ZKA_FINISH_RESEND (R323). Resend of FINISH after 200 ms without DONE. -/
  | zkaFinishResend (session : Nat)
  /-- ZKA_SESSION_TIMEOUT (R326). Session exceeding TIMEOUT_MS, failing with TIMEOUT. -/
  | zkaSessionTimeout (session : Nat)
  /-- ZKA_CLOSED_EXPIRE (R323). Responder leaving CLOSED 30 s after entering it. -/
  | zkaClosedExpire (session : Nat)
  /-- MKPDU_RX (R332). Receipt of an MKPDU by the MKA participant. -/
  | mkpduRx (ca : Nat) (f : FrameIn)
  /-- MKA_HELLO (R332). MKA Hello Time expiry sending an MKPDU. -/
  | mkaHello (ca : Nat)
  /-- MKA_LIFE_EXPIRE (R332). MKA Life Time expiry losing a live peer or switching SAs. -/
  | mkaLifeExpire (ca : Nat) (what : MkaLife)
  /-- CWY_REPLACE_STEP (R335). Key change started STEP_DELAY_MS after a bound CWY_ASSOC replacement. -/
  | cwyReplaceStep (t : Nat)
  /-- PKE_RELEASE (R344). Release of a public-key operation's result at its deadline. -/
  | pkeRelease (half : Half) (lane : Nat) (completedAt : Nat) (selfOk : Bool)
  /-- PKE_KAT_DONE (R351). Completion of known-answer tests after a fault, failing or restoring the engine. -/
  | pkeKatDone (half : Half) (ok : Bool)
  /-- CROSSING_END (R395). End of a crossing on the active half sending its copy. -/
  | crossingEnd (half : Half) (drained : Bool)
  /-- CROSSING_COPY_RX (R397). Standby applying a whole copy and sending its ACK. -/
  | crossingCopyRx (half : Half) (n : Nat)
  /-- CROSSING_ACK_RX (R405). Active half receiving an ACK, renewing its lease and taking forwarded events and doorbells. -/
  | crossingAckRx (half : Half) (n : Nat)
  /-- COPY_NAK_RX (R398). NAK making the active half resend copies from the named crossing. -/
  | copyNakRx (half : Half) (first : Nat)
  /-- FRAME_MARK (R412). FRAME_MARK block setting the standby's framer bit count. -/
  | frameMark (half : Half) (bits : Nat)
  /-- RELINQUISH (R406). Active half's 6th crossing without an ACK, withdrawing its claim. -/
  | relinquish (half : Half)
  /-- TAKEOVER_SILENT (R406). Standby's 10th crossing without renewal, taking the helm. -/
  | takeoverSilent (half : Half)
  /-- RECLAIM (R406). Relinquished half's 12th crossing without a peer claim, taking the helm. -/
  | reclaim (half : Half)
  /-- HALT_RX (R406). HALT from the other half on the ferry link. -/
  | haltRx (half : Half)
  /-- CLAIM_PREFERRED_SEEN (R404). Half seeing a preferred claim and withdrawing within 200 ns. -/
  | claimPreferredSeen (half : Half)
  /-- CLAIM_LOSS (R401). No correct claim word for 100 ns making a claim absent at a receiver. -/
  | claimLoss (half : Half)
  /-- FINAL_SEAL (R413). Sealing of the FINAL copy when backlog is empty and no command executes, or after 256 crossings. -/
  | finalSeal (half : Half)
  /-- HANDOVER_RECLAIM (R413). Old active half taking the helm back without a preferred claim 10 crossings after FINAL. -/
  | handoverReclaim (half : Half)
  /-- REJOIN_REQUEST (R419). STANDBY_OUT half requesting rejoin once conditions hold. -/
  | rejoinRequest (half : Half)
  /-- REJOIN_COMPLETE (R426). Snapshot complete and self-test round passed, setting IN_STEP. -/
  | rejoinComplete (half : Half)
  /-- SELFTEST_RUN (R400). Periodic standby self-test of Table 13.3. -/
  | selftestRun (half : Half) (test : SelfTest) (ok : Bool)
  /-- USHER_EVENT (R30). Usher numbering an event from a source FIFO and handing it to the rings. -/
  | usherEvent (half : Half) (src : Src)
  /-- DRAM_READ (R435). Read of a protected data line with tag verification and any tree walk; `corr`, `walked`:
  single-bit errors that the DRAM controller corrects in the line, and in what the walk reads (R442). -/
  | dramRead (half : Half) (agent line corr walked : Nat) (bus : DramIn)
  /-- DRAM_WRITE (R437). Whole-line or partial write raising the minor counter. -/
  | dramWrite (half : Half) (agent addr size data : Nat) (bus : List DramIn)
  /-- TAMPER_ALARM (R455). Tamper source entering alarm while unlatched, carrying out its mapped responses. -/
  | tamperAlarm (srcs : List Nat)
  /-- CELL_CHECK (R472). Once-per-minute cell measurement posting CELL_STATE on change. -/
  | cellCheck (mv holdupDays : Nat) (failed charging : Bool)
  /-- FLASH_RECORD_DURABLE (R286). A journal or commit record in the shared flash partition (serial, epoch or HSS reservation, key creation or invalidation, configuration slot, firmware stage, anchor or charter) becomes durable, letting the waiting command complete or the record take effect. -/
  | flashRecordDurable (id : Nat)
  /-- DMA_TRANSFER_END (R559). A DMA transfer of a command's extension buffer, input buffer or result area completes, fails or times out, letting the command continue or complete with INTEGRITY. -/
  | dmaTransferEnd (h : Hdr) (ok : Bool)
  /-- SOURCE_LEAVES_ALARM (R461). A tamper source's condition ends (a temperature source only 5 C inside its limit), so it is no longer in alarm and its latch may be cleared. -/
  | sourceLeavesAlarm (v : SourceEnd)
  /-- PCIE_LINK_CHANGE (R477). One half's PCIe link goes down by a fault or comes up after training, leaving the functions reachable through the other link. -/
  | pcieLinkChange (half : Half) (up : Bool)
  /-- THERMAL_WARN_CLEAR (R535). The sensors fall back below their warning limits, clearing THERMAL_WARN and posting THERMAL as cleared. -/
  | thermalWarnClear (sensor : Sensor) (temp : Int)
  /-- CLIENT_PCS_RESTART_DONE (R49). The client PCS restart started by an accepted split or mode change ends, within 100 us, so ingress is no longer discarded and egress stops sending Local Fault. -/
  | clientPcsRestartDone (half : Half) (lane : Nat)
deriving DecidableEq, Repr

end Sys2Proof
end

