-- ==== Sys2Proof/Decode.lean ====
section
/-! DEFINITION. The host's decoder of table words.  No row of the table gives bits to a step: commands arrive as
descriptors (Table 16.5) and happenings have no words, so no word spells a step. -/

namespace Sys2Proof

/-- The step that a word of the table spells: none. -/
def decodeTableWord (_nbits _w : Nat) : Option Instr := none

end Sys2Proof
end

