-- ==== Sys2Proof/Config.lean ====
section
/-! DEFINITION. What the spec leaves open, as constants without a body (free values), and the one-way functions
of the cipher chapters, which the model keeps uninterpreted: no proof can see a value of one of them. -/

namespace Sys2Proof.Config

/-- Free values, by the model's counter `State.fv`: random draws, arbitrary starting values, choices that the
spec leaves to the module. -/
opaque freeNat : Nat → Nat

/-- Capacity in words of each handshake FIFO (GLB_FIFO_STAT.CAPACITY: "fixed per FIFO", no figure given). DESIGN
CHOICE: notes/assumptions/11.md. -/
opaque fifoCapacity : Nat → Nat

/-- Entries of the usher FIFO of each kind of source, which the spec gives for alarms only (R36). DESIGN CHOICE:
notes/assumptions/102.md. -/
opaque sourceDepth : Src → Nat

/-- What a measuring register shows at an instant: register and time (`TMP_MESH_STAT`). DEDUCED:
notes/assumptions/97.md. -/
opaque reading : Nat → Nat → Nat

/-- KMAC256 (key, data, output length in bits, customization string), SHA-3 and SHA-2 (output length, data), over bytes.
DESIGN CHOICE: notes/assumptions/9.md. -/
opaque kmac256 : List Nat → List Nat → Nat → String → List Nat
opaque sha3 : Nat → List Nat → List Nat
opaque sha2 : Nat → List Nat → List Nat

/-- The AES block cipher: key bytes and a block as a number. DESIGN CHOICE: notes/assumptions/9.md. -/
opaque aes : List Nat → Nat → Nat
/-- ML-KEM-1024 (FIPS 203): the encapsulation and decapsulation keys of a seed; ciphertext and shared secret of an
encapsulation key and a random message; the shared secret of a decapsulation. DESIGN CHOICE: notes/assumptions/9.md. -/
opaque mlkemKeys : Nat → List Nat × List Nat
opaque mlkemEncaps : List Nat → Nat → List Nat × List Nat
opaque mlkemDecaps : List Nat → List Nat → List Nat
/-- The ECDSA nonce of RFC 6979 from the scalar, the digest and the random bytes that hedge it. DESIGN CHOICE:
notes/assumptions/9.md. -/
opaque ecdsaNonce : Nat → List Nat → Nat → Nat
/-- The inverse of the AES block cipher. DESIGN CHOICE: notes/assumptions/9.md. -/
opaque aesInv : List Nat → Nat → Nat

/-- Bit `i` of the substitute stream of a k-slot tributary: continuous Local Fault ordered sets with alignment markers,
as IEEE 802.3 codes them (R110). DESIGN CHOICE: notes/assumptions/108.md. -/
opaque substituteBit : Nat → Nat → Bool

/-- The loop that recovers a client's rate: its next state from the bandwidth code of `TRB_EGRESS_CFG.BW`, its state and
the stream bits that a frame's rows delivered; the rule gives its order, bandwidth and peaking, and no more (R111).
DESIGN CHOICE: notes/assumptions/108.md. -/
opaque rateLoop : Nat → Nat → Nat → Nat

/-- The primality tests of R347, whose bases are random. DESIGN CHOICE: notes/assumptions/9.md. -/
opaque primalityTest : Nat → Bool

/-- The parity symbols of a codeword by the message symbols and an index: RS(544,514) of IEEE 802.3, which the spec
names and does not restate (R56). DESIGN CHOICE: notes/assumptions/99.md. -/
opaque parity : List Nat → Nat → Nat

/-- 64-byte units of a key journal record beyond the first, by its kind (R301: sizes are not stated). DESIGN CHOICE:
notes/assumptions/12.md. -/
opaque recordUnits : Nat → Nat

/-- Measured PCS deskew of the latest client lane of a tributary, in 2^−16 ns (Table 12.4). DESIGN CHOICE:
notes/assumptions/10.md. -/
opaque clientSkew : Nat → Nat

/-- Measured PCS deskew delay of the lane that carried the start-of-frame delimiter, by lane index of the port and frame,
in 2^−16 ns (Table 12.3). DESIGN CHOICE: notes/assumptions/10.md. -/
opaque sfdSkew : Nat → Nat → Nat

/-- The two keyed hash functions of the learned-station table: sub-table, hash key, station key (R222). DESIGN CHOICE:
notes/assumptions/10.md. -/
opaque stnHash : Nat → Nat → Nat → Nat

/-- Address of a port, by lane index, and the clockIdentity of the PTP engine. DESIGN CHOICE: notes/assumptions/10.md. -/
opaque portAddress : Nat → Nat
opaque clockIdentity : Nat

/-- SCI of a line port: made of its MAC address. DESIGN CHOICE: notes/assumptions/10.md. -/
opaque portSci : Nat → Nat

/-- The 256-bit fuse value F of both halves, the error-corrected PUF response P, and the envelope seed E by how many seeds
have been drawn before it (R266): each is drawn at random, and no rule gives a value. DESIGN CHOICE:
notes/assumptions/10.md. -/
opaque fuse : Nat
opaque puf : Nat
opaque envelopeSeed : Nat → Nat

/-- What the module is made with: serial number; when, and the manufacturer's signature of the birth record (R547); the
digest of the firmware keys, fused (R361). DESIGN CHOICE: notes/assumptions/10.md. -/
opaque moduleSerial : Nat
opaque made : Nat
opaque makerSignature : List Nat
opaque fwKeys : Nat

end Sys2Proof.Config
end

