-- ==== Sys2Proof/Machine/Bytes.lean ====
section
/-! DEFINITION. Numbers, bytes and bits: the two byte orders, fields of a byte string, CRC-32C, and the 16-byte words of
the fibre as numbers whose most significant bit is the first. -/

namespace Sys2Proof.Machine

open Sys2Proof

/-- 1 or 0. DEDUCED: notes/assumptions/26.md. -/
def b2n (b : Bool) : Nat := if b then 1 else 0

/-! ## Byte orders -/

/-- A number as `n` bytes, most significant byte first. -/
def beBytes (n v : Nat) : List Nat := (List.range n).map fun i => v / 256 ^ (n - 1 - i) % 256

/-- A number as `n` bytes, least significant byte first. -/
def leBytes (n v : Nat) : List Nat := (List.range n).map fun i => v / 256 ^ i % 256

/-- Bytes as a number, most significant byte first. -/
def beNat (bs : List Nat) : Nat := bs.foldl (fun a b => a * 256 + b % 256) 0

/-- Bytes as a number, least significant byte first. -/
def leNat (bs : List Nat) : Nat := beNat bs.reverse

/-- Bytes of a little-endian field. -/
def fldBytes (f : Fld) : List Nat := leBytes f.1 f.2

/-- Bytes with zeros after them, `n` in all. -/
def padTo (n : Nat) (bs : List Nat) : List Nat := (bs ++ List.replicate n 0).take n

/-- `n` bytes of a byte string from an offset on. -/
def bytesAt (bs : List Nat) (off n : Nat) : List Nat := padTo n (bs.drop off)

/-! ## CRC-32C -/

/-- One byte into a CRC-32C register. -/
def crcByte (c b : Nat) : Nat :=
  (List.range 8).foldl (fun c _ => if c % 2 = 1 then (c / 2) ^^^ 0x82F63B78 else c / 2) (c ^^^ b)

/-- CRC-32C (Castagnoli, reflected) of bytes. -/
def crc32c (bs : List Nat) : Nat := bs.foldl crcByte 0xFFFFFFFF ^^^ 0xFFFFFFFF

/-- The last 4 bytes are the CRC-32C of the bytes before them, most significant byte first (R84). -/
def crcOk (bs : List Nat) : Bool :=
  let n := bs.length - 4
  decide (4 ≤ bs.length) && decide (crc32c (bs.take n) = beNat (bs.drop n))

/-- Bytes with their CRC-32C after them, most significant byte first (R84). -/
def withCrc (bs : List Nat) : List Nat := bs ++ beBytes 4 (crc32c bs)

/-! ## Bits -/

/-- Bits of bytes, each byte most significant bit first (R72). -/
def msbBits (bs : List Nat) : List Bool := bs.flatMap fun b => (List.range 8).map fun i => b.testBit (7 - i)

/-- Bits as a number, the first the most significant. -/
def bitsNat (bs : List Bool) : Nat := bs.foldl (fun a b => 2 * a + b2n b) 0

/-- Bits with zeros after them, `n` in all. -/
def padBits (n : Nat) (bs : List Bool) : List Bool := (bs ++ List.replicate n false).take n

/-! ## Words of 16 bytes (R101, R113) -/

/-- A word as its 16 bytes, byte 0 first. -/
def wordBytes (w : Nat) : List Nat := beBytes 16 w

/-- The words of bytes, 16 bytes each. -/
def wordsOf (n : Nat) (bs : List Nat) : List Nat := (List.range n).map fun i => beNat (bytesAt bs (16 * i) 16)

/-- The 128 bits of a word in order: the first is bit 7 of byte 0 (R122). -/
def wordBits (w : Nat) : List Bool := (List.range 128).map fun i => w.testBit (127 - i)

/-- A word of 128 bits. -/
def bitsWord (bs : List Bool) : Nat := bitsNat (padBits 128 bs)

/-- Sixteen bytes of 0xFF. -/
def onesWord : Nat := 2 ^ 128 - 1

/-- The bits of words in order. -/
def wordsBits (ws : List Nat) : List Bool := ws.flatMap wordBits

/-- The words that carry bits, the last filled with zeros. -/
def bitsWords (n : Nat) (bs : List Bool) : List Nat := (List.range n).map fun i => bitsWord ((bs.drop (128 * i)).take 128)

/-- BIP-16 of bits: bit i enters BIP bit 15 − (i mod 16) (R80). -/
def bip16 (bits : List Bool) : Nat :=
  bits.zipIdx.foldl (fun a p => a ^^^ (if p.1 then 2 ^ (15 - p.2 % 16) else 0)) 0

/-- Errors of a comparison of two BIPs: the bits that differ, 0 to 16 (R81). -/
def bipErrors (computed received : Nat) : Nat :=
  ((List.range 16).filter fun i => computed.testBit i != received.testBit i).length

end Sys2Proof.Machine
end

