-- ==== Sys2Proof/Machine/Crypto.lean ====
section
/-! DEFINITION. The algorithms that the spec names, over byte strings: KMAC256, SHA-2 and SHA-3 as functions of their
inputs, AES as a block cipher without a body, and the modes built on it: GCM (SP 800-38D), key wrap (RFC 3394), CMAC
and SIV (RFC 5297).  A byte string that State holds as a number has its first byte least significant
(notes/assumptions/100.md). -/

namespace Sys2Proof.Machine

open Sys2Proof

/-- KMAC256 of SP 800-185: key, data, output length in bits, customization string. DESIGN CHOICE:
notes/assumptions/9.md. -/
def kmac (key data : List Nat) (bits : Nat) (custom : String) : List Nat :=
  padTo (bits / 8) ((Config.kmac256 key data bits custom).map (· % 256))

/-- SHA-3 with an output of `bits` bits (FIPS 202). DESIGN CHOICE: notes/assumptions/9.md. -/
def sha3 (bits : Nat) (data : List Nat) : List Nat := padTo (bits / 8) ((Config.sha3 bits data).map (· % 256))

/-- SHA-2 with an output of `bits` bits (FIPS 180-4). DESIGN CHOICE: notes/assumptions/9.md. -/
def sha2 (bits : Nat) (data : List Nat) : List Nat := padTo (bits / 8) ((Config.sha2 bits data).map (· % 256))

/-- One AES block under a key of 16 or 32 bytes; the block as a number, its first byte the most significant. DESIGN
CHOICE: notes/assumptions/9.md. -/
def aes (key : List Nat) (block : Nat) : Nat := Config.aes key block % 2 ^ 128

/-! ## GCM (SP 800-38D) -/

/-- The product of two blocks in the field of GHASH: x^128 + x^7 + x^2 + x + 1, the first bit the constant term. -/
def gfMul (x y : Nat) : Nat :=
  ((List.range 128).foldl (fun (p : Nat × Nat) i =>
    (if x.testBit (127 - i) then p.1 ^^^ p.2 else p.1,
     if p.2.testBit 0 then (p.2 / 2) ^^^ 0xE1000000000000000000000000000000 else p.2 / 2)) (0, y)).1

/-- GHASH of blocks under a hash key. -/
def ghash (h : Nat) (blocks : List Nat) : Nat := blocks.foldl (fun y b => gfMul (y ^^^ b) h) 0

/-- The blocks of bytes, the last filled with zeros. -/
def blocksOf (bs : List Nat) : List Nat := wordsOf ((bs.length + 15) / 16) bs

/-- Block `i` of the key stream under a 96-bit IV. -/
def gcmStream (key : List Nat) (iv i : Nat) : Nat := aes key (iv % 2 ^ 96 * 2 ^ 32 + (i + 2) % 2 ^ 32)

/-- Words from word `i` of an operation on, encrypted; decrypting is the same. -/
def gcmCrypt (key : List Nat) (iv i : Nat) (ws : List Nat) : List Nat :=
  ws.zipIdx.map fun p => p.1 ^^^ gcmStream key iv (i + p.2)

/-- The tag of an operation over associated data and whole words of ciphertext. -/
def gcmTag (key : List Nat) (iv : Nat) (aad cipher : List Nat) : Nat :=
  ghash (aes key 0) (blocksOf aad ++ cipher ++ [8 * aad.length * 2 ^ 64 + 128 * cipher.length]) ^^^
    aes key (iv % 2 ^ 96 * 2 ^ 32 + 1)

/-- Bytes of an operation, encrypted; decrypting is the same. -/
def gcmCryptBytes (key : List Nat) (iv : Nat) (bs : List Nat) : List Nat :=
  ((gcmCrypt key iv 0 (blocksOf bs)).flatMap wordBytes).take bs.length

/-- The tag of an operation over associated data and bytes of ciphertext. -/
def gcmTagBytes (key : List Nat) (iv : Nat) (aad cipher : List Nat) : Nat :=
  ghash (aes key 0) (blocksOf aad ++ blocksOf cipher ++ [8 * aad.length * 2 ^ 64 + 8 * cipher.length]) ^^^
    aes key (iv % 2 ^ 96 * 2 ^ 32 + 1)

/-! ## AES key wrap (RFC 3394) -/

/-- One step of the wrap: the register and the first of the halves left, which goes to the end. -/
def wrapStep (key : List Nat) (p : Nat × List Nat) (t : Nat) : Nat × List Nat :=
  match p.2 with
  | [] => p
  | r :: rest =>
    let b := aes key (p.1 * 2 ^ 64 + r)
    (b / 2 ^ 64 ^^^ (t + 1), rest ++ [b % 2 ^ 64])

/-- A key of 16 or 32 bytes, wrapped: 8 bytes more. -/
def keyWrap (key plain : List Nat) : List Nat :=
  let n := plain.length / 8
  let halves := (List.range n).map fun i => beNat (bytesAt plain (8 * i) 8)
  let r := (List.range (6 * n)).foldl (wrapStep key) (0xA6A6A6A6A6A6A6A6, halves)
  beBytes 8 r.1 ++ r.2.flatMap (beBytes 8)

/-! ## CMAC -/

/-- Doubling in the field of CMAC. -/
def cmacDouble (x : Nat) : Nat := (2 * x % 2 ^ 128) ^^^ (if x.testBit 127 then 0x87 else 0)

/-- AES-CMAC of bytes. -/
def cmac (key bs : List Nat) : Nat :=
  let k1 := cmacDouble (aes key 0)
  let whole := decide (bs.length % 16 = 0) && !bs.isEmpty
  let ws := if whole then blocksOf bs else blocksOf (bs ++ [0x80])
  let last := ws.getLastD 0 ^^^ (if whole then k1 else cmacDouble k1)
  (ws.dropLast ++ [last]).foldl (fun c b => aes key (c ^^^ b)) 0

/-! ## SIV (RFC 5297) -/

/-- The synthetic IV of a plaintext of at least 16 bytes under one associated-data string, with the first half of the
key. -/
def sivTag (key ad plain : List Nat) : Nat :=
  let k1 := key.take 32
  let d := cmacDouble (cmac k1 (List.replicate 16 0)) ^^^ cmac k1 ad
  let n := plain.length - 16
  cmac k1 (plain.take n ++ wordBytes (beNat (plain.drop n) ^^^ d))

/-- Words encrypted under a synthetic IV, with the second half of the key; decrypting is the same. -/
def sivCrypt (key : List Nat) (v : Nat) (ws : List Nat) : List Nat :=
  let q := v &&& (2 ^ 128 - 1 - 2 ^ 63 - 2 ^ 31)
  ws.zipIdx.map fun p => p.1 ^^^ aes (key.drop 32) ((q + p.2) % 2 ^ 128)

/-! ## Key-check values (R275) -/

/-- The KCV of a key of 16 or 32 bytes. -/
def kcv (len256 : Bool) (key : Nat) : Nat :=
  leNat ((kmac (leBytes (if len256 then 32 else 16) key) [] 256 "FNZ-KEY-KCV").take 8)

end Sys2Proof.Machine
end

