-- ==== Sys2Proof/Machine/RegMap.lean ====
section
/-! DEFINITION. The writable set-up registers: address, index ranges, fields with access type, reset value and
range (the register tables of 01 to 18; R14, R42).  Read-only and read-clear registers are views of the state
(`Machine/Views.lean`). -/

namespace Sys2Proof.Machine

open Sys2Proof

/-- Access types of writable fields (Table 00.5), and a bit beside them that always reads 1. -/
inductive Acc where
  | rw | w1s | w1c | wo | one
deriving DecidableEq, Repr

/-- A writable field: bits [hi:lo], reset value, least and greatest value in range. -/
structure RField where
  hi  : Nat
  lo  : Nat
  rst : Nat
  min : Nat
  max : Nat
  acc : Acc := .rw
deriving DecidableEq, Repr

/-- Where a register belongs: copied between the halves (R50, R106), to one half, or to the module's tamper or board
controller (R460) (R50, R106, R139, R168, R235, R264, R480). -/
inductive Home where
  | paired | half | module
deriving DecidableEq, Repr

/-- A register or an array of registers: offset + stride·i + stride2·j for i < count and j < count2. -/
structure RegSpec where
  base    : Nat
  flds    : List RField
  home    : Home := .paired
  count   : Nat := 1
  stride  : Nat := 0x10000000
  count2  : Nat := 1
  stride2 : Nat := 4
  /-- Written through a row of its own, or only under a rule of its own. -/
  own     : Bool := false
deriving DecidableEq, Repr

/-- A field whose range is all its bits hold. -/
def fullF (hi lo rst : Nat) : RField := { hi, lo, rst, min := 0, max := 2 ^ (hi + 1 - lo) - 1 }

/-- A field with a stated range. -/
def rangeF (hi lo rst min max : Nat) : RField := { hi, lo, rst, min, max }

/-- GLB and HIF registers (01, 16). -/
def regsGlbHif : List RegSpec :=
  [ { base := 0x100, home := .half,
      flds := [fullF 26 26 1, rangeF 25 16 880 800 940, rangeF 15 8 40 10 100, fullF 7 0 40] },
    { base := 0x300, home := .half, flds := [fullF 9 0 0] },
    { base := 0x304, home := .half, own := true, flds := [fullF 15 0 0] },
    { base := 0x10000C, flds := [fullF 1 0 0] },
    { base := 0x100100, count := 4, stride := 0x20, flds := [fullF 31 12 0] },
    { base := 0x100104, count := 4, stride := 0x20, flds := [fullF 31 0 0] },
    { base := 0x100108, count := 4, stride := 0x20, own := true,
      flds := [fullF 31 31 0, rangeF 20 16 10 6 16, rangeF 12 10 0 0 7] },
    { base := 0x100110, count := 4, stride := 0x20, flds := [fullF 31 16 0, rangeF 15 0 1 1 65535] },
    { base := 0x100404, count := 15, stride := 4,
      flds := [rangeF 31 23 16 0 256, rangeF 22 14 16 0 256, rangeF 12 0 1024 1 8191] } ]

/-- LNE registers (02). -/
def regsLne : List RegSpec :=
  [ { base := 0x200000, own := true, flds := [fullF 3 0 0] },
    { base := 0x200008, own := true, flds := [fullF 15 0 0] },
    { base := 0x20000C, own := true, flds := [fullF 31 0 0] },
    { base := 0x201000, count := 64, stride := 0x10, own := true,
      flds := [fullF 11 11 0, fullF 10 10 0, fullF 9 9 0, fullF 8 8 0, rangeF 5 4 0 0 2, rangeF 1 0 0 0 2] },
    { base := 0x201004, count := 64, stride := 0x10,
      flds := [fullF 17 16 1, fullF 8 8 1, rangeF 5 0 16 0 40] },
    { base := 0x201008, count := 64, stride := 0x10,
      flds := [rangeF 27 24 0 0 8, rangeF 20 16 6 0 24, rangeF 13 8 52 32 63, rangeF 4 0 0 0 16] } ]

/-- CWY, TRB and L1C registers (03, 04, 05). -/
def regsCwy : List RegSpec :=
  [ { base := 0x300000, flds := [rangeF 11 8 5 2 15, rangeF 3 0 3 2 8] },
    { base := 0x300004, flds := [rangeF 23 16 0 0 250, rangeF 10 0 512 0 1024] },
    { base := 0x300100, count := 16, stride := 0x10, own := true,
      flds := [fullF 31 31 0, { hi := 30, lo := 30, rst := 0, min := 0, max := 1, acc := .wo },
               rangeF 11 8 6 5 9] },
    { base := 0x300104, count := 16, stride := 0x10, flds := [fullF 31 0 0] },
    { base := 0x400000, count := 32, stride := 0x100, own := true,
      flds := [fullF 31 31 0, fullF 30 30 0, fullF 29 28 0, fullF 27 27 0, fullF 26 26 0, rangeF 11 8 6 5 9] },
    { base := 0x400080, count := 32, stride := 0x100, count2 := 32, flds := [fullF 8 4 0, fullF 3 0 0] },
    { base := 0x402000, flds := [fullF 1 0 2] },
    { base := 0x500000, count := 32, stride := 0x20,
      flds := [fullF 31 31 0, fullF 27 24 0, rangeF 22 16 4 1 64, rangeF 11 8 4 1 15, rangeF 7 0 32 16 255] } ]

/-- PKT, CLS and HAL registers (06, 07, 08). -/
def regsPkt : List RegSpec :=
  [ { base := 0x600000, count := 32, stride := 0x10, own := true,
      flds := [fullF 31 31 0, fullF 30 30 1, fullF 29 29 0, fullF 28 28 0, fullF 27 26 0, rangeF 25 24 0 0 2,
               rangeF 14 0 9216 1518 16384] },
    { base := 0x600200, flds := [fullF 31 0 0] },
    { base := 0x600204, own := true, flds := [rangeF 31 0 0x40000000 1 0xFFFFFFFF] },
    { base := 0x600208, flds := [rangeF 31 0 0xC0000000 1 0xFFFFFFFF] },
    { base := 0x600300, flds := [fullF 31 28 15, rangeF 24 16 64 1 256, rangeF 14 0 8192 0 16384] },
    { base := 0x700000, count := 32, stride := 4, flds := [fullF 17 16 3, rangeF 11 0 1 1 4094] },
    { base := 0x700100, flds := [fullF 27 16 300, rangeF 11 0 60 1 4095] },
    { base := 0x700104, flds := [fullF 31 31 1, fullF 30 30 0, fullF 9 8 0, fullF 7 0 10] },
    { base := 0x800000, flds := [rangeF 14 0 4096 1024 16384] },
    { base := 0x800010, flds := [fullF 10 8 1, fullF 6 4 1, fullF 2 0 1] },
    { base := 0x801000, count := 512, stride := 4, flds := [fullF 31 14 16384, fullF 13 0 0] },
    { base := 0x801800, count := 16, stride := 4, flds := [fullF 14 0 1024] } ]

/-- KEY, ZKA and PKE registers (09, 10, 11). -/
def regsKey : List RegSpec :=
  [ { base := 0x900000, count := 16, stride := 0x10, flds := [rangeF 29 24 0 0 60, rangeF 10 0 1024 0 1024] },
    { base := 0xA00004, flds := [fullF 31 31 1, rangeF 10 0 100 10 1000] },
    { base := 0xA00008, flds := [rangeF 15 0 2000 0 60000] },
    { base := 0xA0000C, flds := [rangeF 31 16 100 0 10000, rangeF 15 0 2000 100 60000] },
    { base := 0xA00010, flds := [rangeF 4 0 20 1 20] },
    { base := 0xA00014, flds := [rangeF 5 0 40 28 44] },
    { base := 0xB00010, flds := [rangeF 5 0 30 20 39] } ]

/-- TIM registers (12). -/
def regsTim : List RegSpec :=
  [ { base := 0xC00000, count := 4, stride := 0x20,
      flds := [rangeF 30 28 0 0 4, fullF 27 27 1, fullF 23 20 1, fullF 19 16 4, rangeF 15 0 1000 100 65535] },
    { base := 0xC00100, flds := [fullF 31 31 0, fullF 30 30 0, fullF 29 28 0, rangeF 23 16 100 1 200, fullF 15 0 0] },
    { base := 0xC00104, flds := [fullF 31 31 0, fullF 29 28 0, rangeF 23 16 100 1 200, fullF 15 0 0] },
    { base := 0xC00200, count := 64, stride := 4,
      flds := [fullF 31 31 0, fullF 30 30 0, fullF 25 24 0, fullF 23 12 0, fullF 11 0 0] },
    { base := 0xC00300, flds := [fullF 31 31 0, fullF 29 24 32, fullF 21 20 0, rangeF 15 8 0 0 127] } ]

/-- HLM, TMP, CNT and MOD registers (13, 15, 17, 18). -/
def regsHlm : List RegSpec :=
  [ { base := 0xD00020, flds := [fullF 15 8 32, fullF 7 0 20] },
    { base := 0xF00008, home := .module, own := true,
      flds := [{ hi := 20, lo := 0, rst := 0, min := 0, max := 2 ^ 21 - 1, acc := .w1c }] },
    { base := 0xF0000C, home := .module, own := true,
      flds := [{ hi := 31, lo := 31, rst := 0, min := 0, max := 1, acc := .w1s }, fullF 7 0 0xFF] },
    { base := 0xF00100, home := .module, count := 21, stride := 4, 
      flds := [fullF 2 2 0, fullF 1 1 0, { hi := 0, lo := 0, rst := 1, min := 0, max := 1, acc := .one }] },
    { base := 0x1000000, home := .half, own := true, count := 256, stride := 0x10,
      flds := [fullF 31 31 0, fullF 30 30 0, rangeF 29 28 0 0 2, fullF 27 24 0, fullF 23 16 0, fullF 9 0 0] },
    { base := 0x1000004, home := .half, own := true, count := 256, stride := 0x10, flds := [fullF 17 0 0] },
    { base := 0x1001000, home := .half, flds := [fullF 15 0 0] },
    { base := 0x1100010, home := .module, flds := [rangeF 6 0 40 30 100] },
    { base := 0x1100100, home := .module, own := true, count := 8, stride := 8,
      flds := [fullF 31 31 1, fullF 30 30 0, rangeF 4 0 30 8 30] } ]

/-- The register map. -/
def regMap : List RegSpec :=
  regsGlbHif ++ (regsLne ++ (regsCwy ++ (regsPkt ++ (regsKey ++ (regsTim ++ regsHlm)))))

/-- Whether an offset belongs to a register specification. -/
def RegSpec.covers (r : RegSpec) (off : Nat) : Bool :=
  decide (r.base ≤ off) && decide ((off - r.base) / r.stride < r.count) &&
    decide ((off - r.base) % r.stride % r.stride2 = 0) && decide ((off - r.base) % r.stride / r.stride2 < r.count2)

/-- The specification that covers an offset. -/
def regSpecOf (off : Nat) : Option RegSpec := regMap.find? (·.covers off)

/-- Bits [hi:lo] of a word. -/
def bits (w : Word) (hi lo : Nat) : Nat := w.toNat / 2 ^ lo % 2 ^ (hi + 1 - lo)

/-- The word with bits [hi:lo] replaced. -/
def setBits (w : Word) (hi lo v : Nat) : Word :=
  BitVec.ofNat 32 (w.toNat - bits w hi lo * 2 ^ lo + v % 2 ^ (hi + 1 - lo) * 2 ^ lo)

/-- Bit i of a word. -/
def bit (w : Word) (i : Nat) : Bool := decide (bits w i i = 1)

/-- Default map of a tamper source (Table 15.2) with REPORT, which always reads 1: bit 2 ERASE, bit 1 HALT_HALF. -/
def tmpMapDefault (s : Nat) : Nat := if 16 ≤ s ∧ s ≤ 19 then 3 else 5

/-- The reset word of a register: its fields at their reset values, reserved bits 0; the three arrays whose
reset depends on the index are the ring vector (16), the queue reserve (08) and the tamper maps (15). DESIGN CHOICE:
notes/assumptions/13.md. -/
def resetWord (off : Nat) : Word :=
  match regSpecOf off with
  | none => 0
  | some r =>
    let w := r.flds.foldl (fun w f => setBits w f.hi f.lo f.rst) 0
    if r.base = 0x100108 then setBits w 12 10 ((off - r.base) / 0x20)
    else if r.base = 0x801000 && decide ((off - r.base) / 4 % 8 = 0) then setBits w 13 0 64
    else if r.base = 0xF00100 then BitVec.ofNat 32 (tmpMapDefault ((off - r.base) / 4))
    else w

/-- Every field of a written word lies in its stated range (R42). -/
def RegSpec.inRange (r : RegSpec) (w : Word) : Bool :=
  r.flds.all fun f => decide (f.min ≤ bits w f.hi f.lo) && decide (bits w f.hi f.lo ≤ f.max)

/-- The register after an accepted write (R14): RW fields take the written value, W1S fields are set, W1C
fields cleared, WO and reserved fields keep 0. -/
def RegSpec.apply (r : RegSpec) (old w : Word) : Word :=
  r.flds.foldl (fun acc f =>
    match f.acc with
    | .rw  => setBits acc f.hi f.lo (bits w f.hi f.lo)
    | .w1s => setBits acc f.hi f.lo (bits old f.hi f.lo ||| bits w f.hi f.lo)
    | .w1c => setBits acc f.hi f.lo (bits old f.hi f.lo &&& (2 ^ (f.hi + 1 - f.lo) - 1 - bits w f.hi f.lo))
    | .wo  => acc
    | .one => setBits acc f.hi f.lo (2 ^ (f.hi + 1 - f.lo) - 1)) 0

/-- Where a register of a function is kept: the record location of Table 16.13. -/
def regKey (fn off : Nat) : Nat := fn * 0x10000000 + off

/-- A ring register of a function. -/
def isRingReg (off : Nat) : Bool := decide (0x100100 ≤ off ∧ off < 0x100180)

/-- The blocks in the order of R497, by offset. -/
def saveBlocks : List (List RegSpec) :=
  [regsLne, regsCwy, regsPkt, regsKey, regsTim, regsHlm, regsGlbHif]

/-- The registers of a specification that the standing configuration holds, with the function of each. -/
def RegSpec.saved (r : RegSpec) : List (Nat × Nat) :=
  if r.home = .half ∨ r.base = 0xF00008 ∨ isRingReg r.base then []
  else
    let offs := (List.range r.count).flatMap fun i =>
      (List.range r.count2).map fun j => r.base + r.stride * i + r.stride2 * j
    if r.base = 0x10000C then (List.range 16).map fun fn => (fn, 0x10000C) else offs.map fun o => (0, o)

/-- The registers of R496 in the order of R497. -/
def savedRegs : List (RegSpec × Nat × Nat) :=
  saveBlocks.flatMap fun b => b.flatMap fun r => r.saved.map fun p => (r, p)

/-- The factory defaults as records (R496–R498): every register of the standing configuration at its reset value, but
`LNE_LANE_CFG[n].PWR` at 2 for the client lanes 0–31. DEDUCED: notes/assumptions/93.md. -/
def factoryRecords : List (Nat × Word) :=
  savedRegs.map fun p =>
    let off := p.2.2
    (regKey p.2.1 off,
     if 0x201000 ≤ off ∧ off < 0x201200 ∧ off % 16 = 0 then setBits (resetWord off) 1 0 2 else resetWord off)

end Sys2Proof.Machine
end

