-- ==== Sys2Proof/Machine/State.lean ====
section
/-! DEFINITION. The state of the module as plain data.  `HState` is one half (R17); `Image` is the part of a
half that crossing copies carry to the standby (Table 13.1); `Flash`, `Tamper` and `Board` belong to the
module.  A default on a field is its reset value; `State.reset` is the module as mains is applied (COLD). -/

namespace Sys2Proof.Machine

open Sys2Proof

/-- Why the module stops. -/
inductive Fault where
  /-- Raised by a step that names a unit (lane, tributary, core, ring, DRAM line …) that the module does not
  have.  SAFE: no such step can happen on the hardware. -/
  | noSuchUnit
deriving DecidableEq, Repr

/-- Why the model gives a command no meaning. -/
inductive Refusal where
  /-- Raised only by an arm of `exec` whose meaning is not written; the string is the row's mnemonic.  SAFE: the
  model stops. -/
  | notModelled (mnemonic : String)
deriving DecidableEq, Repr

/-! ## Posts: events and completions on their way to the rings -/

/-- Where an event is posted (Table 16.9). -/
inductive Route where
  /-- the PF -/
  | pf
  /-- the PF, and VFd when d ≥ 1 -/
  | dom (d : Nat)
  /-- the function concerned, and the PF -/
  | fn (f : Nat)
  /-- every function whose event ring is enabled -/
  | all
  /-- every function, held where its ring is not enabled (R545) -/
  | every
deriving DecidableEq, Repr

/-- An event (Table 16.8).  `key` names the level source (R36, R490); 0 when the event is not a level event. -/
structure Ev where
  code     : Nat
  origin   : Half
  absorbed : Nat
  payload  : List Fld
  route    : Route
  key      : Nat
  times    : List (Option TimeVal)
deriving DecidableEq, Repr

/-- A completion (Table 16.7). -/
structure Cpl where
  op     : Nat
  fn     : Nat
  table  : Bool
  half   : Half
  status : Nat
  tag    : Nat
  pos    : Nat
  cflags : Nat
  result : List Fld
deriving DecidableEq, Repr

/-- A command as its completion names it. -/
structure Cmd where
  op    : Nat
  fn    : Nat
  table : Bool
  pos   : Nat
  tag   : Nat
deriving DecidableEq, Repr

/-- What an usher source holds.  `due`: the place of a completion whose command has acted and still waits for its
result area or its record, so that completions keep the order of execution (R29). -/
inductive Post where
  | ev (e : Ev)
  | cpl (c : Cpl)
  | due (c : Cmd)
deriving DecidableEq, Repr

/-- A post with its usher sequence number (R30). -/
structure Numbered where
  seq  : Nat
  post : Post
deriving DecidableEq, Repr

/-- A 64-byte entry of a completion or event ring, with its PHASE; `cont` is a continuation entry (R488). -/
inductive Entry where
  | main (phase : Bool) (conts : Nat) (n : Numbered)
  | cont (phase : Bool) (index : Nat) (n : Numbered)
deriving DecidableEq, Repr

/-- An entry with its ring and its position (R481). -/
structure Placed where
  fn    : Nat
  ring  : Nat
  pos   : Nat
  entry : Entry
deriving DecidableEq, Repr

/-- Indices and stall of one ring (R480–R486, R491). -/
structure Ring where
  /-- Rings 0, 3: descriptors taken.  Rings 1, 2: entries produced. -/
  count    : Nat := 0
  /-- Last count accepted by the doorbell. -/
  db       : Nat := 0
  stalled  : Bool := false
  cause    : Nat := 0
  /-- Entries written since the last MSI-X message, and when the first of them was written. -/
  modCount : Nat := 0
  modSince : Nat := 0
  /-- Descriptors a doorbell covers and the ring has not taken, the front one first. -/
  waiting  : List Desc := []
  /-- The front waiting descriptor's PHASE did not match, since this instant (R482). -/
  retryAt  : Option Nat := none
deriving DecidableEq, Repr

/-- A command taken and not completed. -/
structure Taken where
  table : Bool
  pos   : Nat
  tag   : Nat
  op    : Nat
deriving DecidableEq, Repr

/-- The rings of one function and what waits for them. -/
structure FnSt where
  cmd     : Ring := {}
  cpl     : Ring := {}
  evt     : Ring := {}
  tbl     : Ring := {}
  taken   : List Taken := []
  /-- Completions to discard when they come (R495). -/
  discard : List Taken := []
  /-- The overflow store (R490). -/
  held    : List Numbered := []
  dropped : Nat := 0
  dropLo  : Nat := 0
  dropHi  : Nat := 0
deriving DecidableEq, Repr

/-- What leaves the module: interrupts, messages on the fibre and between halves, pins. -/
inductive Out where
  | msix (fn vector : Nat)
  | lane (k : Nat) (head payload : List Nat)
  | stream (t : Nat) (bits : List Bool)
  | poison (t : Nat) (blocks : List Nat)
  /-- A frame begins to leave a line port, whole as it will go: its bytes; cut off and ended with an error block. -/
  | frame (egress id : Nat) (bytes : List Nat) (cut : Bool)
  /-- A preemptable frame pauses after so many bytes, and goes on from there (R196). -/
  | pause (egress id sent : Nat)
  | resume (egress id sent : Nat)
  /-- Bytes of a frame leave a client port; it goes on (none), ends well, or ends with error blocks (true). -/
  | client (port id : Nat) (bytes : List Nat) (ends : Option Bool)
  | frameMark (bits : Nat)
  | halt (half : Half)
  | nak (first : Nat)
  | rejoin (half : Half)
  | pulse (tc ms : Nat)
  | sideband (page : Nat) (bytes : List Fld)
  | read (value : Nat)
  | line (half : Half) (line : Nat) (bytes : List (BitVec 8))
  /-- A line on the DRAM bus: its four words of ciphertext and its tag (R429, R430). -/
  | dram (half : Half) (line : Nat) (cipher : List Nat) (tag : Nat)
  | access (half : Half) (core : Nat) (ty : AccessType) (addr size : Nat)
deriving DecidableEq, Repr

/-! ## Key slots of the causeway cipher (05) -/

/-- A key slot of an association: 0 EMPTY, 1 STAGED, 2 CURRENT or LIVE, 3 OLD (R141). -/
structure KeySlot where
  st      : Nat := 0
  epoch   : Nat := 0
  key     : Nat := 0
  salt    : Nat := 0
  /-- Receive: (CFC0, q0) of the last span authenticated under the slot, if any (R154). -/
  lastCfc : Nat := 0
  lastQ   : Nat := 0
  authed  : Bool := false
  /-- Receive: container multiframes since a span authenticated under the slot (R162). -/
  idle    : Nat := 0
deriving DecidableEq, Repr

/-- Table 05.8. -/
inductive TxSt where
  | noKey | run | announced | switched
deriving DecidableEq, Repr

/-- The transmit association of a tributary (05). -/
structure TxAssoc where
  st        : TxSt := .noKey
  s0        : KeySlot := {}
  s1        : KeySlot := {}
  s2        : KeySlot := {}
  s3        : KeySlot := {}
  /-- Handle bound by TRIB_CIPHER_BIND. -/
  bound     : Option Nat := none
  /-- Next epoch to draw, and the first epoch beyond the journalled block (R143). -/
  nextEpoch : Nat := 1
  reserved  : Nat := 1
  /-- KEY_READY for the staged epoch has arrived; KEY_CONFIRM for the CURRENT epoch has arrived. -/
  ready     : Bool := false
  confirmed : Bool := false
  /-- Container multiframes since KEY_NEXT was last sent, and since the switch. -/
  mfNext    : Nat := 0
  mfSwitch  : Nat := 0
  /-- Spans sent under the CURRENT epoch (R337). -/
  spans     : Nat := 0
  orphaned  : Bool := false
  /-- A span is broken after a jump of CFC until the next span begins (R152). -/
  brk       : Bool := false
  /-- Torn down with its peer: a key change starts when the peer is PRESENT again (R315). -/
  torn      : Bool := false
deriving DecidableEq, Repr

/-- The receive association of a tributary (05): what a takeover inherits. -/
structure RxAssoc where
  s0       : KeySlot := {}
  s1       : KeySlot := {}
  s2       : KeySlot := {}
  s3       : KeySlot := {}
  /-- Highest epoch accepted since COLD (cause 5 of Table 05.7). -/
  highest  : Nat := 0
  /-- Container multiframes since the LIVE slot first authenticated, and since KEY_CONFIRM was sent. -/
  mfLive   : Nat := 0
  mfConf   : Nat := 0
  liveCfc  : Nat := 0
  orphaned : Bool := false
deriving DecidableEq, Repr

/-! ## Lanes (02) -/

/-- One external lane of one half. -/
structure LaneSt where
  signal  : Bool := false
  lock    : Bool := false
  adapted : Bool := false
  /-- `PWR_NOW` and the state the lane moves toward: 0 DEEP, 1 QUIET, 2 ACTIVE (R60, R61). -/
  pwrNow  : Nat := 0
  target  : Nat := 0
  /-- A signal has been seen since DEEP (R62). -/
  seen    : Bool := false
  /-- CTLE step in use, and whether an initial adaptation has completed since DEEP (R52). -/
  ctle    : Nat := 0
  searched : Bool := false
  eyeV    : Nat := 0
  eyeH    : Nat := 0
  prbsErr : Nat := 0
  late    : Nat := 0
  overrun : Nat := 0
  /-- The client PCS is restarting (R49). -/
  pcsRestart : Bool := false
deriving DecidableEq, Repr

/-- The sense signals of one slipway (R67). -/
structure Slip where
  lost1    : Bool := false
  lost2    : Bool := false
  inactive : Bool := false
  stopped  : Bool := false
deriving DecidableEq, Repr

/-- A ferry receive lane (Table 02.5, R70): headers counted, invalid ones among them, and the bits that its block boundary
has slipped, modulo the 66 of a block; when its last alignment block came, in ps against the stripe (R69). -/
structure FerryLane where
  locked : Bool := false
  inUse  : Bool := false
  count  : Nat := 0
  bad    : Nat := 0
  slips  : Nat := 0
  at_    : Int := 0
deriving DecidableEq, Repr

/-! ## Causeway receive lanes and groups (03) -/

/-- An accepted flag that moves after 3 consecutive frames or rows that say otherwise (R83, Table 04.9). -/
structure Flag3 where
  on  : Bool := false
  run : Nat := 0
deriving DecidableEq, Repr

/-- A candidate alignment (R89): predicted position and MFAS, sightings so far. -/
structure Sounding where
  pos   : Nat
  mfas  : Nat
  count : Nat
deriving DecidableEq, Repr

/-- One causeway receive lane of one half. -/
structure RxLane where
  sync    : Bool := false
  snds    : List Sounding := []
  /-- Consecutive errored frames (R93), and the MFAS predicted for the next frame. -/
  run     : Nat := 0
  mfas    : Nat := 0
  /-- Accepted LPOS, GID, whether no group is accepted in a parity (R79), with the runs toward acceptance. -/
  lpos    : Option Nat := none
  gid     : Option Nat := none
  evenNone : Bool := false
  oddNone : Bool := false
  evenVal : Nat := 0
  evenRun : Nat := 0
  oddVal  : Nat := 0
  oddRun  : Nat := 0
  lid     : Bool := false
  lod     : Bool := false
  deg     : Bool := false
  rdi     : Flag3 := {}
  rdeg    : Flag3 := {}
  /-- BIP errors of the last frame checked (R82), far-end errors (R83). -/
  rei     : Nat := 0
  /-- Hail message under reassembly (R85). -/
  hail    : Option (List Nat) := none
  /-- BIP-16 of the frame before (R81). -/
  bip     : Option Nat := none
  /-- GOB shares gathered in this block period (R87). -/
  gob     : List Nat := []
  gobNext : Nat := 0
  advance : Int := 0
  /-- Payloads in the deskew buffers, by MFAS, oldest first (R98, R100). -/
  bufs    : List (Nat × List (Nat × Bool)) := []
  /-- Window of R103: since when, frames checked, BIP errors, codewords, uncorrectable ones, and a frame outside SYNC. -/
  wAt     : Nat := 0
  wFrames : Nat := 0
  wBip    : Nat := 0
  wCw     : Nat := 0
  wUncorr : Nat := 0
  wBad    : Bool := false
  /-- Defects last posted: LID, LOD, DEG, RDI_RX, RDEG_RX as bits 0–4. -/
  shown   : Nat := 0
deriving DecidableEq, Repr

/-- One line group of one half. -/
structure Grp where
  gsm      : Bool := false
  gobValid : Bool := false
  /-- Reference lane of the deskew set (R97), once the release point is set. -/
  ref      : Option Nat := none
  /-- A retime holds the set in failed state (R100). -/
  retiming : Bool := false
  shown    : Bool := false
  /-- Blocks that lanes have brought in block periods not yet decided: period, lane, and the GOB if it was valid (R87). -/
  blocks   : List (Nat × Nat × Option (List Nat)) := []
deriving DecidableEq, Repr

/-! ## Tributary sides (04) -/

/-- A received row of a slot: the MFAS of the frame in which it started; its words, each with whether it came in an
uncorrectable codeword; its CFC (R153), its JC (R124), and its decided AIS and KP (R116); whether it arrived while its side
was failed (R154). -/
structure RxRow where
  start  : Nat
  words  : List (Nat × Bool)
  cfc    : Nat
  jc     : Nat
  ais    : Bool
  kp     : Bool
  failed : Bool
deriving DecidableEq, Repr

/-- Pointer interpretation of one slot (R127) and the COH and JC state of its rows. -/
structure SlotRx where
  norm    : Bool := false
  cur     : Nat := 0
  inv     : Nat := 0
  diff    : Nat := 0
  diffVal : Nat := 0
  nw      : Nat := 0
  lopVal  : Nat := 0
  lopRun  : Nat := 0
  /-- Frames since the last accepted increment, decrement or new, at most 4. -/
  sinceAcc : Nat := 4
  loc     : Bool := false
  jcBad   : Nat := 0
  jcGood  : Nat := 0
  lastJc  : Nat := 0
  cfc     : Nat := 0
  pathErr : Nat := 0
  /-- TMM by the rows and by the group's map (Table 04.9). -/
  tmmRow  : Flag3 := {}
  tmmMap  : Flag3 := {}
  /-- The words of the row in progress, located under R127, and the MFAS of its frame; its side was failed as it
  started. -/
  part    : Option (List (Nat × Bool)) := none
  start   : Nat := 0
  late    : Bool := false
  ais     : Bool := false
  kp      : Bool := false
  /-- PBIP of the row before (R115). -/
  pbip    : Option Nat := none
  /-- Rows that wait for the rows of the side's other slots. -/
  rows    : List RxRow := []
deriving DecidableEq, Repr

/-- One side of a tributary in one half. -/
structure SideSt where
  slots   : Tab SlotRx := []
  pmm     : Bool := false
  pmmRun  : Nat := 0
  cais    : Flag3 := {}
  csf     : Flag3 := {}
  prdi    : Flag3 := {}
  pdeg    : Bool := false
  wAt     : Nat := 0
  wRows   : Nat := 0
  wErr    : Nat := 0
  wBad    : Bool := false
  /-- Outgoing pointer, frames of ACT new still to send, frames since the last adjustment or new frame. -/
  txPtr   : Nat := 0
  txNew   : Nat := 0
  sinceAdj : Nat := 4
  /-- A decided adjustment (true: increment) and the MFAS of the frame in which it executes (R130, R132). -/
  pend    : Option (Bool × Nat) := none
  /-- ACT of the adjustment that the frame about to start carries out: 1 increment, 2 decrement (R125). -/
  act     : Nat := 0
  /-- Fill of the elastic store of slot index 0 toward this side's outgoing slots, in words (R129). -/
  fill    : Nat := 8
  /-- Toward this side's outgoing slots: the elastic store of each slot, in words, and the slots whose next words start at
  a row (R129, R131); P is to be set afresh (R131). -/
  store   : Tab (List Nat) := []
  unsync  : List Nat := []
  recentre : Bool := false
  /-- Outgoing rows by slot: words sent of the row in progress, and 1 + PBIP of the row before (R115); whether rows are
  passed on (R118). -/
  sent    : Tab (List Nat) := []
  /-- What is left of the AIS row in progress by slot (R131). -/
  rest    : Tab (List Nat) := []
  passing : Bool := false
  pbipTx  : Tab Nat := []
  /-- Failed, and no row has started since the last cause cleared (R135). -/
  held    : Bool := false
  /-- TMC message under reassembly (R117). -/
  tmc     : Option (List Nat) := none
  /-- Defect mask last posted (Table 04.9). -/
  shown   : Nat := 0
deriving DecidableEq, Repr

/-- A span on its way out: the ciphertext so far, and the JC of its justification words so far (R148). -/
structure TxSpan where
  cipher : List Nat := []
  jcs    : List Nat := []
deriving DecidableEq, Repr

/-- A span on its way in: what identifies it (R148), its ciphertext and plaintext so far, the stream bits that it carries,
its JC list, the key slots that its rows select (R153), whether a row had decided AIS, arrived while the side was failed
or broke the run of CFC (R154), whether a word came in an uncorrectable codeword, and its tag. -/
structure RxSpan where
  cfc0   : Nat
  q0     : Nat
  cipher : List Nat := []
  bits   : List Bool := []
  jcs    : List Nat := []
  slots  : List (Option Nat) := []
  ais    : Bool := false
  failed : Bool := false
  gap    : Bool := false
  uncorr : Bool := false
  tag    : Nat := 0
deriving DecidableEq, Repr

/-- What one half keeps of a tributary beside its sides. -/
structure TribSt where
  /-- Client ingress fault: the substitute stream is sent with CSF (R110); the conditions present beside a loss of signal,
  and the last instant at which one was. -/
  fault   : Bool := false
  fec     : Bool := false
  pcs     : Bool := false
  faultAt : Nat := 0
  /-- Stream bits received and not yet placed (R123), and the JC total of the last row. -/
  store   : List Bool := []
  jcTotal : Nat := 0
  /-- Substitute stream: bits sent, and the fraction of a bit due, in 7,168ths (R110). -/
  subSent : Nat := 0
  subFrac : Nat := 0
  /-- The span being sent (R148), and the segments of messages that wait for the message channel (R117). -/
  txSpan  : TxSpan := {}
  tmcTx   : List (Nat × List Nat) := []
  /-- Messages that the channel has delivered and that wait to be taken (R117). -/
  tmcRx   : List (List Nat) := []
  /-- Receive: CFC of the last rows taken, whether AIS rows or a failure of the side came last, the span in progress, and
  the spans that wait for their verdicts (R154, R155). -/
  lastCfc : Option Nat := none
  lastCut : Bool := false
  rxSpan  : Option RxSpan := none
  spans   : List RxSpan := []
  /-- State of the loop that recovers the client rate (R111). -/
  loop    : Nat := 0
  nokey   : Bool := false
  nokeyRun : Nat := 0
  keyRun  : Nat := 0
  acf     : Bool := false
  failRun : Nat := 0
  authRun : Nat := 0
  /-- TRIB_AUTH_FAIL already posted in this container multiframe; failed spans absorbed (R167). -/
  failPosted : Bool := false
  absorbed : Nat := 0
  /-- NOKEY and ACF last posted. -/
  shown   : Nat := 0
deriving DecidableEq, Repr

/-! ## The pace governor and handshake FIFOs (01) -/

/-- The pace governor (R22). -/
structure Gov where
  lowRun    : Nat := 0
  overRun   : Nat := 0
  underRun  : Nat := 0
  floorRun  : Nat := 0
  vcore     : Nat := 800
  paceLimit : Bool := false
  rateFloor : Bool := false
  slowest   : Nat := 0
  group     : Nat := 0
  /-- Pace of the last crossing of each stage group, in ps. -/
  paces     : List Nat := []
deriving DecidableEq, Repr

/-- One handshake FIFO (R37, R39). -/
structure Fifo where
  level : Nat := 0
  armed : Bool := true
  occ   : Nat := 0
  cerr  : Nat := 0
deriving DecidableEq, Repr

/-! ## The helm (13) -/

/-- Helm states (Table 13.4; HLM_STAT.STATE). -/
inductive HelmSt where
  | activePaired | activeSolo | relinquished | inStep | out | halted
deriving DecidableEq, Repr

/-- A handover that has been decided and not completed (R413). -/
structure Handover where
  /-- ACCEPT has arrived; crossings since. -/
  accepted : Bool
  age      : Nat
  /-- The HELM_HANDOVER that asked for it, if any, and its RETURN_MS. -/
  by_      : Option Taken
  late     : Bool
  returnMs : Nat
  /-- Time base of a drill. -/
  tb       : Option Nat
deriving DecidableEq, Repr

/-- The helm part of one half. -/
structure Helm where
  st       : HelmSt := .halted
  claim    : Bool := false
  gen      : Nat := 0
  maxSeen  : Nat := 0
  /-- Crossings without an ACK; consecutive crossings without a renewal. -/
  noAck    : Nat := 0
  silence  : Nat := 0
  /-- A renewal arrived during the crossing in progress. -/
  renewed  : Bool := false
  crossing : Nat := 0
  acked    : Nat := 0
  handover : Option Handover := none
  /-- The seal of FINAL: crossings since (R413). -/
  sealed   : Option Nat := none
  /-- The ACK of the copy that carried OFFER answers ACCEPT. -/
  offered  : Bool := false
  rejoining : Bool := false
  /-- Cipher lanes whose last known-answer test failed; KAT_OK is that there is none. -/
  katBad   : List Nat := []
  /-- Generation of the copies this half applies; 0 before the first. -/
  copyGen  : Nat := 0
  /-- Failures in a row of each table region (Table 13.3). -/
  regionFails : Tab Nat := []
  lanesLow : List Nat := []
  backlogKib : Nat := 0
  fillPct  : Nat := 0
  resent   : Nat := 0
  peerHealth : Nat := 0
  /-- Standby events numbered by the active half since it holds the helm, as the copies count them (R397). -/
  fwdCount : Nat := 0
  frameBits : Nat := 0
  /-- This half has posted INTEGRITY_HALT for the other half (R40). -/
  haltNotice : Bool := false
deriving DecidableEq, Repr

/-! ## Boot (19) -/

/-- Where the boot program of a half stands (R540–R542, R421). -/
structure BootSt where
  /-- Rails in regulation; power removed or held off after R533. -/
  powered  : Bool := false
  railFail : Bool := false
  /-- Reset released and boot started; ready (R540), and since when. -/
  started  : Bool := false
  ready    : Bool := false
  readyAt  : Nat := 0
  /-- Slot named by FW_ACTIVATE for the next boot; slot and SVN loaded. -/
  named    : Option Nat := none
  slot     : Nat := 0
  svn      : Nat := 0
  /-- Slot refused before the one loaded (R555). -/
  refused  : Option Nat := none
  hssReady : Bool := false
  dramDone : Bool := false
  linkUp   : Bool := false
deriving DecidableEq, Repr

/-- Module phases: COLD, BOOTING, and running (SOLO, PROVISIONAL or SERVICE under R11). -/
inductive Phase where
  | cold | booting | running
deriving DecidableEq, Repr

/-- A standing configuration image (Table 16.13). -/
structure CfgImg where
  records   : List (Nat × Word)
  saveCount : Nat
  run       : Nat
  valid     : Bool
deriving DecidableEq, Repr

/-- An anchor record, by its bytes (Table 11.5). -/
structure Anchor where
  bytes : List Nat
deriving DecidableEq, Repr

/-- A charter, by its bytes (Table 11.6). -/
structure Charter where
  bytes : List Nat
deriving DecidableEq, Repr

/-- A firmware image in a slot (Table 19.6).  `loads`: its checks under R361 pass. -/
structure Fw where
  svn      : Nat
  ferryVer : Nat
  ferryMin : Nat
  build    : Nat
  digest   : Nat
  loads    : Bool
deriving DecidableEq, Repr

/-! ## Packet SecY (06) -/

/-- A secure association under its SC and AN. -/
structure Sa where
  inst      : Bool := false
  handle    : Nat := 0
  /-- Next PN (transmit) or lowest acceptable PN (receive). -/
  pn        : Nat := 0
  ssci      : Nat := 0
  resident  : Bool := false
  pinned    : Bool := false
  orphaned  : Bool := false
  exhausted : Bool := false
  /-- SECY_PN_THRESHOLD, SECY_PN_EXHAUSTED, SECY_RX_SA_IN_USE posted. -/
  thrPosted : Bool := false
  exhPosted : Bool := false
  usePosted : Bool := false
  lastUse   : Nat := 0
  /-- When the first frame verified (R338). -/
  usedAt    : Nat := 0
  /-- Since when frames are held for the SA (R193). -/
  holdAt    : Nat := 0
  /-- A load is pending (R192); it waits for one of the loads that may run at once (R193). -/
  loading   : Bool := false
  wanted    : Bool := false
  /-- PN advance still to apply at the next load (R184). -/
  advance   : Nat := 0
deriving DecidableEq, Repr

/-- A secure channel: its settings while it exists, and the current AN of a transmit SC. -/
structure Sc where
  args : Option ScArgs := none
  cur  : Option Nat := none
  /-- A change of AN waits for a load (R199): the AN and the command. -/
  next : Option Nat := none
  rr   : Nat := 0
deriving DecidableEq, Repr

/-! ## Tables (07) -/

/-- A channel entry (Table 07.1, Table 07.2); `pend` is the STN_COUNT change held while LOCK is 1. -/
structure Chan where
  v0       : BitVec 128 := 0
  v1       : BitVec 128 := 0
  sel      : Bool := false
  lock     : Bool := false
  hit      : Bool := false
  /-- IDLE less the sweeps run so far (R212). -/
  idleOff  : Int := 0
  stnCount : Nat := 0
  pend     : Int := 0
deriving DecidableEq, Repr

/-- A learned or static station. -/
structure Stn where
  sc       : Nat
  port     : Nat
  vid      : Nat
  isStatic : Bool
  moored   : Bool
  hit      : Bool
  /-- Times of the last moves, latest first, at most 4 (R227). -/
  moves    : List Nat
  moorAt   : Nat
  /-- Usher number of the event that reported its last learn (R226). -/
  lastSeq  : Nat
deriving DecidableEq, Repr

/-- The policy trie: prefix sets of the two banks, keyed by family, length and address. -/
structure Trie where
  bank0   : Tab (Option (BitVec 32)) := []
  bank1   : Tab (Option (BitVec 32)) := []
  serving : Bool := false
  rebuild : Bool := false
  /-- Nodes of galleries 1–6 and results of IPv4 and IPv6 awaiting release, and crossing ends left (R217). -/
  pending : List (List Nat × Nat) := []
  /-- Crossing ends until the old bank of a commit is idle (R220). -/
  oldBank : Option Nat := none
deriving DecidableEq, Repr

/-! ## The hall (08) -/

/-- A frame in a queue or held for a parked SA. -/
structure HFrame where
  id       : Nat
  body     : FrameIn
  /-- Transmit SC; 4,096 for a frame of the module itself. -/
  sc       : Nat := 4096
  an       : Nat := 0
  since    : Nat
  /-- Leaves a line port without a SecTAG (R171, R381). -/
  clear    : Bool := false
  /-- A frame of the PTP engine, whose transmit timestamp is taken (R378, R380). -/
  ptpOwn   : Bool := false
  /-- Its verdict is awaited; and it waits for that before it leaves (R178). -/
  unsure   : Bool := false
  waits    : Bool := false
  /-- Counted as held by its queue's shaper (R248). -/
  stalled  : Bool := false
  /-- Ingress timestamp of a PTP frame whose residence time is added at egress, in 2^-16 ns (R381). -/
  stamp    : Option Int := none
deriving DecidableEq, Repr

/-- The slave engine of PTP (R380), times in 2^−16 ns: the master that it follows, by rank and port identity, and until
when its last Announce holds; its Sync interval in ns; when the last frame was taken, and when its last Delay_Req left; the Sync that awaits its
Follow_Up; origin and arrival of the last Sync; the mean path delay; the sequence number of its last Delay_Req; when the
last sample was formed, plus 1. -/
structure Ptp where
  master : Option (Nat × Nat × Nat) := none
  every  : Nat := 0
  rx     : Int := 0
  tx     : Option Int := none
  sync   : Option (Nat × Int × Int) := none
  last   : Option (Int × Int) := none
  delay  : Int := 0
  seq    : Nat := 0
  at_    : Nat := 0
deriving DecidableEq, Repr

/-- A received frame whose verdict is awaited: the queue it entered, if any; its C bit; its ICV verifies (R177); what
the learning engine is to learn from it (R225). -/
structure RxFrame where
  id    : Nat
  sc    : Nat
  an    : Nat
  pn    : Nat
  queue : Option Nat
  port  : Nat
  c     : Bool
  icvOk : Bool
  learn : Option LearnReq
deriving DecidableEq, Repr

/-- A received frame that waits for its SA: its line port, its SecTAG, itself, and the channel entry and version that its
first lookup read (R208). -/
structure HeldRx where
  port  : Nat
  tag   : SecTag
  f     : LineFrameIn
  entry : Nat
  ver   : BitVec 128
deriving DecidableEq, Repr

/-- A frame held while its SA loads (R192, R193). -/
structure Held where
  dir   : Dir
  sc    : Nat
  an    : Nat
  /-- Its number among the frames held by the half, and the cells it takes. -/
  id    : Nat
  cells : Nat
  /-- Transmit: the queue it is to enter, whether it has left that already, and the frame. -/
  queue : Nat := 0
  back  : Bool := false
  tx    : Option HFrame := none
  /-- Receive. -/
  rx    : Option HeldRx := none
deriving DecidableEq, Repr

/-- A frame that an egress port sends: its queue; its length on the wire; the bytes of it that had gone when its present
fragment began (R196). -/
structure Sending where
  queue : Nat
  frame : HFrame
  wire  : Nat
  from_ : Nat := 0
deriving DecidableEq, Repr

/-- A shaper setting (R249). -/
structure Shaper where
  en    : Bool := false
  rate  : Nat := 1
  burst : Nat := 0
deriving DecidableEq, Repr

/-- A policer setting (R256). -/
structure Pol where
  cir : Nat := 0
  cbs : Nat := 0
  ebs : Nat := 0
deriving DecidableEq, Repr

/-- Samples of one value (R261). -/
structure MinMax where
  min  : Nat := 0
  max  : Nat := 0
  last : Nat := 0
  any  : Bool := false
deriving DecidableEq, Repr

/-! ## The key staircase (09) -/

/-- The lower landings in a half's key RAM (R266, R268): P as the tamper controller passed it, the birth secret B, the
storage root SR (none without E), and the DRAM keys of the run, inline key and tag key. -/
structure KeyRam where
  puf   : Nat := 0
  birth : Nat := 0
  root  : Option Nat := none
  dram  : Nat := 0
deriving DecidableEq, Repr

/-- A key register entry (R270).  `st`: code of Table 09.3.  `key` stands for the key material, which no
command, register or path outputs (R284). -/
structure KeyEnt where
  st        : Nat := 0
  serial    : Nat := 0
  gen       : Nat := 0
  parent    : Nat := 0
  parSerial : Nat := 0
  parOrigin : Nat := 0
  gpHandle  : Nat := 0
  gpOrigin  : Nat := 0
  gpSerial  : Nat := 0
  kind      : Nat := 0
  origin    : Nat := 0
  clear     : Bool := false
  len256    : Bool := false
  xpn       : Bool := false
  kcv       : Nat := 0
  key       : Nat := 0
  salt      : Nat := 0
  run       : Nat := 0
  seq       : Nat := 0
  /-- Bound SA: direction (true: receive), SC, AN. -/
  bound     : Option (Bool × Nat × Nat) := none
  ssci      : Nat := 0
  mka       : Bool := false
  resident  : Bool := false
  pinned    : Bool := false
  lastUse   : Nat := 0
  /-- The material is erased: its SA was retired (Table 06.4). -/
  gone      : Bool := false
  /-- The CKN of an AGREED CAK (R331). -/
  ckn       : List Nat := []
deriving DecidableEq, Repr

/-- A gangway (R285). -/
structure Gangway where
  handle : Nat
  gen    : Nat
  key    : Nat
  kcv    : Nat
  /-- The commit record, once written. -/
  rec_   : Option Nat
deriving DecidableEq, Repr

/-- A running cascade (R290). -/
structure Cascade where
  root   : Nat
  endsAt : Nat
  grace  : Nat
deriving DecidableEq, Repr

/-! ## Time bases (12) -/

/-- Servo states of a time base (TIM_TB_STAT.STATE). -/
inductive ServoSt where
  | free | acquiring | locked | holdover
deriving DecidableEq, Repr

/-- One time base of one half (R367–R375). -/
structure TBase where
  valid   : Bool := false
  sec     : Nat := 0
  ns      : Nat := 0
  sub     : Nat := 0
  st      : ServoSt := .free
  /-- Rate correction in ppb, and the fraction of 2^−16 ns that it has added, in 10^−9. -/
  rate    : Int := 0
  acc     : Nat := 0
  /-- Integral of the servo, in 2^−31 ns; consecutive samples within ±50 ns, at most 16; samples of a source not
  selected. -/
  integ   : Int := 0
  good    : Nat := 0
  discards : Nat := 0
  /-- Words discarded at its full crossing FIFO (R38). -/
  overrun : Nat := 0
  /-- 1 + when the last sample of the selected source came; 1 + the instant of the last TIME_OFFSET in ns. -/
  lastAt : Nat := 0
  offAt  : Nat := 0
  /-- Latched by a read of `TIM_TB_NS` (R370). -/
  latSec  : Nat := 0
  latSub  : Nat := 0
deriving DecidableEq, Repr

/-! ## Programmable counters (17) -/

/-- One programmable counter: `CNT_CFG`, `CNT_THRESH`, the 48-bit value and STICKY. -/
structure Ctr where
  cfg    : Word := 0
  thresh : Nat := 0
  val    : Nat := 0
  sticky : Bool := false
deriving DecidableEq, Repr

/-! ## Protected memory and protection units (14) -/

/-- A protection region of a core (R447). -/
structure Region where
  base  : Word := 0
  limit : Word := 0
  perm  : Word := 0
deriving DecidableEq, Repr

/-- The protection unit of one core. -/
structure ProtUnit where
  regions : Tab Region := []
  info    : Word := 0
  addr    : Nat := 0
  /-- 1 + the time of the last PROT_FAULT, and the faults since. -/
  at_     : Nat := 0
  cnt     : Nat := 0
deriving DecidableEq, Repr

/-- The DRAM of one half (R428–R442): the data region's bytes in canonical form (a byte not listed reads 0, as R433
leaves it), the minor counter of each line, each page's major counter above the major base, and the registers. -/
structure Dram where
  data   : List Host.Cell := []
  minor  : Tab Nat := []
  major  : Tab Nat := []
  base   : Nat := 0
  init   : Bool := false
  /-- Counter groups in the counter cache (R432). -/
  cache  : List Nat := []
  failKind : Nat := 0
  failAddr : Nat := 0
  failAgent : Nat := 0
  reenc  : Nat := 0
  walks  : Nat := 0
  /-- Corrected errors since the last read of `PMM_CORR`, and since the last health word (R442, Table 13.2). -/
  corr   : Nat := 0
  corrNew : Nat := 0
deriving DecidableEq, Repr

/-! ## Scheduled actions (12) -/

/-- What an entry of the scheduled action table does at its firing (Table 12.6). -/
inductive SchedAct where
  | switch (t : Nat) (side : Side) (alt : Bool)
  | keyStep (t : Nat)
  | activate (sc an : Nat)
  | shaper (a : ShaperArgs)
  | rekey (kind : RekeyKind) (index : Nat)
  | drill (returnMs : Nat)
  /-- the return of a handover (R424) -/
  | return_
deriving DecidableEq, Repr

/-! ## Commands in progress and flash records -/

/-- An entry of the scheduled action table (R385–R389): its command unless it is periodic or a return, its time base
and instant, whether it is late, its arming order and mark (Table 12.8), its period in seconds (0: fires once),
and what it does. -/
structure Sched where
  cmd    : Option Cmd
  fn     : Nat
  op     : Nat
  tb     : Nat
  at_    : TimeVal
  late   : Bool
  order  : Nat
  mark   : Nat
  first  : TimeVal
  period : Nat
  act    : SchedAct
deriving DecidableEq, Repr

/-- What a command taken and not completed waits for. -/
inductive Wait where
  /-- a transfer of its host memory (R559) -/
  | dma
  /-- a landing-4 key to become resident (R281) -/
  | load (handle : Nat)
  /-- a public-key operation's deadline (R344) -/
  | pke (id : Nat)
  /-- a scheduled entry to fire (R385) -/
  | fire (entry : Nat)
  /-- an announced handover (R413) -/
  | handover
  /-- a half to halt or to enter BOOTING -/
  | half (h : Half)
  /-- an SA to become resident (R199) -/
  | sa (dir : Dir) (sc an : Nat)
  /-- trie nodes or results to return to their pools (R217) -/
  | pool
  /-- a flash record to be durable (R286) -/
  | flash (id : Nat)
  /-- the next crossing end of the active half (R516) -/
  | crossing
deriving DecidableEq, Repr

/-- What the command does once its wait ends. -/
inductive Cont where
  /-- complete with the status and result held -/
  | finish
  /-- TRIB_CIPHER_BIND once the key is resident -/
  | bind (t handle : Nat)
  /-- KEY_IMPORT of a SAK once its parent is resident -/
  | import_ (a : ImportArgs)
  /-- CA_BIND once the CAK is resident -/
  | ca (index : Nat) (a : CaArgs)
  /-- SECY_SA_ACTIVATE once the SA is resident -/
  | activate (sc an : Nat)
  /-- TRIE_ADD, with the crossing ends that it still waits for -/
  | trie (p : PrefixRec) (left : Nat)
  /-- an act that an authorisation permits, at the verification deadline (R550) -/
  | renew
  | decommission
  | idgen
  /-- a signature by the identity keys (R350) -/
  | sign
  /-- PKE_CURVE_LOAD at its deadline -/
  | curve (slot : Nat) (c : Curve)
  /-- ENROL_CHARTER, FW_STAGE at the verification deadline -/
  | charter (c : Charter)
  | stage (slot : Nat) (fw : Fw)
  /-- a landing-3 or landing-4 key once its blob is written and read back (R561) -/
  | create (handle : Nat) (e : KeyEnt)
  /-- KEY_REPLACE once the gangway's blob is written and read back; it fails step 4 when `ok` is false (R285) -/
  | replace (handle : Nat) (ok : Bool)
  /-- STATS_SNAPSHOT: group, first object, count, host address -/
  | stats (group first count addr : Nat)
deriving DecidableEq, Repr

/-! ## The public-key engine (11) -/

/-- An operation of the engine; its command waits for it under its identifier.  `ns`: its deadline in Table 11.2. -/
structure PkeOp where
  id : Nat
  ns : Nat
deriving DecidableEq, Repr

/-- An operation on a lane, with the instant of its deadline (R344, R345). -/
structure PkeRun where
  op : PkeOp
  at_ : Nat
deriving DecidableEq, Repr

/-- The engine of one half: known-answer tests passed, tests running after a fault (R351), 4 lanes, the queue, and
late releases (R345). -/
structure Pke where
  ok      : Bool := false
  testing : Bool := false
  lanes   : Tab (Option PkeRun) := []
  queue   : List PkeOp := []
  nextId  : Nat := 0
  late    : Nat := 0
  /-- 1 + the time of the last PKE_LATE, and late releases since. -/
  lateAt  : Nat := 0
  lateNew : Nat := 0
deriving DecidableEq, Repr

/-- A command taken and not completed, with what it has so far. -/
structure Job where
  cmd    : Cmd
  on     : Wait
  status : Nat
  cflags : Nat
  result : List Fld
  /-- Result area and its bytes (R558). -/
  area   : Option (Nat × List Fld)
  cont   : Cont
deriving DecidableEq, Repr

/-- A record of the shared flash partition on its way to being durable (R286). -/
inductive Rec where
  | key (handle : Nat) (e : KeyEnt)
  | commit (handle gen kcv key : Nat)
  | invalidate (handle : Nat)
  | free (handle : Nat)
  | cfg (slot : Bool) (img : CfgImg)
  | stage (slot : Nat) (fw : Fw)
  | fwCommit (slot : Nat)
  | anchor (a : Anchor)
  | charter (c : Charter)
deriving DecidableEq, Repr

/-- A pending record, and the half that wrote it. -/
structure PendRec where
  id  : Nat
  by_ : Half
  rec_ : Rec
deriving DecidableEq, Repr

/-! ## Peers, ZKA and MKA (10) -/

/-- A peer table entry (R311).  `moored`: since when it is MOORED; none is PRESENT.  `assoc`: the carrier instances that
have led to it since it arrived, as numbers: lane k is k, tributary t is 32 + t, line port p is 64 + p. -/
structure Peer where
  digest : Nat
  run    : Nat
  caps   : Nat
  hailMs : Nat
  moored : Option Nat
  assoc  : List Nat
deriving DecidableEq, Repr

/-- States of Table 10.9, with the wait for the initiator's charter and the wait for the record of an installation. -/
inductive ZkaSt where
  | offered | finished | wantCharter | answered | installing | closed
deriving DecidableEq, Repr

/-- A ZKA session.  `scalar`, `dk`, `sse`, `ssk`, `ak` and `kc` exist only in key RAM (R321). -/
structure Zka where
  session   : Nat
  initiator : Bool
  pairing   : Nat
  peer      : Nat
  carrier   : Carrier
  st        : ZkaSt
  /-- OFFER sent or received (R326); FINISH last sent, or CLOSED entered; FINISH sent so often. -/
  since     : Nat
  at_       : Nat
  sends     : Nat
  /-- Digest of the charter asked for (R324). -/
  want      : Option Nat
  /-- Bodies of OFFER and ANSWER, and of the FINISH sent (R320). -/
  offer     : List Nat
  answer    : List Nat := []
  finish    : List Nat := []
  /-- The peer's charter, once obtained (R324). -/
  theirs    : Option Charter := none
  /-- Ephemeral P-384 scalar and ML-KEM decapsulation key; shared secrets; TH_S; AK, KC and the MACs (Table 10.8). -/
  scalar    : Nat := 0
  dk        : List Nat := []
  sse       : List Nat := []
  ssk       : List Nat := []
  ths       : List Nat := []
  ak        : Nat := 0
  kc        : List Nat := []
  macI      : List Nat := []
  macR      : List Nat := []
  /-- The flash record of the installation, and the handle. -/
  rec_      : Option Nat := none
  handle    : Nat := 0
deriving DecidableEq, Repr

/-- The record of an exchange that answers a repeated FINISH (R328). -/
structure ZkaRec where
  session : Nat
  macI    : List Nat
  macR    : List Nat
  at_     : Nat
deriving DecidableEq, Repr

/-- A peer of an MKA participant.  `rx`: AN and key number of the SAKs that it reports as installed for receive. -/
structure CaPeer where
  mi       : Nat
  mn       : Nat
  priority : Nat
  sci      : Nat
  live     : Bool
  rx       : List (Nat × Nat)
  at_      : Nat
deriving DecidableEq, Repr

/-- A SAK of a CA: its AN, the key, its key number and its key server's MI, whether this module made it, since when, in use
on transmit. -/
structure CaSak where
  an     : Nat
  key    : Nat
  kn     : Nat
  mi     : Nat
  server : Bool
  at_    : Nat
  inUse  : Bool
deriving DecidableEq, Repr

/-- A connectivity association with its MKA participant (R330–R333, R338): member identifier and number, peers, its
transmit SC, a receive SC for each peer's SCI, when it last sent, and since when it has run under a new CAK
generation without a live peer. -/
structure Ca where
  args  : CaArgs
  mi    : Nat
  mn    : Nat
  peers : List CaPeer
  tx    : Nat
  rx    : List (Nat × Nat)
  /-- The latest SAK, and the one before it while its receive SAs stand. -/
  sak   : Option CaSak
  old   : Option CaSak := none
  at_   : Nat
  regen : Option Nat
  /-- The CKN (R331). -/
  ckn   : List Nat
  /-- Key number of the last SAK that this participant has made. -/
  kn    : Nat := 0
deriving DecidableEq, Repr

/-- An open reassembly (R307). -/
structure Reasm where
  c       : Carrier
  ty      : Nat
  sender  : Nat
  session : Nat
  total   : Nat
  pieces  : Nat
  got     : List (Nat × List Nat)
  at_     : Nat
deriving DecidableEq, Repr

/-! ## What crossing copies carry -/

/-- The state of a half that the copies of Table 13.1 bring to the standby: the USHER, PN, CFC, POINTER, RING, TIME
and STATS records and everything under CHANGE (R231, R262, R339, R348). -/
structure Image where
  /-- Last usher sequence number assigned (R30). -/
  seq      : Nat := 0
  /-- Paired registers, by function and offset; unlisted: the reset value. -/
  regs     : Tab Word := []
  cfgGen   : Nat := 0
  fns      : Tab FnSt := []
  /-- Policing is SERVICE (R12). -/
  service  : Bool := false
  jobs     : List Job := []
  /-- CFC of the next row of each terminating transmit side (R114). -/
  cfc      : Tab Nat := []
  /-- Alternate set in use, by 2t + side (R118). -/
  alt      : Tab Bool := []
  /-- Forced conditions (R138) by 2t + direction: 0 none, 1 AIS, 2 substitute. -/
  forced   : Tab Nat := []
  tx       : Tab TxAssoc := []
  rx       : Tab RxAssoc := []
  scTx     : Tab Sc := []
  scRx     : Tab Sc := []
  /-- SAs by 4·SC + AN. -/
  saTx     : Tab Sa := []
  saRx     : Tab Sa := []
  /-- The XPN threshold in force (R204). -/
  xpnThresh : Nat := 0x4000000000000000
  chan     : Tab Chan := []
  /-- Channel aging sweeps run (R212). -/
  sweeps   : Nat := 0
  /-- When the last channel sweep and the last station sweep ran (R212, R229). -/
  sweptAt  : Nat := 0
  stnSweptAt : Nat := 0
  trie     : Trie := {}
  /-- The learned-station table by slot, 131,072·sub-table + 4·bucket + slot: the key and the station; and the hash key of
  the run (R222). -/
  stn      : Tab (Option (Nat × Stn)) := []
  stnHash  : Nat := 0
  pairTab  : Tab (BitVec 16) := []
  shapers  : Tab Shaper := []
  /-- Privileged shaper changes that wait for a refill tick (R252). -/
  pendShape : List (Nat × Shaper) := []
  pols     : Tab Pol := []
  keys     : Tab KeyEnt := []
  areas    : Tab (Option (Nat × Nat)) := []
  gangways : List Gangway := []
  cascades : List Cascade := []
  loads    : List Nat := []
  serial   : Nat := 1
  serialEnd : Nat := 1
  /-- The scheduled action table (R385), and how many entries have been armed. -/
  sched    : Tab (Option Sched) := []
  armed    : Nat := 0
  /-- Transmit SCs whose threshold has asked MKA for a new SAK (R182). -/
  wantSak  : List Nat := []
  /-- Next HSS index, end of the journalled block (R356), and the notices of R358 already posted in this run. -/
  hssNext  : Nat := 0
  hssEnd   : Nat := 0
  hssLow   : Bool := false
  hssExh   : Bool := false
  /-- Loaded curves by slot (R347). -/
  curves   : Tab (Option Curve) := []
  /-- The peer table by member ID, pairings, the last failed exchange of each (1 + its time), open sessions, offers
  seen (member, session, time). -/
  peers    : Tab (Option Peer) := []
  pairings : Tab (Option Pairing) := []
  autoAt   : Tab Nat := []
  sessions : List Zka := []
  offers   : List (Nat × Nat × Nat) := []
  /-- The charter cache, latest verified first; the highest CHARTER_SEQ accepted for each member (R359). -/
  charters : List Charter := []
  charterSeq : Tab Nat := []
  cas      : Tab (Option Ca) := []
  /-- Firings skipped of each periodic rekey (R336), by 4096 · kind + index. -/
  skips    : Tab Nat := []
  /-- 1 + the instant at which a replaced CWY_ASSOC key steps its tributary (R335). -/
  stepAt   : Tab Nat := []
  /-- No hail before this instant (R549). -/
  hush     : Nat := 0
  /-- Published latencies of each tributary as last noted (R384), transmit and receive, in 2^−16 ns. -/
  pubLat   : Tab (Option (Nat × Nat)) := []
deriving DecidableEq, Repr

/-- A crossing copy (Table 13.1): HEADER, the mandatory records, and the whole image when the deferrable
records of the crossing drained into it. -/
structure Copy where
  n       : Nat
  gen     : Nat
  renew   : Bool
  relinq  : Bool
  offer   : Bool
  final   : Bool
  health  : Nat
  fwdCount : Nat
  seq     : Nat
  /-- PN: the PNs that each transmit SA used in the crossing, by 4·SC + AN. -/
  pns     : Tab Nat
  /-- Wharf writes (R191). -/
  wharf   : List (Nat × List Nat)
  cfc     : Tab Nat
  /-- POINTER: the MFAS of the frame in progress; of each side the outgoing P, frames of ACT new left, and the decision with
  its frame (R132). -/
  mfas    : Nat
  pend    : List (Nat × Nat × Nat × Option (Bool × Nat))
  fns     : Tab FnSt
  entries : List Placed
  hssNext : Nat
  /-- TIME: the time bases, and when they were read. -/
  tbs     : Tab TBase
  at_     : Nat
  stats   : Option (Tab Nat)
  /-- The handover that FINAL completes. -/
  ho      : Option Handover
  img     : Option Image
  writes  : List (Nat × Nat × Word × Word)
deriving DecidableEq, Repr

/-- What the standby sends in an ACK beside the crossing number and health word (R397). -/
structure FwdDb where
  fn    : Nat
  ring  : Nat
  value : Nat
  descs : List Desc
deriving DecidableEq, Repr

/-- An ACK (R397): the crossing, the standby's health word, forwarded events with how many came before them, doorbell
values, and the answer to OFFER. -/
structure Ack where
  n      : Nat
  renew  : Bool
  health : Nat
  base   : Nat
  fwd    : List Post
  dbs    : List FwdDb
  answer : Option Bool
deriving DecidableEq, Repr

/-! ## One half, and the module -/

/-- One half of the module. -/
structure HState where
  boot     : BootSt := {}
  kram     : KeyRam := {}
  /-- `GLB_HALT_CAUSE`: cause and FIFO index. -/
  haltCause : Nat := 0
  haltFifo : Nat := 0
  restarts : Nat := 0
  gov      : Gov := {}
  fifos    : Tab Fifo := []
  helm     : Helm := {}
  /-- Registers of this half that are not paired. -/
  regs     : Tab Word := []
  img      : Image := {}
  /-- Posts waiting at the usher, oldest first, with their source (R36). -/
  queue    : List (Src × Post) := []
  /-- Events of this half as standby, not yet counted by a copy (R33), and how many copies have counted. -/
  fwd      : List Post := []
  fwdSent  : Nat := 0
  /-- Of `fwd`, how many an ACK has carried: they stand as they are. -/
  fwdOut   : Nat := 0
  dbFwd    : List FwdDb := []
  /-- Paired writes applied since the last deferrable records went out: function, offset, word before, word written
  (R50). -/
  writes   : List (Nat × Nat × Word × Word) := []
  /-- Entries numbered in the crossing in progress (R399); copies kept (R398). -/
  unsent   : List Placed := []
  kept     : List Copy := []
  /-- PNs used in the crossing in progress, by 4·SC + AN (Table 13.1). -/
  pnUsed   : Tab Nat := []
  /-- The wharf: the 128-byte blob of each landing-5 index (R279), and the writes that no copy has carried yet (R191). -/
  wharf    : Tab (List Nat) := []
  wharfNew : List (Nat × List Nat) := []
  /-- ACKs sent and not yet received. -/
  acks     : List Ack := []
  /-- Entries of the last 2 crossings this half acknowledged as standby (R415). -/
  recent   : List (Nat × List Placed) := []
  /-- `HIF_RING_ERR.ERRORS` by 4·function + ring; `HIF_DB_STAT` by function. -/
  ringErr  : Tab Nat := []
  dbFwdCnt : Tab Nat := []
  dbUnsent : Tab Nat := []
  /-- Latched words: GLB_USHER_SEQ_HI, KEY_RUN_HI, PKE_HSS_NEXT_HI, HLM_PEER_HEALTH_HI, PMM_FAIL_HI. -/
  seqHi    : Nat := 0
  runHi    : Nat := 0
  hssHi    : Nat := 0
  healthHi : Nat := 0
  failHi   : Nat := 0
  lanes    : Tab LaneSt := []
  ferry    : Tab FerryLane := []
  rxLanes  : Tab RxLane := []
  grps     : Tab Grp := []
  /-- MFAS of the last lane frame sent (R75). -/
  mfas     : Nat := 0
  /-- 1 + the BIP-16 of the last frame sent on each line lane (R80); segments of hail messages that wait for each lane
  (R84). -/
  bipTx    : Tab Nat := []
  hailTx   : Tab (List (Nat × List Nat)) := []
  /-- Sets in use in the last frame sent, by 2t + side (R121). -/
  mapAlt   : Tab Bool := []
  /-- The group overhead block that each group sends in this block period (R86). -/
  gobTx    : Tab (List Nat) := []
  sides    : Tab SideSt := []
  tribs    : Tab TribSt := []
  /-- MAC Merge verification by line port: 0 disabled, 1 verifying, 2 succeeded, 3 failed. -/
  preempt  : Tab Nat := []
  queues   : Tab (List HFrame) := []
  cqCells  : Tab Nat := []
  held     : List Held := []
  rxFrames : List RxFrame := []
  /-- Learn requests on their way through the usher (R226). -/
  learnReqs : List LearnReq := []
  /-- Frame that each egress port sends now, and the one that it has paused for an express frame (R196). -/
  sending  : Tab (Option Sending) := []
  paused   : Tab (Option Sending) := []
  rrLast   : Tab Nat := []
  /-- The slave engine of PTP (R380). -/
  ptp      : Ptp := {}
  /-- Token counts and bucket levels, in thousandths of a byte. -/
  tokens   : Tab Int := []
  polLv    : Tab (Nat × Nat) := []
  depth    : Tab MinMax := []
  delay    : Tab MinMax := []
  heldAt   : Tab Nat := []
  heldCnt  : Tab Nat := []
  /-- 1 + when the class-0 shaper of a line port last held a frame (R265). -/
  heldLast : Tab Nat := []
  refAt    : Tab Nat := []
  refCnt   : Tab Nat := []
  icvAt    : Tab Nat := []
  icvCnt   : Tab (Nat × Nat × Nat) := []
  stnFullAt : Nat := 0
  stnFullCnt : Nat := 0
  /-- Fixed statistics, by group, object and counter (Table 17.3). -/
  stats    : Tab Nat := []
  /-- Time bases TB0–TB3 (R367). -/
  tbs      : Tab TBase := []
  /-- Programmable counters (17), with the latched upper words of R519 and of the counter windows (R513). -/
  ctrs     : Tab Ctr := []
  ctrHi    : Tab Nat := []
  winHi    : Tab Nat := []
  dram     : Dram := {}
  prot     : Tab ProtUnit := []
  pke      : Pke := {}
  /-- 1 + the time of the latest hail, by 96 · member + carrier instance (R313). -/
  heard    : Tab Nat := []
  /-- By carrier instance: next HAIL_SEQ, 1 + when a hail last left, reassemblies discarded; FOREIGN_HAIL by carrier,
  PEER_CONFLICT by member, PEER_TABLE_FULL: 1 + the time of the last event, and the count since. -/
  hailSeq  : Tab Nat := []
  hailAt   : Tab Nat := []
  reasm    : List Reasm := []
  reasmDrop : Tab Nat := []
  foreignAt : Tab Nat := []
  foreignCnt : Tab Nat := []
  conflictAt : Tab Nat := []
  conflictCnt : Tab Nat := []
  peerFullAt : Nat := 0
  peerFullCnt : Nat := 0
deriving DecidableEq, Repr

/-- A standing configuration equal to the factory defaults (R498, R499). DESIGN CHOICE: notes/assumptions/13.md.
DEDUCED: notes/assumptions/93.md. -/
def factoryImage : CfgImg := { records := factoryRecords, saveCount := 0, run := 0, valid := true }

/-- The private flash partition of a half (R19): the IDGEN whose HSS traversal state lies sealed in it (R355), and the
restart count of the run (R421). DESIGN CHOICE: notes/assumptions/73.md. -/
structure Priv where
  hss      : Option Nat := none
  restarts : Nat := 0
deriving DecidableEq, Repr

/-- The flash storage (R18, R19). DESIGN CHOICE: notes/assumptions/13.md. -/
structure Flash where
  /-- Private partitions of the two halves. -/
  privA    : Priv := {}
  privB    : Priv := {}
  /-- Powered run number (R269). -/
  run      : Nat := 0
  /-- Next key serial block (R271), next epoch block of each association key and tributary (R143). -/
  serialBlk : Nat := 0
  epochBlk : Tab Nat := []
  hssBlk   : Nat := 0
  /-- Durable key register entries of landings 3 and 4. -/
  keys     : Tab KeyEnt := []
  /-- Journal use in 64-byte units, and a compaction in progress. -/
  used     : Nat := 0
  compacting : Bool := false
  cfg0     : Option CfgImg := some factoryImage
  cfg1     : Option CfgImg := none
  cfgCur   : Option Bool := some false
  fw0      : Option Fw := some { svn := 0, ferryVer := 1, ferryMin := 1, build := 0, digest := 0, loads := true }
  fw1      : Option Fw := none
  bootSlot : Nat := 0
  staged   : Option Nat := none
  anchor   : Option Anchor := none
  charter  : Option Charter := none
  /-- The charter that an IDGEN advance has left behind (R551). -/
  lapsed   : Option Charter := none
  recs     : List PendRec := []
  nextRec  : Nat := 0
  /-- Records of R328. -/
  zkaRecs  : List ZkaRec := []
  /-- OTP: IDGEN (R355) and the anti-rollback thermometers of the two halves (R361). -/
  idgen    : Nat := 0
  rollA    : Nat := 0
  rollB    : Nat := 0
deriving DecidableEq, Repr

/-- An entry of the alarm log (R465).  `resp`: bit 0 REPORT, 1 HALT_HALF, 2 ERASE; `missed`: alarms before it that
were not logged. -/
structure LogEntry where
  serial  : Nat
  src     : Nat
  resp    : Nat
  onCell  : Bool
  seconds : Nat
  missed  : Nat
  posted  : Bool
deriving DecidableEq, Repr

/-- A VALID pending record (R469): TARGET, the source mask, seconds-on-cell at the first erasure. -/
structure Pending where
  target  : Nat
  mask    : Nat
  seconds : Nat
deriving DecidableEq, Repr

/-- What EVIDENCE_COMMITTED reports of a record completed at power-up. -/
structure Committed where
  old     : Nat
  new     : Nat
  mask    : Nat
  seconds : Nat
deriving DecidableEq, Repr

/-- The tamper controller with its secure domain (15), one for the module (R266, R267). DESIGN CHOICE:
notes/assumptions/14.md. -/
structure Tamper where
  /-- The envelope seed E is present; otherwise the module is ERASED. -/
  seed     : Bool := true
  /-- Which seed it is: how many have been drawn since the first. -/
  seedNo   : Nat := 0
  /-- The tamper bus buffers: P and E on their way to a half, cleared once passed (R266). -/
  bus      : Option (Nat × Option Nat) := none
  /-- Run-end register (Table 19.1). -/
  endCause : Nat := 7
  evidence : Nat := 0
  saturated : Bool := false
  evidenceLost : Bool := false
  /-- The canary is right. -/
  canary   : Bool := true
  pend     : Option Pending := none
  /-- Sources in alarm; sources latched. -/
  inAlarm  : List Nat := []
  latched  : List Nat := []
  log      : List LogEntry := []
  nextSerial : Nat := 1
  /-- Alarms not logged since the last entry was logged. -/
  unlogged : Nat := 0
  /-- Mains is absent, since this instant (R470). -/
  onCell   : Bool := true
  cellSince : Nat := 0
  /-- `TMP_CELL_STAT` and `TMP_STAT.CELL` as last measured. -/
  cellMv   : Nat := 0
  holdup   : Nat := 0
  cellLow  : Bool := false
  cellFailed : Bool := false
  charging : Bool := false
  /-- Seconds-on-cell as it stood when mains returned. -/
  cellSec  : Nat := 0
  /-- The last ERASE decision on mains (R466), and its source mask for TAMPER_ERASED. -/
  erasedAt : Option Nat := none
  erasedMask : Nat := 0
  /-- Found or completed at this power-up, to be posted at step 6 of R542. -/
  committed : Option Committed := none
  lostNow  : Bool := false
  /-- Envelope sensors in 1/16 °C. -/
  temp0    : Int := 0
  temp1    : Int := 0
deriving DecidableEq, Repr

/-- A power supply (`MOD_PSU_STAT`). -/
structure Supply where
  ac    : Bool := false
  dc    : Bool := false
  fault : Bool := false
deriving DecidableEq, Repr

/-- A cage (`MOD_CAGE_STAT`): power in quarters of a watt, case temperature in 1/256 °C. -/
structure Cage where
  present  : Bool := false
  powered  : Bool := false
  fault    : Bool := false
  ready    : Bool := false
  powerQ   : Nat := 0
  caseTemp : Int := 0
deriving DecidableEq, Repr

/-- Where the power sequence of Table 18.8 stands. -/
inductive Power where
  /-- no mains -/
  | off
  /-- step 4 holds the halves unpowered: an envelope sensor reads below −10 °C (R534) -/
  | cold
  /-- step 5 and later -/
  | on
  /-- removed at THERMAL_TRIP (R537) -/
  | tripped
deriving DecidableEq, Repr

/-- The board controller: supplies, fans, cages, temperatures, the reference, the sideband (18). DESIGN CHOICE:
notes/assumptions/14.md. -/
structure Board where
  power    : Power := .off
  ps1      : Supply := {}
  ps2      : Supply := {}
  loadW    : Nat := 0
  powerFail : Bool := false
  tray     : Bool := false
  failed   : List Nat := []
  duty     : Nat := 60
  /-- `MOD_TEMP_STAT`, in 1/16 °C; unlisted 0. -/
  temps    : Tab Int := []
  /-- Sensors above their warning limit, by `Sensor`, and two or more failed fans. -/
  warned   : List Sensor := []
  heldOff  : Bool := false
  trips    : Nat := 0
  tripTimes : List Nat := []
  /-- `MOD_REF_STAT`: 0 free run, 1 locked, 2 holdover; offset in ppb. -/
  refState : Nat := 0
  refPpb   : Int := 0
  cages    : Tab Cage := []
  /-- An unread sideband status change exists: MGMT_ALERT# is low. -/
  alert    : Bool := false
  /-- Connectors whose 1PPS has been reported lost, and the last edge of each (R376). -/
  ppsLost  : List Nat := []
  ppsAt    : Tab Nat := []
deriving DecidableEq, Repr

/-- The state of the module. -/
structure State where
  /-- Commands and happenings that wait, first in, first out. -/
  pending : List Instr := []
  /-- Time on the module reference, in ns (R367); the model's own count. -/
  now     : Nat := 0
  /-- Free values drawn so far; the model's own count. -/
  fv      : Nat := 0
  phase   : Phase := .cold
  a       : HState := {}
  b       : HState := {}
  flash   : Flash := {}
  tam     : Tamper := {}
  /-- Registers of the tamper controller and the board controller (R460). -/
  modRegs : Tab Word := []
  board   : Board := {}
  /-- Slipways by 2·lane + direction (transmit 0, receive 1). -/
  slips   : Tab Slip := []
  /-- Module state last reported by MODULE_STATE. -/
  lastState : Nat := 0
  /-- CFG_DEFAULTED (R499). -/
  cfgDefaulted : Bool := false
  /-- Completions of ENVELOPE_RENEW and DECOMMISSION for the next run (R483). -/
  carried : List Cpl := []
  /-- What the module has sent, oldest first. -/
  out     : List Out := []
  /-- Host memory as the module has written it: result areas and host blob copies by address, and the slots of
  completion and event rings by (function, ring, slot). -/
  host    : Tab (List Fld) := []
  rings   : Tab (Option Entry) := []
  /-- Host memory as the module knows it: the descriptors that doorbells have covered, by (function, ring, slot), and
  the position after the last of them, by 4·function + ring. -/
  descs   : Tab (Option Desc) := []
  descEnd : Tab Nat := []
deriving DecidableEq, Repr

/-- The module right after reset: unpowered, with the flash and tamper controller as shipped. DESIGN CHOICE:
notes/assumptions/13.md, notes/assumptions/14.md. DEDUCED: notes/assumptions/54.md. -/
def State.reset : State := {}

end Sys2Proof.Machine
end

