-- ==== Sys2Proof/Machine/Ops.lean ====
section
/-! DEFINITION. The named operations every meaning is written over: sparse tables, the two halves, paired and
per-half registers, which half holds the helm, free values, events, completions, the usher and the rings. -/

namespace Sys2Proof

/-- A is 0, B is 1 (Table 13.2). -/
def Half.idx : Half → Nat
  | .A => 0
  | .B => 1

/-- The other half. -/
def Half.other : Half → Half
  | .A => .B
  | .B => .A

/-- Side A is 0, side B is 1. -/
def Side.idx : Side → Nat
  | .A => 0
  | .B => 1

/-- Transmit is 0, receive is 1. -/
def Dir.idx : Dir → Nat
  | .tx => 0
  | .rx => 1

end Sys2Proof

namespace Sys2Proof.Machine

open Sys2Proof

/-! ## Sparse tables -/

/-- The entry at an index; `d` where none is listed. -/
def tabGet {α : Type} (d : α) : Tab α → Nat → α
  | [], _ => d
  | (i, v) :: r, k => if i = k then v else tabGet d r k

/-- The table without the entry at an index. -/
def tabDel {α : Type} : Tab α → Nat → Tab α
  | [], _ => []
  | (i, v) :: r, k => if i = k then tabDel r k else (i, v) :: tabDel r k

/-- The table with an entry listed at its place. -/
def tabIns {α : Type} : Tab α → Nat → α → Tab α
  | [], k, x => [(k, x)]
  | (i, v) :: r, k, x =>
    if k < i then (k, x) :: (i, v) :: r
    else if i = k then (k, x) :: r
    else (i, v) :: tabIns r k x

/-- The table with a value at an index; the default is not listed. -/
def tabSet {α : Type} [DecidableEq α] (d : α) (t : Tab α) (k : Nat) (x : α) : Tab α :=
  if x = d then tabDel t k else tabIns t k x

/-- Every listed index is above `b`, indices rise strictly, and no entry is the default. -/
def tabWfFrom {α : Type} [DecidableEq α] (d : α) : Nat → Tab α → Bool
  | _, [] => true
  | b, (i, v) :: r => decide (b ≤ i) && decide (v ≠ d) && tabWfFrom d (i + 1) r

/-- The canonical form of a table. -/
def tabWf {α : Type} [DecidableEq α] (d : α) (t : Tab α) : Bool := tabWfFrom d 0 t

/-- The first index below `n` at which `used` fails, counting from the free value `c` among those that do;
none when all are used.  The module picks the index; the spec does not say which. DESIGN CHOICE:
notes/assumptions/8.md. -/
def pickFree (used : Nat → Bool) (n c : Nat) : Option Nat :=
  let free := (List.range n).filter fun i => !used i
  free[c % free.length]?

/-! ## The two halves -/

/-- One half. -/
def State.half (s : State) : Half → HState
  | .A => s.a
  | .B => s.b

/-- The state with one half replaced. -/
def State.setHalf (s : State) : Half → HState → State
  | .A, x => { s with a := x }
  | .B, x => { s with b := x }

/-- The state with one half changed. -/
def State.modHalf (s : State) (h : Half) (f : HState → HState) : State := s.setHalf h (f (s.half h))

/-- The image of one half. -/
def State.img (s : State) (h : Half) : Image := (s.half h).img

/-- The state with the image of one half changed. -/
def State.modImg (s : State) (h : Half) (f : Image → Image) : State :=
  s.modHalf h fun x => { x with img := f x.img }

/-- The state with the helm part of one half changed. -/
def State.modHelm (s : State) (h : Half) (f : Helm → Helm) : State :=
  s.modHalf h fun x => { x with helm := f x.helm }

/-- A free value, and the state with the count advanced. DESIGN CHOICE: notes/assumptions/7.md. -/
def State.draw (s : State) : Nat × State := (Config.freeNat s.fv, { s with fv := s.fv + 1 })

/-- Something leaves the module. DESIGN CHOICE: notes/assumptions/16.md. -/
def State.emit (s : State) (o : Out) : State := { s with out := s.out ++ [o] }

/-! ## Registers -/

/-- A paired register of a half: the kept word differs from the reset word by exclusive or, so that an unlisted
register reads as its reset value. -/
def Image.reg (im : Image) (fn off : Nat) : Word := tabGet 0 im.regs (regKey fn off) ^^^ resetWord off

/-- The image with a paired register set. -/
def Image.setReg (im : Image) (fn off : Nat) (w : Word) : Image :=
  { im with regs := tabSet 0 im.regs (regKey fn off) (w ^^^ resetWord off) }

/-- A register of one half that is not paired. -/
def HState.reg (x : HState) (fn off : Nat) : Word := tabGet 0 x.regs (regKey fn off) ^^^ resetWord off

/-- The half with a register set that is not paired. -/
def HState.setReg (x : HState) (fn off : Nat) (w : Word) : HState :=
  { x with regs := tabSet 0 x.regs (regKey fn off) (w ^^^ resetWord off) }

/-- A register of the tamper or board controller. -/
def State.modReg (s : State) (off : Nat) : Word := tabGet 0 s.modRegs off ^^^ resetWord off

/-- The state with a register of the tamper or board controller set. -/
def State.setModReg (s : State) (off : Nat) (w : Word) : State :=
  { s with modRegs := tabSet 0 s.modRegs off (w ^^^ resetWord off) }

/-! ## Who holds the helm -/

/-- The half whose claim is obeyed (R402): the higher generation, half A on a tie. DEDUCED: notes/assumptions/48.md. -/
def State.obeyed (s : State) : Option Half :=
  match s.a.helm.claim, s.b.helm.claim with
  | true, true => if s.a.helm.gen < s.b.helm.gen then some .B else some .A
  | true, false => some .A
  | false, true => some .B
  | false, false => none

/-- The half drives and posts (R33, R35): it is active. -/
def HelmSt.active : HelmSt → Bool
  | .activePaired | .activeSolo => true
  | _ => false

/-- A half in ACTIVE_PAIRED or ACTIVE_SOLO. -/
def State.isActive (s : State) (h : Half) : Bool := (s.half h).helm.st.active

/-- The half that holds the helm and posts: its claim is obeyed and it is active. -/
def State.holder (s : State) : Option Half :=
  match s.obeyed with
  | some h => if s.isActive h then some h else none
  | none => none

/-- The half that executes commands: the holder, once the module has left BOOTING (Table 19.2). -/
def State.serving (s : State) : Option Half := if s.phase = .running then s.holder else none

/-- The module state of R11, coded as HIF_MODULE_STAT.STATE; 0 is COLD. DEDUCED: notes/assumptions/90.md. -/
def State.modState (s : State) : Nat :=
  if !s.tam.seed then 5
  else match s.phase with
    | .cold => 0
    | .booting => 1
    | .running =>
      if s.a.helm.st ≠ .inStep ∧ s.b.helm.st ≠ .inStep then 4
      else match s.holder with
        | some h => if (s.img h).service then 3 else 2
        | none => 4

/-! ## Packing (R487) -/

/-- Length of packed fields: each starts at a multiple of its size, or of 8 for larger fields. DEDUCED:
notes/assumptions/26.md, notes/assumptions/27.md. -/
def packLen (fs : List Fld) : Nat :=
  fs.foldl (fun o f => let al := if f.1 ≤ 1 then 1 else if f.1 ≤ 2 then 2 else if f.1 ≤ 4 then 4 else 8
                       (o + al - 1) / al * al + f.1) 0

/-- Continuation entries of a payload (R488). -/
def contCount (fs : List Fld) : Nat := (packLen fs - 32 + 59) / 60

/-! ## Posting -/

/-- The value of each time base of a half, none while it is invalid (Table 16.8, TIME). -/
def HState.times (x : HState) : List (Option TimeVal) :=
  (List.range 4).map fun n =>
    let b := tabGet {} x.tbs n
    if b.valid then some { seconds := b.sec, nanos := b.ns, subns := b.sub } else none

/-- Put a level event into a list of posts: a waiting post of the same source takes the new state, whatever the
state was, and counts the change absorbed (R31, R36). DEDUCED: notes/assumptions/28.md. -/
def mergeLevel (e : Ev) : List (Src × Post) → Option (List (Src × Post))
  | [] => none
  | (src, .ev o) :: r =>
    if o.key = e.key ∧ e.key ≠ 0 then
      some ((src, .ev { e with absorbed := o.absorbed + e.absorbed + 1 }) :: r)
    else (mergeLevel e r).map ((src, .ev o) :: ·)
  | p :: r => (mergeLevel e r).map (p :: ·)

/-- The same among the events to forward; one that an ACK has carried stands as it is. -/
def HState.forward (x : HState) (src : Src) (e : Ev) : HState :=
  let new := (x.fwd.drop x.fwdOut).map fun p => (src, p)
  { x with fwd := x.fwd.take x.fwdOut ++ ((mergeLevel e new).getD (new ++ [(src, .ev e)])).map (·.2) }

/-- An event of a half: into its usher FIFO while it is active, among the events to forward while it is standby or
has stopped driving (R33, R35), nowhere once it is halted. DEDUCED: notes/assumptions/31.md. -/
def State.postEv (s : State) (h : Half) (src : Src) (e : Ev) : State :=
  s.modHalf h fun x =>
    match x.helm.st with
    | .activePaired | .activeSolo =>
      { x with queue := (mergeLevel e x.queue).getD (x.queue ++ [(src, .ev e)]) }
    | .inStep | .out | .relinquished => x.forward src e
    | .halted => x

/-- Post an event that is not a level event. -/
def State.post (s : State) (h : Half) (src : Src) (code : Nat) (payload : List Fld) (route : Route := .pf) :
    State :=
  s.postEv h src { code, origin := h, absorbed := 0, payload, route, key := 0, times := (s.half h).times }

/-- What names a level source: its event, and which source of that event it is.  PACE_LIMIT and PACE_CLEAR report one
level. DEDUCED: notes/assumptions/28.md. DESIGN CHOICE: notes/assumptions/103.md. -/
def levelKey (code key : Nat) : Nat := (if code = 0x0D02 then 0x0D01 else code) * 2 ^ 33 + key + 1

/-- Post a level event; `key` tells the sources of one event apart. DEDUCED: notes/assumptions/28.md. DESIGN CHOICE:
notes/assumptions/103.md. -/
def State.postLevel (s : State) (h : Half) (code key : Nat) (payload : List Fld) (route : Route := .pf) : State :=
  s.postEv h .level { code, origin := h, absorbed := 0, payload, route, key := levelKey code key,
                      times := (s.half h).times }

/-- A completion of a command by a half. -/
def State.postCpl (s : State) (h : Half) (c : Cmd) (status cflags : Nat) (result : List Fld) : State :=
  s.modHalf h fun x =>
    { x with queue := x.queue ++
        [(Src.command, Post.cpl { op := c.op, fn := c.fn, table := c.table, half := h, status, tag := c.tag,
                                  pos := c.pos, cflags, result })] }

/-- The place of a completion takes it, in the order of execution (R29). -/
def fillDue (c : Cmd) (p : Src × Post) : List (Src × Post) → Option (List (Src × Post))
  | [] => none
  | q :: r => if q.2 = .due c then some (p :: r) else (fillDue c p r).map (q :: ·)

/-- The completion of a command that acted earlier: in the place kept for it, if one is. -/
def State.postKept (s : State) (h : Half) (c : Cmd) (status cflags : Nat) (result : List Fld) : State :=
  let p : Src × Post := (.command, .cpl { op := c.op, fn := c.fn, table := c.table, half := h, status, tag := c.tag,
                                          pos := c.pos, cflags, result })
  s.modHalf h fun x => { x with queue := (fillDue c p x.queue).getD (x.queue ++ [p]) }

/-- Posts of a kind of source that wait at the usher. -/
def HState.waitingAt (x : HState) (k : Src) : List (Src × Post) := x.queue.filter fun p => decide (p.1 = k)

/-- The usher FIFO of a kind of source is full: what can wait waits (R36). DESIGN CHOICE: notes/assumptions/102.md. -/
def HState.srcFull (x : HState) (k : Src) : Bool :=
  match x.waitingAt k with
  | [] => false
  | l => decide (Config.sourceDepth k ≤ l.length)

/-! ## Rings -/

/-- Offset of a ring's HIF_RING_CFG. -/
def ringCfgOff (r : Nat) : Nat := 0x100108 + 0x20 * r

/-- The ring is enabled. -/
def Image.ringEn (im : Image) (fn r : Nat) : Bool := bit (im.reg fn (ringCfgOff r)) 31

/-- Entries of a ring (R480). -/
def Image.ringSize (im : Image) (fn r : Nat) : Nat := 2 ^ bits (im.reg fn (ringCfgOff r)) 20 16

/-- The ring state of a function. -/
def Image.fnSt (im : Image) (fn : Nat) : FnSt := tabGet {} im.fns fn

/-- The image with a function's ring state set. -/
def Image.setFn (im : Image) (fn : Nat) (f : FnSt) : Image := { im with fns := tabSet {} im.fns fn f }

/-- One of the four rings of a function (R480). -/
def FnSt.ring (f : FnSt) : Nat → Ring
  | 0 => f.cmd
  | 1 => f.cpl
  | 2 => f.evt
  | _ => f.tbl

/-- The function with one ring replaced. -/
def FnSt.setRing (f : FnSt) : Nat → Ring → FnSt
  | 0, r => { f with cmd := r }
  | 1, r => { f with cpl := r }
  | 2, r => { f with evt := r }
  | _, r => { f with tbl := r }

/-- A ring with one index changed. -/
def Image.modRing (im : Image) (fn r : Nat) (g : Ring → Ring) : Image :=
  im.setFn fn ((im.fnSt fn).setRing r (g ((im.fnSt fn).ring r)))

/-- PHASE of a position (R481). -/
def phaseOf (pos size : Nat) : Bool := decide (pos / size % 2 = 0)

/-- A ring error counted (R479, R482, R486), saturating at 65,535. -/
def HState.ringError (x : HState) (fn r : Nat) : HState :=
  { x with ringErr := tabSet 0 x.ringErr (4 * fn + r) (min 65535 (tabGet 0 x.ringErr (4 * fn + r) + 1)) }

/-- The functions a post goes to (Table 16.9). DEDUCED: notes/assumptions/29.md. -/
def routeFns (im : Image) : Route → List Nat
  | .pf => [0]
  | .dom d => if d = 0 then [0] else [0, d]
  | .fn f => if f = 0 then [0] else [f, 0]
  | .all => (List.range 16).filter fun f => im.ringEn f 2
  | .every => List.range 16

/-- Room for `k` more entries on a ring of a function (R485). -/
def Image.room (im : Image) (fn r k : Nat) : Bool :=
  let g := (im.fnSt fn).ring r
  decide (g.count + k ≤ g.db + im.ringSize fn r)

/-- The entries an event takes, from a position on. -/
def eventEntries (fn pos size : Nat) (n : Numbered) (payload : List Fld) : List Placed :=
  let k := contCount payload
  { fn, ring := 2, pos, entry := .main (phaseOf pos size) k n } ::
    (List.range k).map fun i => { fn, ring := 2, pos := pos + 1 + i,
                                  entry := .cont (phaseOf (pos + 1 + i) size) (i + 1) n }

/-- A later level event of the same source replaces the held one and adds to its ABSORBED (R490). DEDUCED:
notes/assumptions/28.md. -/
def holdMerge (n : Numbered) (e : Ev) : List Numbered → Option (List Numbered)
  | [] => none
  | m :: r =>
    match m.post with
    | .ev o =>
      if e.key ≠ 0 ∧ o.key = e.key then
        some ({ n with post := .ev { e with absorbed := o.absorbed + e.absorbed + 1 } } :: r)
      else (holdMerge n e r).map (m :: ·)
    | _ => (holdMerge n e r).map (m :: ·)

/-- BOOT (R545) and TAMPER_ALARM (R490) are never dropped. -/
def neverDropped (code : Nat) : Bool := decide (code = 0x0801 ∨ code = 0x0C01)

/-- Keep an event in a function's overflow store (R490). -/
def FnSt.hold (f : FnSt) (n : Numbered) (e : Ev) : FnSt :=
  match holdMerge n e f.held with
  | some l => { f with held := l }
  | none =>
    if f.held.length < 256 || neverDropped e.code then { f with held := f.held ++ [n] }
    else { f with dropped := f.dropped + 1, dropLo := if f.dropped = 0 then n.seq else f.dropLo, dropHi := n.seq }

/-- An event ring of a function takes entries now. -/
def Image.evtOpen (im : Image) (fn : Nat) : Bool := im.ringEn fn 2 && !(im.fnSt fn).evt.stalled

/-- Place a numbered event on the ring of one function, or hold it (R488, R490). -/
def placeEv (n : Numbered) (e : Ev) (fn : Nat) (x : HState) : HState :=
  let im := x.img
  let k := 1 + contCount e.payload
  if im.evtOpen fn && (im.fnSt fn).held.isEmpty && im.room fn 2 k then
    { x with unsent := x.unsent ++ eventEntries fn (im.fnSt fn).evt.count (im.ringSize fn 2) n e.payload,
             img := im.modRing fn 2 fun g => { g with count := g.count + k } }
  else { x with img := im.setFn fn ((im.fnSt fn).hold n e) }

/-- Place a numbered completion (R485, R486, R495): a completion ring that is stalled or disabled discards it
and counts it; a completion of a command discarded by a Function Level Reset is not written. -/
def placeCpl (n : Numbered) (c : Cpl) (x : HState) : HState :=
  let im := x.img
  let f := im.fnSt c.fn
  let me : Taken → Bool := fun t => decide (t.table = c.table ∧ t.pos = c.pos ∧ t.tag = c.tag)
  let f' : FnSt := { f with taken := f.taken.filter fun t => !me t }
  if f.discard.any me then
    { x with img := im.setFn c.fn { f' with discard := f'.discard.filter fun t => !me t } }
  else if im.ringEn c.fn 1 && !f.cpl.stalled then
    { x with unsent := x.unsent ++ [{ fn := c.fn, ring := 1, pos := f.cpl.count,
                                      entry := .main (phaseOf f.cpl.count (im.ringSize c.fn 1)) 0 n }],
             img := im.setFn c.fn { f' with cpl := { f.cpl with count := f.cpl.count + 1 } } }
  else { (x.ringError c.fn 1) with img := im.setFn c.fn f' }

/-- Number a post and place it (R30, R489) (R32, R34); a place that is kept for a completion has no number. -/
def HState.number (x : HState) (p : Post) : HState :=
  let n : Numbered := { seq := x.img.seq + 1, post := p }
  let y := { x with img := { x.img with seq := n.seq } }
  match p with
  | .cpl c => placeCpl n c y
  | .ev e => (routeFns y.img e.route).foldl (fun x f => placeEv n e f x) y
  | .due _ => x

/-- Where a ring slot of host memory is kept in the model. -/
def slotKey (fn r slot : Nat) : Nat := (fn * 4 + r) * 65536 + slot

/-- The log serial of a TAMPER_ALARM entry. -/
def alarmSerial (e : Entry) : Option Nat :=
  match e with
  | .main _ _ ⟨_, .ev v⟩ => if v.code = 0x0C01 then v.payload.head?.map (·.2) else none
  | _ => none

/-- An alarm log entry is posted once its event stands on the PF's ring (R465). -/
def Tamper.markPosted (t : Tamper) (p : Placed) : Tamper :=
  match alarmSerial p.entry with
  | some n => if p.fn = 0 then
      { t with log := t.log.map fun e => if e.serial = n then { e with posted := true } else e } else t
  | none => t

/-- Write an entry to host memory and moderate its interrupt (R485, R491). DEDUCED: notes/assumptions/15.md. -/
def State.writeEntry (h : Half) (s : State) (p : Placed) : State :=
  let im := s.img h
  let s := { s with tam := s.tam.markPosted p }
  let s := { s with rings := tabSet none s.rings (slotKey p.fn p.ring (p.pos % im.ringSize p.fn p.ring))
                                  (some p.entry) }
  let md := im.reg p.fn (0x100110 + 0x20 * p.ring)
  let g := (im.fnSt p.fn).ring p.ring
  if bits md 15 0 ≤ g.modCount + 1 || decide (bits md 31 16 = 0) then
    (s.modImg h fun im => im.modRing p.fn p.ring fun g => { g with modCount := 0 }).emit
      (.msix p.fn (bits (im.reg p.fn (ringCfgOff p.ring)) 12 10))
  else s.modImg h fun im => im.modRing p.fn p.ring fun g =>
    { g with modCount := g.modCount + 1, modSince := if g.modCount = 0 then s.now else g.modSince }

/-- In ACTIVE_SOLO entries are written at once (R399); in ACTIVE_PAIRED they wait for the ACK. -/
def State.flushSolo (s : State) (h : Half) : State :=
  if (s.half h).helm.st = .activeSolo then
    (s.half h).unsent.foldl (State.writeEntry h) (s.modHalf h fun x => { x with unsent := [] })
  else s

/-- The keys that a completion or event reports as created: DOMAIN_CREATE, KEY_IMPORT, ZKA_DONE, MKA_SAK. -/
def Image.created (im : Image) : Post → List Nat
  | .cpl c => if c.status = 0 ∧ (c.op = 0x0102 ∨ c.op = 0x0103) then (c.result.take 1).map (·.2) else []
  | .ev e =>
    if e.code = 0x0407 then (e.payload[3]?.map (·.2)).toList
    else if e.code = 0x040A then
      match e.payload, tabGet none im.cas ((e.payload.map (·.2)).headD 1024) with
      | (_, _) :: (_, an) :: _, some ca =>
        (tabGet {} im.saTx (4 * ca.tx + an) : Sa).handle ::
          ca.rx.map fun p => (tabGet {} im.saRx (4 * p.2 + an) : Sa).handle
      | _, _ => []
    else []
  | .due _ => []

/-- CREATED_SEQ of the keys that a post reports as created (Table 09.8): the number just assigned. -/
def State.stamp (s : State) (h : Half) (p : Post) : State :=
  ((s.img h).created p).foldl (fun s hd =>
    let e : KeyEnt := tabGet {} (s.img h).keys hd
    let n := (s.img h).seq
    let mark : Nat × KeyEnt → Nat × KeyEnt := fun q =>
      if q.1 = hd ∧ q.2.serial = e.serial then (q.1, { q.2 with seq := n }) else q
    if e.st = 0 ∨ e.seq ≠ 0 then s
    else
      let fl : Flash := { s.flash with keys := s.flash.keys.map mark }
      { s with flash := fl }.modImg h fun im => { im with keys := tabSet {} im.keys hd { e with seq := n } }) s

/-- STN_MOVED with its own usher number in its last field (R226). DEDUCED: notes/assumptions/121.md. -/
def Post.learned (p : Post) (n : Nat) : Post :=
  match p with
  | .ev e => if e.code = 0x0202 then .ev { e with payload := e.payload.take 6 ++ [(8, n)] } else p
  | _ => p

/-- The key of the station whose learn a post reports, as its payload shows it. -/
def learnedKey : Post → Option Nat
  | .ev e => if e.code = 0x0201 ∨ e.code = 0x0202 then (e.payload.head?).map (·.2) else none
  | _ => none

/-- A station key as host software sees it (Table 07.7, bytes 0–7): MAC address in transmission order, VLAN ID and domain.
DEDUCED: notes/assumptions/27.md. -/
def keyBytes (k : Nat) : List Nat := beBytes 6 (k % 2 ^ 48) ++ leBytes 2 (k / 2 ^ 48 % 4096 + k / 2 ^ 60 * 4096)

/-- The station whose learn a post reports keeps the post's number (R226). -/
def Image.noteLearn (im : Image) (p : Post) : Image :=
  match learnedKey p with
  | some k => { im with stn := im.stn.map fun q =>
      (q.1, q.2.map fun e => if leNat (keyBytes e.1) = k then (e.1, { e.2 with lastSeq := im.seq }) else e) }
  | none => im

/-- Number a post at once, with its entries written as R399 says. -/
def State.numberNow (s : State) (h : Half) (p : Post) : State :=
  let p := p.learned ((s.img h).seq + 1)
  (((s.modHalf h fun x => x.number p).stamp h p).modImg h fun im => im.noteLearn p).flushSolo h

/-- An event record. -/
def mkEv (s : State) (h : Half) (code : Nat) (payload : List Fld) (route : Route) : Ev :=
  { code, origin := h, absorbed := 0, payload, route, key := 0, times := (s.half h).times }

/-- Post MODULE_STATE at a change of the module state (R500), from the half that holds the helm. DEDUCED:
notes/assumptions/29.md. -/
def State.noteState (s : State) : State :=
  if s.modState = s.lastState then s
  else match s.holder with
    | some h =>
      let old := s.lastState
      { s with lastState := s.modState }.post h .cores 0x0D0E
        [(1, old), (1, s.modState), (1, if (s.img h).service then 1 else 0), (1, h.idx)] .all
    | none => s

/-! ## Commands -/

/-- Status codes of Table 00.7. -/
def stDone : Nat := 0
def stLate : Nat := 1
def stArgs : Nat := 2
def stNoRes : Nat := 3
def stNotHelm : Nat := 4
def stKeyInvalid : Nat := 5
def stPke : Nat := 6
def stExhausted : Nat := 7
def stLocked : Nat := 8
def stAborted : Nat := 9
def stIntegrity : Nat := 10
def stOrphaned : Nat := 11

/-- CFLAGS bits of Table 16.7. -/
def cfAlready : Nat := 1
def cfAbsent : Nat := 2
def cfCancelled : Nat := 4
def cfForwarded : Nat := 8

/-- The lowest-numbered status whose condition holds (R16). -/
def lowest (fails : List (Bool × Nat)) : Option Nat :=
  ((fails.filter (·.1)).map (·.2)).min?

/-- The command a header names. -/
def cmdOf (h : Hdr) (op : Nat) : Cmd := { op, fn := h.fn, table := h.table, pos := h.pos, tag := h.tag }

/-- The command is among those its function's rings have taken. DESIGN CHOICE: notes/assumptions/3.md. -/
def Image.hasTaken (im : Image) (h : Hdr) : Bool :=
  (im.fnSt h.fn).taken.any fun t => decide (t.table = h.table ∧ t.pos = h.pos ∧ t.tag = h.tag)

/-- The half whose command engine has a command: the serving half, which takes no new command once a handover is
decided (R413). DESIGN CHOICE: notes/assumptions/3.md. -/
def State.engineOf (s : State) (h : Hdr) : Option Half :=
  match s.serving with
  | some x =>
    if (s.half x).helm.handover.isNone || (s.img x).hasTaken h then some x else none
  | none => none

/-- The deferrable backlog of a half is full (R396). -/
def HState.backlogFull (x : HState) : Bool := decide (4096 ≤ x.helm.backlogKib)

/-- The half that executes a command now: its command engine has it, and does not wait for the usher (R36) or for the
deferrable backlog (R396). DESIGN CHOICE: notes/assumptions/3.md, notes/assumptions/102.md. -/
def State.executor (s : State) (h : Hdr) : Option Half :=
  match s.engineOf h with
  | some x => if (s.half x).srcFull .command || (s.half x).backlogFull then none else some x
  | none => none

/-- The opcodes that the chapters define. -/
def opcodes : List Nat :=
  [0x0101, 0x0102, 0x0103, 0x0104, 0x0105, 0x0106, 0x0107, 0x0108, 0x0109, 0x0201, 0x0202, 0x0203, 0x0211, 0x0212, 0x0213,
   0x0214, 0x0215, 0x0216, 0x0217, 0x0221, 0x0222, 0x0223, 0x0224, 0x0225, 0x0231, 0x0301, 0x0302, 0x0303, 0x0304, 0x0305,
   0x0306] ++
  [0x0401, 0x0402, 0x0403, 0x0404, 0x0411, 0x0412, 0x0421, 0x0422, 0x0431, 0x0432, 0x0501, 0x0502, 0x0503, 0x0504, 0x0505,
   0x0601, 0x0701, 0x0702, 0x0703, 0x0801, 0x0802, 0x0803, 0x0804, 0x0810, 0x0811, 0x0812, 0x0813, 0x0814, 0x0820, 0x0821,
   0x0822, 0x0823] ++
  [0x0901, 0x0902, 0x0903, 0x0904, 0x0905, 0x0906, 0x0907, 0x0A40, 0x0A41, 0x0A50, 0x0A51, 0x0A52, 0x0B01, 0x0B02, 0x0B03,
   0x0B04, 0x0B05, 0x0B06, 0x0B07]

/-- The table ring takes opcodes 0x0201 to 0x0231 only, and no other ring takes them (R233). -/
def wrongRing (h : Hdr) (op : Nat) : Bool := decide (h.table ≠ decide (0x0201 ≤ op ∧ op ≤ 0x0231))

/-- A command as every chapter runs it.  No half executes it: nothing happens (Table 19.2).  Rung on the standby:
REJECTED_ARGS when its fields are out of range or inconsistent, else NOT_HELM, with FORWARDED (R492). Otherwise the
lowest failure that applies (R16), or its act (R28, R29). DESIGN CHOICE: notes/assumptions/3.md,
notes/assumptions/4.md. -/
def State.command (s : State) (h : Hdr) (op : Nat) (badArgs : Half → Bool)
    (fails : Half → List (Bool × Nat)) (act : Half → State → State) : State :=
  match s.executor h with
  | none => s
  | some x =>
    if h.on ≠ x then
      s.postCpl x (cmdOf h op) (if wrongRing h op || badArgs x then stArgs else stNotHelm) cfForwarded []
    else match lowest ((wrongRing h op || badArgs x, stArgs) :: fails x) with
      | some st => s.postCpl x (cmdOf h op) st 0 []
      | none => act x s

/-- Complete with DONE. -/
def State.done (s : State) (x : Half) (h : Hdr) (op : Nat) (result : List Fld := []) : State :=
  s.postCpl x (cmdOf h op) stDone 0 result

/-- The command waits. -/
def State.wait (s : State) (x : Half) (j : Job) : State :=
  s.modImg x fun im => { im with jobs := im.jobs ++ [j] }

/-- The command has acted and waits to complete, its place at the usher kept (R29). DESIGN CHOICE:
notes/assumptions/104.md. -/
def State.waitActed (s : State) (x : Half) (j : Job) : State :=
  (s.wait x j).modHalf x fun y => { y with queue := y.queue ++ [(.command, .due j.cmd)] }

/-- The command's result area is being written; it completes at DMA_TRANSFER_END (R558, R559). -/
def State.reply (s : State) (x : Half) (h : Hdr) (op : Nat) (result : List Fld) (addr : Nat) (bytes : List Fld) :
    State :=
  s.waitActed x { cmd := cmdOf h op, on := .dma, status := stDone, cflags := 0, result, area := some (addr, bytes),
                  cont := .finish }

/-- The private partition of a half, and the flash with it written: the bridge takes the write from that half alone
(R19). -/
def Flash.priv (f : Flash) : Half → Priv
  | .A => f.privA
  | .B => f.privB
def Flash.setPriv (f : Flash) : Half → Priv → Flash
  | .A, p => { f with privA := p }
  | .B, p => { f with privB := p }

/-- Units of 64 bytes of the area of the key journal in force (R301): 4 MiB. -/
def journalUnits : Nat := 65536

/-- A record of a kind is appended to the key journal (R301). DESIGN CHOICE: notes/assumptions/12.md. -/
def Flash.journal (f : Flash) (kind : Nat) : Flash :=
  { f with used := min journalUnits (f.used + 1 + Config.recordUnits kind) }

/-- Kind of a record in the key journal: creation 0, commit 1, invalidation 2, freeing 3; serial, epoch and HSS
reservations, the run number and an erased run's record are 4 to 8; others lie outside it. -/
def recKind : Rec → Option Nat
  | .key _ _ => some 0
  | .commit _ _ _ _ => some 1
  | .invalidate _ => some 2
  | .free _ => some 3
  | _ => none

/-- A record for the shared flash partition (R286): its identifier, and the state in which it is on its way.  Under
POWER_FAIL no new record starts (R532). -/
def State.record (s : State) (x : Half) (r : Rec) : Nat × State :=
  let f := s.flash
  let f' := { f with nextRec := f.nextRec + 1 }
  (f.nextRec, { s with flash :=
      if s.board.powerFail then f'
      else { (match recKind r with | some k => f'.journal k | none => f') with
             recs := f.recs ++ [{ id := f.nextRec, by_ := x, rec_ := r }] } })

/-- The command completes once a record is durable (R298). -/
def State.afterRecord (s : State) (x : Half) (h : Hdr) (op : Nat) (r : Rec) (result : List Fld) : State :=
  (s.record x r).2.waitActed x { cmd := cmdOf h op, on := .flash (s.record x r).1, status := stDone, cflags := 0,
                                 result, area := none, cont := .finish }

/-! ## Statistics (17) -/

/-- Where a fixed statistic is kept. -/
def statKey (group object idx : Nat) : Nat := group * 0x100000000 + object * 0x100 + idx

/-- Count in a fixed statistic of a half. -/
def HState.count (x : HState) (group object idx : Nat) (n : Nat := 1) : HState :=
  let k := statKey group object idx
  { x with stats := tabSet 0 x.stats k ((tabGet 0 x.stats k + n) % 2 ^ 64) }

/-- Count in a fixed statistic: the active half keeps them for the module (R515). -/
def State.count (s : State) (h : Half) (group object idx : Nat) (n : Nat := 1) : State :=
  if s.isActive h then s.modHalf h fun x => x.count group object idx n else s

/-! ## Events of the line and of the hardware -/

/-- The half has left COLD and is not halted: its cores, lanes and governor run. -/
def HState.up (x : HState) : Bool := x.boot.started && decide (x.haltCause = 0)

/-- A step about a unit the module does not have faults; the others run. DESIGN CHOICE: notes/assumptions/5.md. -/
def onUnit (ok : Bool) (s : State) : Host.Outcome State Fault Refusal :=
  if ok then .next s else .fault .noSuchUnit

end Sys2Proof.Machine
end

