-- ==== Sys2Proof/Machine/Wire.lean ====
section
/-! DEFINITION. The causeway fibre, bit by bit: lane frames with their scrambler and BIP-16, the codeword stream (02, 03),
slot words, container rows and overhead (04), the side sequence and the spans of the cipher area (05).  A word of 16 bytes
stands as a number whose most significant bit is the first on the fibre. -/

namespace Sys2Proof.Machine

open Sys2Proof

/-! ## The lane frame (Tables 03.1 and 03.3) -/

/-- The frame alignment signal, byte 0 first. -/
def fasBytes : List Nat := [0x3A, 0x6C, 0x9E, 0x15, 0xD2, 0xB4, 0x07, 0xF1]

/-- Bytes 0 to 63 of a lane frame: FAS, lane identity, MFAS, BIP-16 of the frame before, remote indications, hail
segment, group overhead share, and the reserved bytes as 0 (R77). -/
def laneHead (ident mfas bip remote ctl : Nat) (seg gob : List Nat) : List Nat :=
  fasBytes ++ [ident, mfas] ++ beBytes 2 bip ++ [remote, ctl] ++ padTo 32 seg ++ padTo 16 gob ++ [0, 0]

/-- The 131,006 bits of a frame from bit 64 on, from its bytes 8 to 63 and its payload words: all but bits [1:0] of byte 63
(R72). -/
def bodyBits (ovh payload : List Nat) : List Bool := (msbBits ovh).take 446 ++ wordsBits payload

/-- The 131,070 bits of a frame before scrambling (R72). -/
def frameBits (head payload : List Nat) : List Bool := msbBits (head.take 8) ++ bodyBits (head.drop 8) payload

/-- The scrambler, reset to all ones at bit 64 of each frame (R74). -/
def scramblerReset : Nat := 2 ^ 58 - 1

/-- One step of the scrambler: its output bit and its next state, x^58 + x^39 + 1 (R74). -/
def scramblerStep (st : Nat) : Bool × Nat :=
  (st.testBit 57, st * 2 % 2 ^ 58 + b2n (st.testBit 57 != st.testBit 38))

/-- Bits scrambled from a state on; descrambling is the same (R74). -/
def scrambleFrom : Nat → List Bool → List Bool
  | _, [] => []
  | st, b :: r => (b != (scramblerStep st).1) :: scrambleFrom (scramblerStep st).2 r

/-- A frame's bits as sent: the FAS is never scrambled (R74). -/
def scrambleFrame (bits : List Bool) : List Bool := bits.take 64 ++ scrambleFrom scramblerReset (bits.drop 64)

/-- The first bits of the scrambler's sequence. -/
def scramblerSequence (n : Nat) : List Bool := scrambleFrom scramblerReset (List.replicate n false)

/-- BIP-16 of a frame from its bytes 8 to 63 and its payload words, over the scrambled bits 64 to 131,069 (R80, R81). -/
def frameBip (ovh payload : List Nat) : Nat := bip16 (scrambleFrom scramblerReset (bodyBits ovh payload))

/-- The group frame: for each j the payload words of the lanes in order of LPOS (R101). -/
def groupFrame (payloads : List (List Nat)) : List Nat :=
  (List.range 1020).flatMap fun j => payloads.map fun p => p.getD j 0

/-- The segments of a message channel: control byte (SOM, EOM, LEN) and data of each (R84, R117). -/
def segmentsOf (size : Nat) (msg : List Nat) : List (Nat × List Nat) :=
  let n := (msg.length + size - 1) / size
  (List.range n).map fun i =>
    let d := (msg.drop (size * i)).take size
    (128 * b2n (decide (i = 0)) + 64 * b2n (decide (i + 1 = n)) + d.length, d)

/-! ## The codeword stream (R56, R73) -/

/-- The message bit, counted over a pair of frames, of bit b of its even or odd frame (R73). -/
def pairBit (odd : Bool) (b : Nat) : Nat := if odd then 131070 + b else b

/-- The place of a message bit of a pair on the line: 514 message symbols of 10 bits, then 30 parity symbols (R56). -/
def lineBit (m : Nat) : Nat := m / 5140 * 5440 + m % 5140

/-- Ten bits a symbol, the first the most significant. -/
def symbolsOf (n : Nat) (bits : List Bool) : List Nat :=
  (List.range n).map fun i => bitsNat ((bits.drop (10 * i)).take 10)

/-- A codeword: its 514 message symbols, then its parity symbols. DESIGN CHOICE: notes/assumptions/99.md. -/
def codeword (message : List Bool) : List Nat :=
  let m := symbolsOf 514 message
  m ++ (List.range 30).map fun i => Config.parity m i % 1024

/-- The bits of a codeword on the line: each symbol most significant bit first (R56). -/
def codewordBits (cw : List Nat) : List Bool := cw.flatMap fun v => (List.range 10).map fun i => v.testBit (9 - i)

/-- The PAM4 level of a bit pair, the first bit the more significant (R56). -/
def grayLevel : Bool → Bool → Nat
  | false, false => 0
  | false, true => 1
  | true, true => 2
  | true, false => 3

/-- The levels of bits, two bits each. -/
def levelsOf : List Bool → List Nat
  | a :: b :: r => grayLevel a b :: levelsOf r
  | _ => []

/-- The bit pair of a level. -/
def grayBits (l : Nat) : List Bool :=
  if l = 0 then [false, false] else if l = 1 then [false, true] else if l = 2 then [true, true] else [true, false]

/-- Precoding by 1/(1 + D) modulo 4 from the level sent before (R56). -/
def precode : Nat → List Nat → List Nat
  | _, [] => []
  | p, l :: r => ((l + 4 - p % 4) % 4) :: precode ((l + 4 - p % 4) % 4) r

/-- Precoding undone from the level received before (R56). -/
def unprecode : Nat → List Nat → List Nat
  | _, [] => []
  | p, l :: r => ((l + p) % 4) :: unprecode l r

/-- The levels that a lane sends for bits: Gray coded, precoded where `TX_PRECODE` is set, after the level sent before
(R56). -/
def sentLevels (txPrecode : Bool) (before : Nat) (bits : List Bool) : List Nat :=
  if txPrecode then precode before (levelsOf bits) else levelsOf bits

/-- The bits that a lane reads from levels: precoding undone where `RX_PRECODE` is set, after the level received before
(R56). -/
def readBits (rxPrecode : Bool) (before : Nat) (levels : List Nat) : List Bool :=
  (if rxPrecode then unprecode before levels else levels).flatMap grayBits

/-! ## Slots (Tables 04.2 and 04.5) -/

/-- The role of a slot word (Table 04.2). -/
inductive SlotWord where
  | ptr
  /-- sixteen bytes of 0x00 that the receiver ignores -/
  | stuff
  | container
deriving DecidableEq, Repr

/-- The role of slot word w in a frame of ACT 0 none, 1 increment, 2 decrement, 3 new (R112). -/
def slotWord (act w : Nat) : SlotWord :=
  if w = 0 then .ptr
  else if w = 1 then (if act = 2 then .container else .stuff)
  else if w = 2 then (if act = 1 then .stuff else .container)
  else .container

/-- The container words of a frame (R112). -/
def containerArea (act : Nat) : List Nat := (List.range 1020).filter fun w => decide (slotWord act w = .container)

/-- The first container word of a frame, and their number: 1,017 in an increment frame, 1,019 in a decrement frame, 1,018
in any other (R112). -/
def areaStart (act : Nat) : Nat := if act = 1 then 3 else if act = 2 then 1 else 2
def areaLen (act : Nat) : Nat := 1020 - areaStart act

/-- The container area of a frame's slot words. -/
def areaOf {α : Type} (act : Nat) (ws : List α) : List α := (ws.take 1020).drop (areaStart act)

/-- The slot words at which a row starts in a frame (R125). -/
def rowStarts (act p : Nat) : List Nat :=
  if act = 1 then (if 3 + p ≤ 1019 then [3 + p] else [])
  else if act = 2 then (if p = 0 then [1, 1019] else [1 + p])
  else [2 + p]

/-- P from the next frame on (R125). -/
def nextPtr (act p : Nat) : Nat :=
  if act = 1 then (p + 1) % 1018 else if act = 2 then (p + 1017) % 1018 else p

/-- The pointer word: three copies of ACT and P, then zeros (Table 04.5). -/
def ptrWord (act p : Nat) : List Nat :=
  let c := [64 * act, 0] ++ beBytes 2 p
  c ++ c ++ c ++ [0, 0, 0, 0]

/-- The slot words of a frame: the pointer word, the stuffing opportunities as 0x00 where they carry no container word, and
the container area (Table 04.2). -/
def slotFrame (act p : Nat) (area : List Nat) : List Nat :=
  beNat (ptrWord act p) :: (List.replicate (areaStart act - 1) 0 ++ area)

/-- A slot that no enabled tributary uses (R112). -/
def unusedSlot : List Nat := List.replicate 1020 0

/-! ## Container rows (Tables 04.3 and 04.4) -/

/-- The row word of data word d; data word 971 is the justification word (R113). -/
def dataRowWord (d : Nat) : Nat := 10 + 28 * (d / 27) + d % 27

/-- The row word of the tag word of strip k (Table 04.3). -/
def tagRowWord (k : Nat) : Nat := 37 + 28 * k

/-- The container overhead of a row (Table 04.4), with its CRC. -/
def cohBytes (trib slot size jc flags cfc pbip prei ctl : Nat) (tmc : List Nat) : List Nat :=
  withCrc ([8 * trib + slot, 64 * size, jc, jc, jc, flags, flags, flags] ++ beBytes 8 cfc ++ beBytes 2 pbip ++
    [prei, ctl] ++ padTo 48 tmc ++ List.replicate 88 0)

/-- JC of slot index i from the total of a k-slot side (R123). -/
def slotJc (k jc i : Nat) : Nat := jc / k + b2n (decide (i < jc % k))

/-- The path BIP-16 of a row: over its row words 10 to 1,017 as sent before lane scrambling (R115). -/
def rowPbip (row : List Nat) : Nat := bip16 (wordsBits (row.drop 10))

/-- A row: its overhead words, then each strip of 27 data words and its tag word (R113). -/
def rowWords (coh data tags : List Nat) : List Nat :=
  wordsOf 10 coh ++ (List.range 36).flatMap fun j => bytesAt data (27 * j) 27 ++ [tags.getD j 0]

/-- The data words of a row, and its tag words. -/
def rowData {α : Type} (d : α) (row : List α) : List α := (List.range 972).map fun i => row.getD (dataRowWord i) d
def rowTags {α : Type} (d : α) (row : List α) : List α := (List.range 36).map fun j => row.getD (tagRowWord j) d

/-- The words of an AIS row (R131). -/
def aisRow (coh : List Nat) : List Nat := wordsOf 10 coh ++ List.replicate 1008 onesWord

/-! ## The side sequence (R122, R145) -/

/-- Position of data word d of slot s in the side sequence of a k-slot side (R145). -/
def sidePos (k s d : Nat) : Nat := if d < 971 then d * k + s else 971 * k + s

/-- The slot and the data word at a position of the side sequence: the order of the stream bits (R122). -/
def sideWord (k q : Nat) : Nat × Nat := if q < 971 * k then (q % k, q / k) else (q - 971 * k, 971)

/-- Stream bits that the word at a position carries: 128, or the JC of its slot (R122). -/
def streamBits (k : Nat) (jcs : List Nat) (q : Nat) : Nat :=
  if q < 971 * k then 128 else jcs.getD (q - 971 * k) 0

/-- The justification words: the first JC bits of each are stream bits, the rest 0 (R122, R146). -/
def justWords : List Nat → List Bool → List Nat
  | [], _ => []
  | j :: r, bits => bitsWord (bits.take j) :: justWords r (bits.drop j)

/-- The words of the side sequence that carry stream bits: the fixed data words, then the justification words (R122). -/
def sideWords (k : Nat) (jcs : List Nat) (bits : List Bool) : List Nat :=
  bitsWords (971 * k) bits ++ justWords jcs (bits.drop (124288 * k))

/-- The data words of one slot of a side sequence. -/
def slotData (k s : Nat) (seq : List Nat) : List Nat := (List.range 972).map fun d => seq.getD (sidePos k s d) 0

/-- The side sequence of the data words of the slots of a frame. -/
def sideSeq {α : Type} (d : α) (k : Nat) (data : List (List α)) : List α :=
  (List.range (972 * k)).map fun q => (data.getD (sideWord k q).1 []).getD (sideWord k q).2 d

/-- The stream bits of a run of the side sequence from position `q` on (R122). -/
def seqBits (k : Nat) (jcs : List Nat) (q : Nat) (ws : List Nat) : List Bool :=
  ws.zipIdx.flatMap fun p => (wordBits p.1).take (streamBits k jcs (q + p.2))

/-! ## Spans (R147–R150) -/

/-- Index of a data word within its container multiframe (R147). -/
def multiframeIndex (k cfc q : Nat) : Nat := cfc % 256 * (972 * k) + q

/-- A span: the index of its first data word, and the index after its last (R147). -/
def spanBounds (k n i : Nat) : Nat × Nat := (i * (64 * n), min ((i + 1) * (64 * n)) (248832 * k))

/-- Spans of a container multiframe. -/
def spanCount (k n : Nat) : Nat := (248832 * k + 64 * n - 1) / (64 * n)

/-- The CFC of the row with a span's first data word, and that word's position: what identifies the span (R148); `base`
is the CFC of the first row of its container multiframe. -/
def spanId (k n base i : Nat) : Nat × Nat :=
  ((base + (spanBounds k n i).1 / (972 * k)) % 2 ^ 64, (spanBounds k n i).1 % (972 * k))

/-- The IV of a span: the salt XOR (CFC0 ‖ q0) (Table 05.1). -/
def spanIv (salt cfc0 q0 : Nat) : Nat := salt ^^^ (cfc0 % 2 ^ 64 * 2 ^ 32 + q0 % 2 ^ 32)

/-- The associated data of a span (Table 05.2); `jcs` are the JC sent for its justification words, in order.
DEDUCED: notes/assumptions/100.md. -/
def spanAad (trib size n epoch cfc0 q0 words : Nat) (jcs : List Nat) : List Nat :=
  [8 * trib, 64 * size, n, 0] ++ beBytes 4 epoch ++ beBytes 8 cfc0 ++ beBytes 2 q0 ++ beBytes 2 words ++
    beBytes 2 jcs.length ++ List.replicate 10 0 ++ jcs

/-- The strip of the data word with an index in its multiframe. -/
def stripOf (k w : Nat) : Nat := (sideWord k (w % (972 * k))).2 / 27

/-- The tag word of a span (R149): the strip of its last data word, and the lowest slot index whose tag word in that
strip no earlier span has taken. -/
def tagPlace (k n i : Nat) : Nat × Nat :=
  let last := (spanBounds k n i).2 - 1
  let earlier := (List.range (min i 4)).filter fun e =>
    let l := (spanBounds k n (i - 1 - e)).2 - 1
    decide (l / (972 * k) = last / (972 * k)) && decide (stripOf k l = stripOf k last)
  (stripOf k last, earlier.length)

/-- The tag words of a slot in a row: 16 bytes of 0x00 where no span's tag is placed (R150). -/
def tagWords (placed : List ((Nat × Nat) × Nat)) (slot : Nat) : List Nat :=
  (List.range 36).map fun j => ((placed.find? fun p => decide (p.1 = (j, slot))).map (·.2)).getD 0

/-- A span's share of the rows of one frame: its number in its multiframe, the positions from `lo` to `hi` of the side
sequence, whether it begins there and whether it ends there. -/
structure SpanPart where
  i      : Nat
  lo     : Nat
  hi     : Nat
  begins : Bool
  ends   : Bool
deriving DecidableEq, Repr

/-- The spans of the rows of a frame, in order (R147). -/
def spanParts (k n cfc : Nat) : List SpanPart :=
  let l := 64 * n
  let w := multiframeIndex k cfc 0
  let e := w + 972 * k
  (List.range ((e - 1) / l + 1 - w / l)).map fun j =>
    let i := w / l + j
    let b := spanBounds k n i
    { i, lo := max b.1 w - w, hi := min b.2 e - w, begins := decide (w ≤ b.1), ends := decide (b.2 ≤ e) }

/-- A run of a list. -/
def slice {α : Type} (l : List α) (lo hi : Nat) : List α := (l.take hi).drop lo

/-- The JC of the justification words among the positions from `lo` to `hi` of a side sequence (Table 05.2). -/
def partJcs (k : Nat) (jcs : List Nat) (lo hi : Nat) : List Nat := slice jcs (lo - 971 * k) (hi - 971 * k)

end Sys2Proof.Machine
end

