-- ==== Sys2Proof/Machine/Operands.lean ====
section
/-! DEFINITION. Operand forms: the fields of key handles (R15), ports on lanes (R47), and the set-up registers by
the names of the chapters that own them. -/

namespace Sys2Proof.Machine

open Sys2Proof

/-! ## Handles (R15) -/

/-- Landing of a handle. -/
def hLanding (h : Nat) : Nat := h / 0x20000000 % 8
/-- Key domain of a handle. -/
def hDomain (h : Nat) : Nat := h / 0x2000000 % 16
/-- Index of a handle. -/
def hIndex (h : Nat) : Nat := h % 0x2000000
/-- A handle. -/
def mkHandle (landing domain index : Nat) : Nat := landing * 0x20000000 + domain * 0x2000000 + index

/-- The function serves the key domain: the PF every domain, VFk domain k (R475). -/
def serves (fn domain : Nat) : Bool := decide (fn = 0 ∨ fn = domain)

/-! ## LNE (02) -/

/-- Cage Ln (n = k + 1) is in causeway mode. -/
def Image.cageCwy (im : Image) (k : Nat) : Bool := bit (im.reg 0 0x200000) k
/-- Lanes of each port of a cage, 0–3 for C1–C4 and 4–7 for L1–L4 (R47). -/
def Image.portWidth (im : Image) (cage : Nat) : Nat := 2 ^ bits (im.reg 0 0x200008) (2 * cage + 1) (2 * cage)
/-- Client lane n is in causeway mode (R48). -/
def Image.clientCwy (im : Image) (n : Nat) : Bool := bit (im.reg 0 0x20000C) n
/-- Number n names a client logical port. -/
def Image.isClientPort (im : Image) (n : Nat) : Bool := decide (n < 32 ∧ n % im.portWidth (n / 8) = 0)
/-- Number m names a line logical port. -/
def Image.isLinePort (im : Image) (m : Nat) : Bool := decide (m < 32 ∧ m % im.portWidth (4 + m / 8) = 0)
/-- A client logical port in packet mode. -/
def Image.pktClient (im : Image) (n : Nat) : Bool := im.isClientPort n && !im.clientCwy n
/-- A line logical port of a packet-mode cage. -/
def Image.pktLine (im : Image) (m : Nat) : Bool := im.isLinePort m && !im.cageCwy (m / 8)
/-- `LNE_LANE_CFG[n].PWR` as written. -/
def Image.lanePwr (im : Image) (n : Nat) : Nat := bits (im.reg 0 (0x201000 + 0x10 * n)) 1 0
/-- `LNE_LANE_CFG[n].PATTERN`. -/
def Image.lanePattern (im : Image) (n : Nat) : Nat := bits (im.reg 0 (0x201000 + 0x10 * n)) 5 4
/-- `LNE_RX_EQ[n]`: CTLE_AUTO and CTLE_STEP. -/
def Image.ctleAuto (im : Image) (n : Nat) : Bool := bit (im.reg 0 (0x201004 + 0x10 * n)) 8
def Image.ctleStep (im : Image) (n : Nat) : Nat := bits (im.reg 0 (0x201004 + 0x10 * n)) 5 0
/-- Rate of a port in units of 200 Gb/s. -/
def Image.portLanes (im : Image) (client : Bool) (p : Nat) : Nat :=
  im.portWidth (if client then p / 8 else 4 + p / 8)

/-! ## CWY (03) -/

def Image.confirmN (im : Image) : Nat := bits (im.reg 0 0x300000) 3 0
def Image.lossM (im : Image) : Nat := bits (im.reg 0 0x300000) 11 8
/-- SLACK in ns. -/
def Image.slackNs (im : Image) : Nat := 64 * bits (im.reg 0 0x300004) 23 16
def Image.deskewBuffers (im : Image) : Nat := bits (im.reg 0 0x300004) 10 0
def Image.groupEn (im : Image) (g : Nat) : Bool := bit (im.reg 0 (0x300100 + 0x10 * g)) 31
def Image.groupDegExp (im : Image) (g : Nat) : Nat := bits (im.reg 0 (0x300100 + 0x10 * g)) 11 8
def Image.groupMask (im : Image) (g : Nat) : Word := im.reg 0 (0x300104 + 0x10 * g)
/-- The line lanes of a group, ascending. -/
def Image.groupLanes (im : Image) (g : Nat) : List Nat := (List.range 32).filter fun k => bit (im.groupMask g) k
/-- The enabled group that a line lane belongs to. -/
def Image.laneGroup (im : Image) (k : Nat) : Option Nat :=
  (List.range 16).find? fun g => im.groupEn g && bit (im.groupMask g) k
/-- LPOS of a lane in its group: its rank (R78). -/
def Image.laneLpos (im : Image) (g k : Nat) : Nat := ((im.groupLanes g).filter (· < k)).length

/-! ## TRB and L1C (04, 05) -/

def tribCfgOff (t : Nat) : Nat := 0x400000 + 0x100 * t
def Image.tribEn (im : Image) (t : Nat) : Bool := bit (im.reg 0 (tribCfgOff t)) 31
/-- Pass-through tributary (R107, R140). -/
def Image.tribPass (im : Image) (t : Nat) : Bool := bit (im.reg 0 (tribCfgOff t)) 30
def Image.tribSize (im : Image) (t : Nat) : Nat := bits (im.reg 0 (tribCfgOff t)) 29 28
/-- Slots k of a tributary (Table 04.1). -/
def Image.tribSlots (im : Image) (t : Nat) : Nat := 2 ^ im.tribSize t
/-- The alternate set of a side is configured. -/
def Image.tribAlt (im : Image) (t : Nat) (s : Side) : Bool :=
  bit (im.reg 0 (tribCfgOff t)) (match s with | .A => 27 | .B => 26)
def Image.pdegExp (im : Image) (t : Nat) : Nat := bits (im.reg 0 (tribCfgOff t)) 11 8
/-- `TRB_SLOT[t][k]`: group and LPOS. -/
def Image.slotCfg (im : Image) (t k : Nat) : Nat × Nat :=
  let w := im.reg 0 (0x400080 + 0x100 * t + 4 * k)
  (bits w 3 0, bits w 8 4)
/-- The slots of a set of a side, in slot index order (R118). -/
def Image.setSlots (im : Image) (t : Nat) (s : Side) (alt : Bool) : List (Nat × Nat) :=
  (List.range (im.tribSlots t)).map fun i => im.slotCfg t (16 * s.idx + (if alt then 8 else 0) + i)
/-- The set in use on a side (R118). -/
def Image.altInUse (im : Image) (t : Nat) (s : Side) : Bool := tabGet false im.alt (2 * t + s.idx)
/-- The slots in use on a side. -/
def Image.slotsInUse (im : Image) (t : Nat) (s : Side) : List (Nat × Nat) := im.setSlots t s (im.altInUse t s)
/-- The sides of a tributary (R118). -/
def Image.tribSides (im : Image) (t : Nat) : List Side := if im.tribPass t then [.A, .B] else [.A]
/-- An enabled terminating tributary. -/
def Image.termTrib (im : Image) (t : Nat) : Bool := decide (t < 32) && im.tribEn t && !im.tribPass t

def l1cOff (t : Nat) : Nat := 0x500000 + 0x20 * t
def Image.verifyFirst (im : Image) (t : Nat) : Bool := bit (im.reg 0 (l1cOff t)) 31
def Image.tribDomain (im : Image) (t : Nat) : Nat := bits (im.reg 0 (l1cOff t)) 27 24
def Image.spanKib (im : Image) (t : Nat) : Nat := bits (im.reg 0 (l1cOff t)) 22 16
def Image.acfN (im : Image) (t : Nat) : Nat := bits (im.reg 0 (l1cOff t)) 11 8
def Image.confirmTo (im : Image) (t : Nat) : Nat := bits (im.reg 0 (l1cOff t)) 7 0

/-! ## PKT, CLS, HAL (06, 07, 08) -/

def pktOff (p : Nat) : Nat := 0x600000 + 0x10 * p
def Image.portEn (im : Image) (p : Nat) : Bool := bit (im.reg 0 (pktOff p)) 31
/-- validateFrames is Strict. -/
def Image.portStrict (im : Image) (p : Nat) : Bool := bit (im.reg 0 (pktOff p)) 30
def Image.portVerifyFirst (im : Image) (p : Nat) : Bool := bit (im.reg 0 (pktOff p)) 29
def Image.preemptEn (im : Image) (p : Nat) : Bool := bit (im.reg 0 (pktOff p)) 28
def Image.addFrag (im : Image) (p : Nat) : Nat := bits (im.reg 0 (pktOff p)) 27 26
def Image.portClearTags (im : Image) (p : Nat) : Nat := bits (im.reg 0 (pktOff p)) 25 24
def Image.maxFrame (im : Image) (p : Nat) : Nat := bits (im.reg 0 (pktOff p)) 14 0
def Image.thresh32 (im : Image) : Nat := (im.reg 0 0x600208).toNat
/-- The longest hold, in ns (R193). -/
def Image.holdNs (im : Image) : Nat := (bits (im.reg 0 0x600300) 31 28 + 1) * 500
def Image.maxLoads (im : Image) : Nat := bits (im.reg 0 0x600300) 24 16
def Image.holdCells (im : Image) : Nat := bits (im.reg 0 0x600300) 14 0
def Image.portTpid (im : Image) (p : Nat) : Nat := bits (im.reg 0 (0x700000 + 4 * p)) 17 16
def Image.portPvid (im : Image) (p : Nat) : Nat := bits (im.reg 0 (0x700000 + 4 * p)) 11 0
/-- `CLS_AGE_CFG.SWEEP_S`. -/
def Image.sweepS (im : Image) : Nat := bits (im.reg 0 0x700100) 11 0
def Image.stnAgeS (im : Image) : Nat := bits (im.reg 0 0x700100) 27 16
def Image.learnEn (im : Image) : Bool := bit (im.reg 0 0x700104) 31
def Image.learnEvt (im : Image) : Bool := bit (im.reg 0 0x700104) 30
def Image.moveTb (im : Image) : Nat := bits (im.reg 0 0x700104) 9 8
def Image.moorS (im : Image) : Nat := bits (im.reg 0 0x700104) 7 0
def Image.ctrlCells (im : Image) : Nat := bits (im.reg 0 0x800000) 14 0
def queueOff (q : Nat) : Nat := 0x801000 + 4 * q
def Image.queueMax (im : Image) (q : Nat) : Nat := bits (im.reg 0 (queueOff q)) 31 14
def Image.queueReserve (im : Image) (q : Nat) : Nat := bits (im.reg 0 (queueOff q)) 13 0
/-- Cells of the frame pool (R236). -/
def Image.framePool (im : Image) : Nat := 262144 - 64 * im.deskewBuffers - im.ctrlCells
/-- The sum of RESERVE over the queues. -/
def Image.reserveSum (im : Image) : Nat := ((List.range 512).map im.queueReserve).sum
/-- The shared pool S (R238), as an integer: R240 keeps it from being negative. -/
def Image.sharedPool (im : Image) : Int := (im.framePool : Int) - 8192 - im.reserveSum

/-! ## KEY (09) -/

def Image.graceS (im : Image) (d : Nat) : Nat := bits (im.reg 0 (0x900000 + 0x10 * d)) 29 24
def Image.sakQuota (im : Image) (d : Nat) : Nat := 1024 * bits (im.reg 0 (0x900000 + 0x10 * d)) 10 0
/-- A key register entry; FREE where none is listed. -/
def Image.key (im : Image) (h : Nat) : KeyEnt := tabGet {} im.keys h
/-- The image with a key register entry set. -/
def Image.setKey (im : Image) (h : Nat) (e : KeyEnt) : Image := { im with keys := tabSet {} im.keys h e }

/-! ## SAs and SCs (06) -/

/-- The SC of a direction. -/
def Image.sc (im : Image) (d : Dir) (i : Nat) : Sc :=
  match d with | .tx => tabGet {} im.scTx i | .rx => tabGet {} im.scRx i
/-- The image with an SC set. -/
def Image.setSc (im : Image) (d : Dir) (i : Nat) (c : Sc) : Image :=
  match d with
  | .tx => { im with scTx := tabSet {} im.scTx i c }
  | .rx => { im with scRx := tabSet {} im.scRx i c }
/-- The SA under an SC and AN. -/
def Image.sa (im : Image) (d : Dir) (sc an : Nat) : Sa :=
  match d with | .tx => tabGet {} im.saTx (4 * sc + an) | .rx => tabGet {} im.saRx (4 * sc + an)
/-- The image with an SA set. -/
def Image.setSa (im : Image) (d : Dir) (sc an : Nat) (a : Sa) : Image :=
  match d with
  | .tx => { im with saTx := tabSet {} im.saTx (4 * sc + an) a }
  | .rx => { im with saRx := tabSet {} im.saRx (4 * sc + an) a }
/-- SCs of a direction (Table 06.1). -/
def scCount : Dir → Nat
  | .tx => 4096
  | .rx => 8192
/-- XPN suites of Table 06.1. -/
def suiteXpn : Suite → Bool
  | .xpn128 | .xpn256 => true
  | _ => false
/-- Suites with a 256-bit key. -/
def suite256 : Suite → Bool
  | .gcm256 | .xpn256 => true
  | _ => false

/-! ## Associations (05) -/

def Image.txA (im : Image) (t : Nat) : TxAssoc := tabGet {} im.tx t
def Image.setTx (im : Image) (t : Nat) (a : TxAssoc) : Image := { im with tx := tabSet {} im.tx t a }
def Image.rxA (im : Image) (t : Nat) : RxAssoc := tabGet {} im.rx t
def Image.setRx (im : Image) (t : Nat) (a : RxAssoc) : Image := { im with rx := tabSet {} im.rx t a }

end Sys2Proof.Machine
end

