-- ==== Sys2Proof/Machine/Flags.lean ====
section
/-! DEFINITION. Defects and other flags computed from the state: lanes and groups (Table 03.8, R97, R98), tributary
sides (Table 04.9, R135), deskew sets (R97–R99, R120), keys (R290), and the posting of their changes. -/

namespace Sys2Proof.Machine

open Sys2Proof

/-- One of the parts of a half by index. -/
def HState.lane (x : HState) (n : Nat) : LaneSt := tabGet {} x.lanes n
def HState.rxLane (x : HState) (k : Nat) : RxLane := tabGet {} x.rxLanes k
def HState.grp (x : HState) (g : Nat) : Grp := tabGet {} x.grps g
def HState.side (x : HState) (t : Nat) (s : Side) : SideSt := tabGet {} x.sides (2 * t + s.idx)
def HState.trib (x : HState) (t : Nat) : TribSt := tabGet {} x.tribs t
def HState.setLane (x : HState) (n : Nat) (l : LaneSt) : HState := { x with lanes := tabSet {} x.lanes n l }
def HState.setRxLane (x : HState) (k : Nat) (l : RxLane) : HState := { x with rxLanes := tabSet {} x.rxLanes k l }
def HState.setGrp (x : HState) (g : Nat) (v : Grp) : HState := { x with grps := tabSet {} x.grps g v }
def HState.setSide (x : HState) (t : Nat) (s : Side) (v : SideSt) : HState :=
  { x with sides := tabSet {} x.sides (2 * t + s.idx) v }
def HState.setTrib (x : HState) (t : Nat) (v : TribSt) : HState := { x with tribs := tabSet {} x.tribs t v }

/-! ## Lanes and groups (03) -/

/-- LOS of a line lane (Table 03.8): signal detect or clock lock lost. -/
def HState.los (x : HState) (k : Nat) : Bool := !((x.lane (32 + k)).signal && (x.lane (32 + k)).lock)

/-- The lane counts in its group as the receiver finds it (R97), LOD apart: in SYNC, LPOS and GID accepted, no
LID, and no GSM on its group. -/
def HState.admissible (x : HState) (g k : Nat) : Bool :=
  let l := x.rxLane k
  !x.los k && l.sync && l.lpos.isSome && l.gid.isSome && !l.lid && !(x.grp g).gsm

/-- The lane is admitted to its set (R97). -/
def HState.admitted (x : HState) (g k : Nat) : Bool := x.admissible g k && !(x.rxLane k).lod

/-- The LID condition of R79 on lane `k` of enabled group `g`. -/
def HState.lidCond (x : HState) (g k : Nat) : Bool :=
  let l := x.rxLane k
  let lanes := x.img.groupLanes g
  l.evenNone || l.oddNone || (match l.gid with | some v => decide (v ≠ g) | none => false) ||
    (match l.lpos with
     | some p => decide (lanes.length ≤ p) ||
         lanes.any fun j => decide (j ≠ k) && decide ((x.rxLane j).lpos = some p)
     | none => false)

/-- Defects of a lane under their masks (R102): bit 0 LID, 1 LOD, 2 DEG, 3 RDI_RX, 4 RDEG_RX. -/
def HState.laneShown (x : HState) (k : Nat) : Nat :=
  let l := x.rxLane k
  if x.los k then 0
  else
    let far := 8 * b2n l.rdi.on + 16 * b2n l.rdeg.on
    if !l.sync then far
    else if l.lid then 1 + far
    else 2 * b2n l.lod + 4 * b2n l.deg + far

/-- The groups with a slot in use on a side. -/
def Image.sideGroups (im : Image) (t : Nat) (s : Side) : List Nat := ((im.slotsInUse t s).map (·.1)).eraseDups

/-- All enabled tributary sides. -/
def Image.allSides (im : Image) : List (Nat × Side) :=
  ((List.range 32).filter im.tribEn).flatMap fun t => (im.tribSides t).map fun s => (t, s)

/-- Groups joined with `gs` through a side that uses one of them. -/
def Image.joinGroups (im : Image) (gs : List Nat) : List Nat :=
  (im.allSides.foldl (fun acc ts =>
    let sg := im.sideGroups ts.1 ts.2
    if sg.any fun g => acc.contains g then acc ++ sg else acc) gs).eraseDups

/-- The groups of a deskew set (R97, R120): the closure of joining, at most 16 groups. -/
def Image.deskewSet (im : Image) (g : Nat) : List Nat :=
  (List.range 16).foldl (fun gs _ => im.joinGroups gs) [g]

/-- The lanes of a deskew set with their groups. -/
def Image.setLanes (im : Image) (g : Nat) : List (Nat × Nat) :=
  ((im.deskewSet g).filter im.groupEn).flatMap fun g' => (im.groupLanes g').map fun k => (g', k)

/-- Buffers of an admitted lane by its advance in ns (R98), at 619.286 ns a frame period. -/
def lanBuffers (adv : Int) : Nat := (adv.toNat * 1000 + 619285) / 619286 + 2

/-- Buffers in use by the admitted lanes of all enabled groups. -/
def HState.buffersUsed (x : HState) : Nat :=
  (((List.range 16).filter x.img.groupEn).map fun g =>
    (((x.img.groupLanes g).filter (x.admitted g)).map fun k => lanBuffers (x.rxLane k).advance).sum).sum

/-- The admitted lanes of a set are feasible (R98). -/
def HState.feasible (x : HState) (g : Nat) : Bool :=
  (((x.img.setLanes g).filter fun p => x.admitted p.1 p.2).all fun p =>
    decide (-(x.img.slackNs : Int) ≤ (x.rxLane p.2).advance) && decide ((x.rxLane p.2).advance ≤ 32768)) &&
  decide (x.buffersUsed ≤ x.img.deskewBuffers)

/-- The latest-arriving admitted lane of a set: the least advance, the higher lane index among equals (R99). -/
def HState.latest (x : HState) (g : Nat) : Option Nat :=
  ((x.img.setLanes g).filter fun p => x.admitted p.1 p.2).foldl (fun m p =>
    match m with
    | none => some p.2
    | some j =>
      if (x.rxLane p.2).advance < (x.rxLane j).advance ∨
         ((x.rxLane p.2).advance = (x.rxLane j).advance ∧ j < p.2) then some p.2 else some j) none

/-- Exclude lanes one at a time, latest-arriving first, until the set is feasible (R99, step 3). -/
def HState.exclude (g : Nat) : Nat → HState → HState
  | 0, x => x
  | n + 1, x =>
    if x.feasible g then x
    else match x.latest g with
      | some k => HState.exclude g n (x.setRxLane k { x.rxLane k with lod := true })
      | none => x

/-- Shift the advances of a set's lanes, so that the reference lane's is 0. -/
def HState.shiftAdv (x : HState) (g : Nat) (by_ : Int) : HState :=
  (x.img.setLanes g).foldl (fun x p =>
    x.setRxLane p.2 { x.rxLane p.2 with advance := (x.rxLane p.2).advance - by_ }) x

/-- Set the reference lane of every group of a set; `move` marks a retime (R100). -/
def HState.setRef (x : HState) (g : Nat) (k : Nat) (move : Bool) : HState :=
  (x.img.deskewSet g).foldl (fun x g' =>
    x.setGrp g' { x.grp g' with ref := some k, retiming := move || (x.grp g').retiming }) x

/-- Tenths of a nanosecond in units of 2^−16 ns. -/
def tenths (n : Nat) : Nat := n * 65536 / 10

/-- The authentication span time T_A of a tributary (R155), in units of 2^−16 ns: 0.6371 ns × L / k + 17.0 ns, with
0.6371 ns = 619.286 ns / 972 and L = 64 words per KiB. -/
def Image.spanTime (im : Image) (t : Nat) : Nat :=
  619286 * 64 * im.spanKib t * 65536 / (972 * 1000 * im.tribSlots t) + tenths 170

/-- Published latencies of an enabled tributary (R382, R383), transmit and receive, in units of 2^−16 ns; a hub's two
directions are equal. -/
def Image.latency (im : Image) (t : Nat) : Nat × Nat :=
  let slack := im.slackNs * 65536
  if im.tribPass t then (tenths (881 + 80 + 190 + 207) + slack, tenths (881 + 80 + 190 + 207) + slack)
  else
    (tenths (1024 + 215 + 207) + (if im.tribSlots t = 1 then 0 else Config.clientSkew t),
     tenths (881 + 80 + 200 + 102 + 282) + slack + (if im.verifyFirst t then im.spanTime t else 0))

/-- Two latencies differ by more than 1 ns. DEDUCED: notes/assumptions/65.md. -/
def latDiffers (a b : Nat) : Bool := decide (a + 65536 < b ∨ b + 65536 < a)

/-- Post LATENCY_CHANGED for every tributary whose published value has changed by more than 1 ns (R384): tributary;
transmit and receive latency; cause: retime 0, reference lane 1, switch 2, client skew 3. DEDUCED:
notes/assumptions/65.md. -/
def State.noteLatency (s : State) (h : Half) (cause : Nat) : State :=
  ((List.range 32).filter (s.img h).tribEn).foldl (fun s t =>
    let v := (s.img h).latency t
    let set : State := s.modImg h fun im => { im with pubLat := tabSet none im.pubLat t (some v) }
    match tabGet none (s.img h).pubLat t with
    | none => set
    | some o =>
      if latDiffers o.1 v.1 || latDiffers o.2 v.2 then
        if s.isActive h then
          set.post h .cores 0x0304 [(1, t), (8, v.1), (8, v.2), (1, cause)] (.dom ((s.img h).tribDomain t))
        else set
      else s) s

/-- Rebuild a deskew set (R99); `scratch` is a write of RETIME.  A first release point is set without a move. -/
def State.rebuildSet (s : State) (h : Half) (g : Nat) (scratch : Bool) : State :=
  let x := s.half h
  -- step 1: all admissible lanes of the set
  let x := (x.img.setLanes g).foldl (fun x p =>
    x.setRxLane p.2 { x.rxLane p.2 with lod := false }) x
  -- step 2: the release point
  match x.latest g with
  | none => s.setHalf h x
  | some k =>
    let adv := (x.rxLane k).advance
    let first := (x.grp g).ref.isNone
    let move := first || (scratch && decide (adv ≠ 0)) || decide (adv < -(x.img.slackNs : Int))
    let x' := if move then (x.shiftAdv g adv).setRef g k (!first) else x
    -- step 3
    let s := s.setHalf h (HState.exclude g 32 x')
    if move && !first then
      (s.post h .level 0x0A04 [(1, h.idx), (2, ((x.img.deskewSet g).map (2 ^ ·)).sum), (1, k),
        (8, ((-adv) % 2 ^ 64).toNat)]).noteLatency h 0
    else s

/-! ## Tributary sides (04) -/

/-- One slot of a side. -/
def SideSt.slot (v : SideSt) (i : Nat) : SlotRx := tabGet {} v.slots i

/-- The slot (group, LPOS) is failed (R104): no admitted lane of an enabled group carries it, or its set is in
a retime (R100). -/
def HState.slotFailed (x : HState) (g p : Nat) : Bool :=
  !x.img.groupEn g || (x.grp g).retiming ||
    !((x.img.groupLanes g).any fun k => x.admitted g k && decide ((x.rxLane k).lpos = some p))

/-- SLOT_FAIL of a side. -/
def HState.slotFail (x : HState) (t : Nat) (s : Side) : Bool :=
  (x.img.slotsInUse t s).any fun gp => x.slotFailed gp.1 gp.2

/-- LOP on any slot of the set in use. -/
def HState.sideLop (x : HState) (t : Nat) (s : Side) : Bool :=
  (List.range (x.img.tribSlots t)).any fun i => !((x.side t s).slot i).norm

/-- TMM on any slot of the set in use. DEDUCED: notes/assumptions/47.md. -/
def HState.sideTmm (x : HState) (t : Nat) (s : Side) : Bool :=
  (List.range (x.img.tribSlots t)).any fun i =>
    ((x.side t s).slot i).tmmRow.on || ((x.side t s).slot i).tmmMap.on

/-- LOC on any slot of the set in use. -/
def HState.sideLoc (x : HState) (t : Nat) (s : Side) : Bool :=
  (List.range (x.img.tribSlots t)).any fun i => ((x.side t s).slot i).loc

/-- A side is failed by what it receives (R135) or by a forced receive AIS (R138). DEDUCED: notes/assumptions/42.md. -/
def HState.sideCut (x : HState) (t : Nat) (s : Side) : Bool :=
  x.slotFail t s || x.sideLop t s || x.sideLoc t s || x.sideTmm t s || (x.side t s).pmm ||
    decide (tabGet 0 x.img.forced (2 * t + 1) = 1)

/-- A side has a cause to be failed: under R135, or a cipher defect (R158) (R107). DESIGN CHOICE:
notes/assumptions/46.md. -/
def HState.sideCause (x : HState) (t : Nat) (s : Side) : Bool :=
  x.sideCut t s || (!x.img.tribPass t && ((x.trib t).nokey || (x.trib t).acf))

/-- A side is failed from its first cause until the first row that starts after the last one clears (R135). -/
def HState.sideFailed (x : HState) (t : Nat) (s : Side) : Bool := x.sideCause t s || (x.side t s).held

/-- A side with a cause stays failed until a row starts without one (R135). -/
def HState.holdSide (x : HState) (t : Nat) (s : Side) : HState :=
  if x.sideCause t s then x.setSide t s { x.side t s with held := true } else x

/-- Defect mask of Table 04.9 under its masks: bits 0 SLOT_FAIL, 1 LOP, 2 LOC, 3 TMM, 4 PMM, 5 CAIS, 6 CSF_RX,
7 PRDI_RX, 8 PDEG. -/
def HState.sideShown (x : HState) (t : Nat) (s : Side) : Nat :=
  let v := x.side t s
  if x.slotFail t s then 1
  else
    let pmm := 16 * b2n v.pmm
    if x.sideLop t s then 2
    else if x.sideLoc t s then 4 + pmm
    else if x.sideTmm t s then 8 + pmm
    else if v.cais.on then 32 + pmm
    else pmm + 64 * b2n v.csf.on + 128 * b2n v.prdi.on + 256 * b2n v.pdeg

/-- The other side of a tributary. -/
def otherSide : Side → Side
  | .A => .B
  | .B => .A

/-- A flag that moves after 3 consecutive rows that say otherwise. -/
def Flag3.see (f : Flag3) (v : Bool) : Flag3 :=
  if v = f.on then { f with run := 0 }
  else if f.run + 1 = 3 then { on := v, run := 0 } else { f with run := f.run + 1 }

/-! ## Posting changes (R102, R134, R158) -/

/-- Post the change of a lane's defects. -/
def State.noteLane (s : State) (h : Half) (k : Nat) : State :=
  let x := s.half h
  let v := x.laneShown k
  if v = (x.rxLane k).shown then s
  else (s.setHalf h (x.setRxLane k { x.rxLane k with shown := v })).postLevel h 0x0A02 k
    [(1, h.idx), (1, k), (1, v)]

/-- Post the change of a group's GSM. -/
def State.noteGrp (s : State) (h : Half) (g : Nat) : State :=
  let x := s.half h
  let v := (x.grp g).gsm
  if v = (x.grp g).shown then s
  else (s.setHalf h (x.setGrp g { x.grp g with shown := v })).postLevel h 0x0A03 g
    [(1, h.idx), (1, g), (1, b2n v), (2, x.buffersUsed),
     (4, (((x.img.groupLanes g).filter fun k => (x.rxLane k).lod).map (2 ^ ·)).sum)]

/-- Post the change of a side's defects; a failed side is held so (R135). -/
def State.noteSide (s : State) (h : Half) (t : Nat) (sd : Side) : State :=
  let s := s.modHalf h fun x => x.holdSide t sd
  let x := s.half h
  let v := x.sideShown t sd
  if v = (x.side t sd).shown then s
  else (s.setHalf h (x.setSide t sd { x.side t sd with shown := v })).postLevel h 0x0A05 (2 * t + sd.idx)
    [(1, h.idx), (1, t), (1, sd.idx), (2, v)] (.dom (x.img.tribDomain t))

/-- Post the change of a tributary's cipher defects; they fail its side (R135, R158). -/
def State.noteCipher (s : State) (h : Half) (t : Nat) : State :=
  let s := s.modHalf h fun x => if x.img.tribEn t then x.holdSide t .A else x
  let x := s.half h
  let v := b2n (x.trib t).nokey + 2 * b2n (x.trib t).acf
  if v = (x.trib t).shown then s
  else (s.setHalf h (x.setTrib t { x.trib t with shown := v })).postLevel h 0x0A0A t
    [(1, h.idx), (1, t), (1, v)] (.dom (x.img.tribDomain t))

/-- Post every change of a half's lane, group and side defects. DEDUCED: notes/assumptions/70.md. -/
def State.noteAll (s : State) (h : Half) : State :=
  let s := (List.range 32).foldl (fun s k => s.noteLane h k) s
  let s := (List.range 16).foldl (fun s g => s.noteGrp h g) s
  (s.img h).allSides.foldl (fun s ts => s.noteSide h ts.1 ts.2) s

/-! ## Programmable counters (17) -/

/-- A counter enabled for a happening (R505, R507): EN, MODE, EVENT, OBJECT. -/
def Ctr.counts (c : Ctr) (mode ev obj : Nat) : Bool :=
  bit c.cfg 31 && decide (bits c.cfg 29 28 = mode ∧ bits c.cfg 23 16 = ev ∧ bits c.cfg 9 0 = obj)

/-- Add to a counter (R508, R509): the value continues modulo 2^48, a wrap sets STICKY and, with INT_EN, posts
CNT_OVERFLOW to the PF and to the owner. -/
def State.ctrAdd (s : State) (h : Half) (i n : Nat) : State :=
  let c := tabGet {} (s.half h).ctrs i
  let v := c.val + n
  let c' : Ctr := { c with val := v % 2 ^ 48, sticky := c.sticky || decide (2 ^ 48 ≤ v) }
  let s := s.modHalf h fun x => { x with ctrs := tabSet {} x.ctrs i c' }
  if 2 ^ 48 ≤ v && bit c.cfg 30 then
    s.postLevel h 0x0601 i [(1, h.idx), (1, i), (1, bits c.cfg 27 24), (8, c'.val)] (.fn (bits c.cfg 27 24))
  else s

/-- Count `n` happenings on every counter in MODE 0 that selects them (R506, Table 17.1). -/
def State.happen (s : State) (h : Half) (ev obj n : Nat) : State :=
  (s.half h).ctrs.foldl (fun s p => if p.2.counts 0 ev obj then s.ctrAdd h p.1 n else s) s

end Sys2Proof.Machine
end

