-- ==== Sys2Proof/Machine/BoardOps.lean ====
section
/-! DEFINITION. Shared operations of the board controller (18): cages, its events, the sideband. -/

namespace Sys2Proof.Machine

open Sys2Proof

/-- A cage: 0–3 for C1–C4, 4–7 for L1–L4. -/
def State.cage (s : State) (c : Nat) : Cage := tabGet {} s.board.cages c

/-- The state with a cage set. -/
def State.setCage (s : State) (c : Nat) (v : Cage) : State :=
  { s with board := { s.board with cages := tabSet {} s.board.cages c v } }

/-- The state with the board controller changed. -/
def State.modBoard (s : State) (f : Board → Board) : State := { s with board := f s.board }

/-- The state with the tamper controller changed. -/
def State.modTam (s : State) (f : Tamper → Tamper) : State := { s with tam := f s.tam }

/-- A status that a sideband page shows has changed: MGMT_ALERT# goes low (Table 18.4). -/
def State.alerted (s : State) : State := s.modBoard fun b => { b with alert := true }

/-- An event of the board controller, posted by the half that holds the helm. -/
def State.boardEv (s : State) (code key : Nat) (payload : List Fld) : State :=
  match s.holder with
  | some x => s.alerted.postLevel x code key payload
  | none => s.alerted

/-- Post CAGE_STATE: cage; present; powered; fault; power drawn. DEDUCED: notes/assumptions/85.md. -/
def State.postCage (s : State) (c : Nat) : State :=
  let v := s.cage c
  s.boardEv 0x0D12 c [(1, c), (1, b2n v.present), (1, b2n v.powered), (1, b2n v.fault), (1, v.powerQ)]

/-- A cage is powered while POWER_EN is 1, an optical module is present and no fault holds it off (R523). DEDUCED:
notes/assumptions/85.md. -/
def State.cagePower (s : State) (c : Nat) : State :=
  let v := s.cage c
  let on := bit (s.modReg (0x1100100 + 8 * c)) 31 && v.present && !v.fault && decide (s.board.power = .on)
  s.setCage c (if on then { v with powered := true } else { v with powered := false, ready := false, powerQ := 0 })

/-- Effects of a write that the tamper or board controller took: POWER_EN powers and unpowers a cage, and its
return to 1 clears a fault (R523); the fans' duty is at least MIN_PCT (R535). DESIGN CHOICE: notes/assumptions/95.md. -/
def State.modEffect (s : State) (base off : Nat) (old new : Word) : State :=
  match base with
  | 0x1100100 =>
    let c := (off - base) / 8
    let s := if bit new 31 && !bit old 31 then s.setCage c { s.cage c with fault := false } else s
    s.cagePower c
  | 0x1100010 => s.modBoard fun b => { b with duty := max b.duty (bits new 6 0) }
  | _ => s

end Sys2Proof.Machine
end

