-- ==== Sys2Proof/Machine/HelmOps.lean ====
section
/-! DEFINITION. Shared helm operations: deciding a handover (R413) for a pace offer (R24, R25), and a half that
enters HALTED_HALF (R40). -/

namespace Sys2Proof.Machine

open Sys2Proof

/-- A field of a 64-bit health word (Table 13.2). -/
def hwBits (w hi lo : Nat) : Nat := w / 2 ^ lo % 2 ^ (hi + 1 - lo)

/-- Decide an announced handover: only in ACTIVE_PAIRED, and not while one is decided already (R413, R560). -/
def State.decideHandover (s : State) (h : Half) (by_ : Option Taken) (late : Bool) (returnMs : Nat)
    (tb : Option Nat) : State :=
  let x := s.half h
  if x.helm.st = .activePaired ∧ x.helm.handover = none then
    s.modHelm h fun m => { m with handover := some { accepted := false, age := 0, by_, late, returnMs, tb } }
  else s

/-- The standby's latest health word shows a half that the active half would offer the helm to (R24): both flags
clear, and faster by more than OFFER_MARGIN_PS. -/
def HState.offerPace (x : HState) : Bool :=
  let w := x.helm.peerHealth
  let cfg := x.reg 0 0x100
  bit cfg 26 && decide (hwBits w 60 60 = 0 ∧ hwBits w 59 59 = 0 ∧ hwBits w 43 32 + bits cfg 7 0 < x.gov.slowest)

/-- R24, at PACE_LIMIT's rise and at a new health word while it is raised; R25, at RATE_FLOOR's rise. -/
def State.offerHelm (s : State) (h : Half) (paceTurn floorRose : Bool) : State :=
  let x := s.half h
  if (paceTurn && x.gov.paceLimit && x.offerPace) ||
      (floorRose && decide (hwBits x.helm.peerHealth 59 59 = 0)) then
    s.decideHandover h none false 0 none
  else s

/-- The half enters HALTED_HALF (R40): its claim and its drive stop and HALT goes out on the ferry link.  A half
that is halted already stays as it is. -/
def State.haltHalf (s : State) (h : Half) (cause fifo : Nat) : State :=
  let x := s.half h
  if s.phase = .cold ∨ x.haltCause ≠ 0 then s
  else
    ((s.setHalf h { x with
        haltCause := cause, haltFifo := if cause = 1 then fifo else 0,
        helm := { x.helm with st := .halted, claim := false, handover := none, sealed := none, offered := false } }).emit
      (.halt h)).noteState

/-- HALF_HALT (R40). -/
def execHalfHalt (half : Half) (cause fifo : Nat) (s : State) : Host.Outcome State Fault Refusal :=
  onUnit (decide (1 ≤ cause ∧ cause ≤ 7 ∧ fifo < 1024)) (s.haltHalf half cause fifo)

end Sys2Proof.Machine
end

