-- ==== Sys2Proof/Machine/RunOps.lean ====
section
/-! DEFINITION. The powered run: its end (R463, R526), the power of the halves (18), the evidence of erasures
(15), and the alarm log's events (R465). -/

namespace Sys2Proof.Machine

open Sys2Proof

/-! ## Power of the halves -/

/-- A half with power and nothing in it: its key RAM and DRAM hold nothing. -/
def freshHalf (powered : Bool) : HState := { boot := { powered } }

/-- A half as a reset leaves it; one held unpowered by R533 stays so. -/
def HState.afterReset (x : HState) : HState :=
  if x.boot.railFail then { boot := x.boot, haltCause := 7 } else freshHalf x.boot.powered

/-- The module leaves COLD: its random source gives the hash key of the station table (07). -/
def State.drawHash (s : State) : State :=
  let (c, s) := s.draw
  let key : HState → HState := fun x => { x with img := { x.img with stnHash := c } }
  { s with a := key s.a, b := key s.b }

/-- Both halves lose power: a record under way is torn (R286), what was held for the host is lost. DEDUCED:
notes/assumptions/83.md. -/
def State.halvesOff (s : State) : State :=
  let s := { s with a := {}, b := {}, phase := .cold, carried := [], lastState := 0,
                    flash := { s.flash with recs := [], compacting := false } }
  (List.range 8).foldl (fun s c => s.setCage c { s.cage c with powered := false, ready := false, powerQ := 0 }) s

/-- Steps 5 to 7 of Table 18.8: power for the halves and cages, then BOOTING; the tamper maps and LOCK return to
their defaults (R458, R459). DEDUCED: notes/assumptions/83.md, notes/assumptions/84.md. -/
def State.halvesOn (s : State) : State :=
  let s := { s with a := freshHalf true, b := freshHalf true, phase := .booting, lastState := 1,
                    modRegs := s.modRegs.filter fun p => decide (0x1000000 ≤ p.1) }.drawHash
  let s := s.modBoard fun b => { b with power := .on, powerFail := false }
  (List.range 8).foldl State.cagePower s

/-- Step 4 of Table 18.8: the halves get power once both envelope sensors read at least −10 °C (R534). -/
def State.envelopeCheck (s : State) (t0 t1 : Int) : State :=
  let s := s.modTam fun t => { t with temp0 := t0, temp1 := t1 }
  if -160 ≤ t0 ∧ -160 ≤ t1 then s.halvesOn else s.modBoard fun b => { b with power := .cold }

/-! ## The end of a run (R463, R473, R526, R556) -/

/-- The run ends with a cause of Table 19.1: both halves reset and boot as from COLD. DEDUCED:
notes/assumptions/74.md, notes/assumptions/91.md. -/
def State.endRun (s : State) (cause : Nat) : State :=
  if s.phase = .cold then s
  else
    let s := s.modTam fun t => { t with endCause := cause }
    { s with a := s.a.afterReset, b := s.b.afterReset, phase := .booting, lastState := 1,
             flash := { s.flash with recs := [], compacting := false } }.drawHash

/-! ## Evidence (R468, R469) -/

/-- Burn the thermometer up to a target; beyond 127 it stays there and SATURATED is burned. -/
def Tamper.burn (t : Tamper) (target : Nat) : Tamper :=
  { t with evidence := max t.evidence (min 127 target), saturated := t.saturated || decide (127 < target) }

/-- TARGET of the next erasure. -/
def Tamper.nextTarget (t : Tamper) : Nat := max t.evidence (match t.pend with | some p => p.target | none => 0) + 1

/-- Seconds-on-cell (R470); on mains it stands where the last absence left it. DEDUCED: notes/assumptions/80.md. -/
def State.cellSeconds (s : State) : Nat :=
  if s.tam.onCell then (s.now - s.tam.cellSince) / 1000000000 else s.tam.cellSec

/-! ## The alarm log (R465) -/

/-- Enter an alarm: the oldest entry makes room once it has been posted; while none does, the alarm takes its serial
and is counted. DEDUCED: notes/assumptions/81.md. -/
def Tamper.logAlarm (t : Tamper) (src resp seconds : Nat) : Tamper :=
  let n := t.nextSerial
  let t := { t with nextSerial := (n + 1) % 2 ^ 32 }
  let e : LogEntry := { serial := n, src, resp, onCell := t.onCell, seconds, missed := t.unlogged, posted := false }
  if t.log.length < 64 then { t with log := t.log ++ [e], unlogged := 0 }
  else match t.log with
    | o :: r => if o.posted then { t with log := r ++ [e], unlogged := 0 } else { t with unlogged := t.unlogged + 1 }
    | [] => t

/-- Payload of TAMPER_ALARM: log serial; source; responses; mains or cell; seconds-on-cell; alarms not logged.
DEDUCED: notes/assumptions/27.md. -/
def LogEntry.payload (e : LogEntry) : List Fld :=
  [(8, e.serial), (1, e.src), (1, e.resp), (1, b2n e.onCell), (4, e.seconds), (4, e.missed)]

/-- The serial of a post that is a TAMPER_ALARM. -/
def postSerial : Post → Option Nat
  | .ev v => if v.code = 0x0C01 then v.payload.head?.map (·.2) else none
  | _ => none

/-- The half has the event of an entry on its way already. -/
def HState.alarmUnderWay (x : HState) (n : Nat) : Bool :=
  (x.queue.any fun q => decide (postSerial q.2 = some n)) ||
  ((x.img.fnSt 0).held.any fun m => decide (postSerial m.post = some n)) ||
  (x.unsent.any fun p => decide (p.fn = 0 ∧ alarmSerial p.entry = some n)) ||
  (x.kept.any fun c => c.entries.any fun p => decide (p.fn = 0 ∧ alarmSerial p.entry = some n))

/-- The log entries that a half has yet to post, in log serial order. -/
def State.unpostedLog (s : State) (h : Half) : List LogEntry :=
  s.tam.log.filter fun e => !e.posted && !(s.half h).alarmUnderWay e.serial

/-- The half that holds the helm posts each unposted entry, in log serial order, while the 32 entries of its alarm FIFO
have room (R36); the log keeps the others. -/
def State.postLog (s : State) (h : Half) : State :=
  ((s.unpostedLog h).take (32 - ((s.half h).waitingAt .alarm).length)).foldl
    (fun s e => s.post h .alarm 0x0C01 e.payload) s

end Sys2Proof.Machine
end

