-- ==== Sys2Proof/Machine/Rings.lean ====
section
/-! DEFINITION. Doorbells, the taking of descriptors, ring enables and resets, interrupts, and the numbering of
events by the usher (16; R30, R36). -/

namespace Sys2Proof.Machine

open Sys2Proof

/-- `HIF_VF_LIMIT[k]` fields (R494). -/
def Image.vfOutstanding (im : Image) (k : Nat) : Nat := bits (im.reg 0 (0x100400 + 4 * k)) 12 0
def Image.vfSched (im : Image) (k : Nat) : Nat := bits (im.reg 0 (0x100400 + 4 * k)) 31 23
def Image.vfPke (im : Image) (k : Nat) : Nat := bits (im.reg 0 (0x100400 + 4 * k)) 22 14

/-- Room is reserved for one more completion of a function, and a VF is below OUTSTANDING (R483, R494). -/
def Image.cplRoom (im : Image) (fn : Nat) : Bool :=
  let f := im.fnSt fn
  im.ringEn fn 1 && !f.cpl.stalled &&
    decide (f.cpl.count + f.taken.length + 1 ≤ f.cpl.db + im.ringSize fn 1) &&
    (decide (fn = 0) || decide (f.taken.length < im.vfOutstanding fn))

/-- Post RING_ERROR: function; ring; cause doorbell 0, phase 1, DMA 2; stalled 0 or not 1. -/
def State.ringErrorEv (s : State) (x : Half) (fn ring cause : Nat) (stalled : Bool) : State :=
  s.post x .command 0x0D0D [(1, fn), (1, ring), (1, cause), (1, b2n (!stalled))] (.fn fn)

/-- Stall a ring (R482, R486): `cause` as HIF_RING_ERR.CAUSE. -/
def State.stallRing (s : State) (x : Half) (fn ring cause : Nat) : State :=
  (s.modImg x fun im => im.modRing fn ring fun g => { g with stalled := true, cause, retryAt := none }).ringErrorEv
    x fn ring cause true

/-- A descriptor whose opcode no chapter defines completes with REJECTED_ARGS as it is taken (R233). DESIGN CHOICE:
notes/assumptions/4.md. -/
def State.refuseUnknown (x : Half) (c : Cmd) (s : State) : State :=
  if opcodes.contains c.op then s else s.postCpl x c stArgs 0 []

/-- Take the waiting descriptors of a command or table ring, in position order, as far as completions have room
and their PHASE matches (R482, R483). -/
def State.takeMore (x : Half) (fn ring : Nat) : Nat → State → State
  | 0, s => s
  | n + 1, s =>
    let im := s.img x
    let g := (im.fnSt fn).ring ring
    match g.waiting with
    | [] => s
    | d :: rest =>
      if s.phase ≠ .running ∨ im.ringEn fn ring = false ∨ g.stalled ∨ im.cplRoom fn = false ∨
          (s.half x).helm.handover.isSome ∨ g.retryAt.isSome then s
      else if d.dmaOk = false then s.stallRing x fn ring 2
      else if d.phase ≠ phaseOf g.count (im.ringSize fn ring) then
        s.modImg x fun im => im.modRing fn ring fun g => { g with retryAt := some s.now }
      else
        State.takeMore x fn ring n (State.refuseUnknown x
          { op := d.opcode, fn, table := decide (ring = 3), pos := g.count, tag := d.tag } (s.modImg x fun im =>
          let f := im.fnSt fn
          let f := f.setRing ring { g with waiting := rest, count := g.count + 1 }
          im.setFn fn { f with taken := f.taken ++
            [{ table := decide (ring = 3), pos := g.count, tag := d.tag, op := d.opcode }] }))

/-- Take what waits on both producer rings of a function. -/
def State.takeAll (s : State) (x : Half) (fn : Nat) : State :=
  let k := fun (s : State) r => (((s.img x).fnSt fn).ring r).waiting.length
  let s := State.takeMore x fn 0 (k s 0) s
  State.takeMore x fn 3 (k s 3) s

/-- Write held events while they fit, oldest first (R490). -/
def State.releaseHeld (x : Half) (fn : Nat) : Nat → State → State
  | 0, s => s
  | n + 1, s =>
    let im := s.img x
    let f := im.fnSt fn
    match f.held with
    | [] => s
    | m :: rest =>
      match m.post with
      | .ev e =>
        if im.evtOpen fn && im.room fn 2 (1 + contCount e.payload) then
          State.releaseHeld x fn n (s.modHalf x fun y =>
            let y := { y with img := y.img.setFn fn { f with held := [] } }
            let y := placeEv m e fn y
            { y with img := y.img.setFn fn { y.img.fnSt fn with held := rest } })
        else s
      | _ => State.releaseHeld x fn n (s.modImg x fun im => im.setFn fn { f with held := rest })

/-- Room has returned on an event ring: held entries first, then EVENT_LOST with the count dropped and the
first and last SEQ dropped (R490). -/
def State.evtRoom (s : State) (x : Half) (fn : Nat) : State :=
  let s := State.releaseHeld x fn ((s.img x).fnSt fn).held.length s
  let f := (s.img x).fnSt fn
  let s := if f.held.isEmpty && decide (0 < f.dropped) && (s.img x).evtOpen fn then
      (s.modImg x fun im => im.setFn fn { f with dropped := 0, dropLo := 0, dropHi := 0 }).post x .cores 0x0D0C
        [(1, fn), (4, f.dropped), (8, f.dropLo), (8, f.dropHi)] (.fn fn)
    else s
  s.flushSolo x

/-- The position a 32-bit count names, at or after position `c` (R479). DEDUCED: notes/assumptions/33.md. -/
def countFrom (c value : Nat) : Nat := c + (value + 2 ^ 32 - c % 2 ^ 32) % 2 ^ 32

/-- The ferry link is up for a half: at least 4 lanes in use (R70). -/
def HState.ferryUp (x : HState) : Bool := decide (4 ≤ (x.ferry.filter (·.2.inUse)).length)

/-- Descriptors that host software had written when it rang a producer doorbell (R482), from a position on. DEDUCED:
notes/assumptions/34.md. -/
def State.noteDescs (s : State) (fn ring size : Nat) : Nat → List Desc → State
  | pos, [] => { s with descEnd := tabSet 0 s.descEnd (4 * fn + ring) (max pos (tabGet 0 s.descEnd (4 * fn + ring))) }
  | pos, d :: r =>
    State.noteDescs { s with descs := tabSet none s.descs (slotKey fn ring (pos % size)) (some d) } fn ring size
      (pos + 1) r

/-- A ring whose EN rises holds zeros (R480). -/
def State.clearDescs (s : State) (fn ring : Nat) : State :=
  { s with descs := s.descs.filter fun p => decide (p.1 / 65536 ≠ fn * 4 + ring),
           descEnd := tabSet 0 s.descEnd (4 * fn + ring) 0 }

/-- A doorbell rung on a half that does not hold the helm (R492, R493). -/
def HState.standbyDoorbell (x : HState) (fn ring value : Nat) (descs : List Desc) : HState :=
  match x.helm.st with
  | .inStep | .out =>
    if x.ferryUp then
      { x with dbFwd := x.dbFwd ++ [{ fn, ring, value, descs }],
               dbFwdCnt := tabSet 0 x.dbFwdCnt fn (min 65535 (tabGet 0 x.dbFwdCnt fn + 1)) }
    else { x with dbUnsent := tabSet 0 x.dbUnsent fn (min 65535 (tabGet 0 x.dbUnsent fn + 1)) }
  | _ => x

/-- A producer doorbell on the half that holds the helm (R482). DEDUCED: notes/assumptions/32.md. -/
def State.producerDoorbell (s : State) (x : Half) (fn ring value : Nat) (descs : List Desc) : State :=
  let im := s.img x
  let g := (im.fnSt fn).ring ring
  if im.ringEn fn ring = false ∨ g.stalled then s
  else
    let p := countFrom g.count value
    if g.count + im.ringSize fn ring < p then
      ((s.modHalf x fun y => y.ringError fn ring).modImg x fun im =>
        im.modRing fn ring fun g => { g with cause := 3 }).ringErrorEv x fn ring 0 false
    else
      let have_ := g.count + g.waiting.length
      let from_ := if g.retryAt.isSome then g.count else have_
      let s := s.noteDescs fn ring (im.ringSize fn ring) from_ (descs.take (p - from_))
      let s := s.modImg x fun im => im.modRing fn ring fun g =>
        { g with db := value,
                 waiting := if g.retryAt.isSome then descs else g.waiting ++ descs.take (p - have_),
                 retryAt := none }
      s.takeAll x fn

/-- A consumer doorbell on the half that holds the helm (R485); a count beyond what was written is ignored. DEDUCED:
notes/assumptions/33.md. -/
def State.consumerDoorbell (s : State) (x : Half) (fn ring value : Nat) : State :=
  let im := s.img x
  let g := (im.fnSt fn).ring ring
  let p := countFrom g.db value
  if im.ringEn fn ring = false ∨ g.count < p then s
  else
    let s := s.modImg x fun im => im.modRing fn ring fun g => { g with db := p }
    if ring = 1 then s.takeAll x fn else s.evtRoom x fn

/-- A doorbell write (R479, R492): of 32 bits, on an existing function; the standby forwards it. -/
def State.doorbell (s : State) (half : Half) (fn ring value width : Nat) (descs : List Desc) :
    Host.Outcome State Fault Refusal :=
  onUnit (decide (fn < 16)) <|
    if ring = 3 ∧ fn ≠ 0 then s
    else if width ≠ 4 then s.modHalf half fun y => y.ringError fn ring
    else if s.holder = some half then
      if ring = 0 ∨ ring = 3 then s.producerDoorbell half fn ring (value % 2 ^ 32) descs
      else s.consumerDoorbell half fn ring (value % 2 ^ 32)
    else
      let s := if ring = 0 ∨ ring = 3 then
          s.noteDescs fn ring ((s.img half).ringSize fn ring) (tabGet 0 s.descEnd (4 * fn + ring)) descs
        else s
      s.modHalf half fun y => y.standbyDoorbell fn ring (value % 2 ^ 32) descs

/-- CMD_PI_DOORBELL (R482). -/
def execCmdPiDoorbell (half : Half) (fn value width : Nat) (descs : List Desc) (s : State) :
    Host.Outcome State Fault Refusal := s.doorbell half fn 0 value width descs

/-- TBL_PI_DOORBELL (R482): PF only, ignored on a VF (Table 16.4). -/
def execTblPiDoorbell (half : Half) (fn value width : Nat) (descs : List Desc) (s : State) :
    Host.Outcome State Fault Refusal := s.doorbell half fn 3 value width descs

/-- CPL_CI_DOORBELL (R485). -/
def execCplCiDoorbell (half : Half) (fn value width : Nat) (s : State) : Host.Outcome State Fault Refusal :=
  s.doorbell half fn 1 value width []

/-- EVT_CI_DOORBELL (R485). -/
def execEvtCiDoorbell (half : Half) (fn value width : Nat) (s : State) : Host.Outcome State Fault Refusal :=
  s.doorbell half fn 2 value width []

/-- PHASE_RETRY_EXPIRE (R482): 2 µs after the first mismatch the ring stalls with cause PHASE. DESIGN CHOICE:
notes/assumptions/5.md. -/
def execPhaseRetryExpire (fn : Nat) (table : Bool) (s : State) : Host.Outcome State Fault Refusal :=
  let ring := if table then 3 else 0
  onUnit (decide (fn < 16 ∧ (table = false ∨ fn = 0))) <|
    match s.holder with
    | some x =>
      match (((s.img x).fnSt fn).ring ring).retryAt with
      | some t0 => if t0 + 2000 ≤ s.now then s.stallRing x fn ring 1 else s
      | none => s
    | none => s

/-- MSIX_DELAY_EXPIRE (R491). -/
def execMsixDelayExpire (fn ring : Nat) (s : State) : Host.Outcome State Fault Refusal :=
  onUnit (decide (fn < 16 ∧ (ring = 1 ∨ ring = 2))) <|
    match s.holder with
    | some x =>
      let im := s.img x
      let g := (im.fnSt fn).ring ring
      if 0 < g.modCount ∧ g.modSince + 256 * bits (im.reg fn (0x100110 + 0x20 * ring)) 31 16 ≤ s.now then
        (s.modImg x fun im => im.modRing fn ring fun g => { g with modCount := 0 }).emit
          (.msix fn (bits (im.reg fn (ringCfgOff ring)) 12 10))
      else s
    | none => s

/-- A ring of a function as EN rises (R480, R483, R490): both counts 0, no stall; held events and the
completions carried over from the ended run are written. DEDUCED: notes/assumptions/91.md. -/
def State.ringOn (s : State) (x : Half) (fn ring : Nat) : State :=
  let s := s.clearDescs fn ring
  let s := s.modImg x fun im => im.modRing fn ring fun _ => {}
  if ring = 2 then s.evtRoom x fn
  else if ring = 1 then
    let s := if fn = 0 then
        s.carried.foldl (fun s c => s.numberNow x (.cpl c)) { s with carried := [] }
      else s
    s.takeAll x fn
  else s

/-- A ring of a function as EN falls (R486): nothing more is taken. -/
def State.ringOff (s : State) (x : Half) (fn ring : Nat) : State :=
  s.modImg x fun im => im.modRing fn ring fun g => { g with waiting := [], retryAt := none }

/-- A numbered post is an event that is never dropped. -/
def Numbered.kept (n : Numbered) : Bool :=
  match n.post with
  | .ev e => neverDropped e.code
  | _ => false

/-- Held events are discarded and counted as dropped with their first and last SEQ (R495); TAMPER_ALARM and BOOT are never
dropped (R490, R545). DEDUCED: notes/assumptions/91.md. -/
def FnSt.discardHeld (f : FnSt) : FnSt :=
  let seqs := (f.held.filter fun n => !n.kept).map (·.seq)
  let all := if f.dropped = 0 then seqs else f.dropLo :: f.dropHi :: seqs
  { f with held := f.held.filter Numbered.kept, dropped := f.dropped + seqs.length,
           dropLo := all.min?.getD 0, dropHi := all.max?.getD 0 }

/-- FUNCTION_LEVEL_RESET (R495), on the link of the half that holds the helm; on the other link it changes
PCIe configuration state only. -/
def execFunctionLevelReset (half : Half) (fn : Nat) (s : State) : Host.Outcome State Fault Refusal :=
  onUnit (decide (fn < 16)) <|
    if s.holder ≠ some half then s
    else
      let off : Image → Nat → Image := fun im r =>
        im.setReg fn (ringCfgOff r) (setBits (im.reg fn (ringCfgOff r)) 31 31 0)
      let s := s.modImg half fun im => (List.range 4).foldl off im
      let s := (List.range 4).foldl (fun s r => s.ringOff half fn r) s
      s.modImg half fun im =>
        let f := im.fnSt fn
        im.setFn fn (FnSt.discardHeld { f with discard := f.discard ++ f.taken })

/-- The first waiting post of a kind of source, and the posts without it. DEDUCED: notes/assumptions/30.md. -/
def takeSrc (k : Src) : List (Src × Post) → Option (Post × List (Src × Post))
  | [] => none
  | (src, p) :: r => if src = k then some (p, r) else (takeSrc k r).map fun q => (q.1, (src, p) :: q.2)

/-- CNT_OVERFLOW carries its counter's value at the moment the usher accepts it (R509). -/
def HState.atAcceptance (x : HState) : Post → Post
  | .ev e =>
    if e.code = 0x0601 then
      match e.payload with
      | [a, i, o, _] => .ev { e with payload := [a, i, o, (8, (tabGet {} x.ctrs i.2 : Ctr).val)] }
      | _ => .ev e
    else .ev e
  | p => p

/-- USHER_EVENT (R30, R36): the usher of the half that holds the helm numbers the oldest event of a source and
hands it to the rings, once BOOT has been numbered (R32, R542).  The order between sources is the order of these steps
(R27, R31); a completion whose place is kept is waited for (R29), and an alarm of the log enters the room that an alarm
leaves. DEDUCED: notes/assumptions/30.md. -/
def execUsherEvent (half : Half) (src : Src) (s : State) : Host.Outcome State Fault Refusal :=
  .next <|
    if s.holder ≠ some half ∨ (s.img half).seq = 0 then s
    else match takeSrc src (s.half half).queue with
      | some (.due _, _) => s
      | some (p, r) =>
        let p := (s.half half).atAcceptance p
        let s := ((s.modHalf half fun x => { x with queue := r }).numberNow half p).happen half 0x30 0 1
        if src = .alarm then s.postLog half else s
      | none => s

end Sys2Proof.Machine
end

