-- ==== Sys2Proof/Machine/Sched.lean ====
section
/-! DEFINITION. Arming an entry of the scheduled action table (R385, R386), and instants (R368, R369). -/

namespace Sys2Proof.Machine

open Sys2Proof

/-- An instant in units of 2^−16 ns. -/
def tvUnits (v : TimeVal) : Nat := (v.seconds * 1000000000 + v.nanos) * 65536 + v.subns

/-- The value that a count of units stands for. -/
def timeOf (u : Nat) : TimeVal :=
  { seconds := u / 65536 / 1000000000, nanos := u / 65536 % 1000000000, subns := u % 65536 }

/-- An instant as a field (Table 12.1): seconds, nanoseconds, sub-nanoseconds. -/
def instFld (v : TimeVal) : Fld := (16, v.seconds + v.nanos * 2 ^ 64 + v.subns * 2 ^ 96)

/-- An instant in its layout (R368). -/
def instantOk (i : Instant) : Bool :=
  decide (i.reserved = 0 ∧ i.time.nanos ≤ 999999999 ∧ i.time.subns < 65536 ∧ i.time.seconds < 2 ^ 64)

/-- A time base of a half. -/
def HState.tb (x : HState) (n : Nat) : TBase := tabGet {} x.tbs n

/-- The present value of a time base. -/
def TBase.value (b : TBase) : TimeVal := { seconds := b.sec, nanos := b.ns, subns := b.sub }

/-- A "time base and instant" that a command may not name (R368, R369). -/
def HState.badWhen (x : HState) : When → Bool
  | .immediate => false
  | .scheduled tb i => decide (4 ≤ tb) || !instantOk i || !(x.tb tb).valid

/-- The entry of the scheduled action table. -/
def Image.schedAt (im : Image) (i : Nat) : Option Sched := tabGet none im.sched i

/-- Entries in use by a function's commands (R494). -/
def Image.schedOf (im : Image) (fn : Nat) : Nat :=
  (im.sched.filter fun p => match p.2 with | some e => decide (e.fn = fn) | none => false).length

/-- The table is full, or the VF is at its SCHED_MAX (R385, R494). -/
def Image.schedFull (im : Image) (fn more : Nat) : Bool :=
  decide (256 < im.sched.length + more) || (decide (fn ≠ 0) && decide (im.vfSched fn < im.schedOf fn + more))

/-- Arm an entry: the module picks a free index; an instant not later than its time base makes it late (R386). DESIGN
CHOICE: notes/assumptions/8.md. -/
def State.arm (s : State) (x : Half) (fn op : Nat) (cmd : Option Cmd) (tb : Nat) (at_ : TimeVal) (period : Nat)
    (act : SchedAct) : State :=
  let (c, s) := s.draw
  let im := s.img x
  match pickFree (fun i => (im.schedAt i).isSome) 256 c with
  | none => s
  | some i =>
    let late := decide (tvUnits at_ ≤ tvUnits ((s.half x).tb tb).value)
    let e : Sched := { cmd, fn, op, tb, at_, late, order := im.armed, mark := im.seq, first := at_, period, act }
    s.modImg x fun im => { im with sched := tabSet none im.sched i (some e), armed := im.armed + 1 }

/-- Free an entry. -/
def State.unarm (s : State) (x : Half) (i : Nat) : State :=
  s.modImg x fun im => { im with sched := tabSet none im.sched i none }

end Sys2Proof.Machine
end

