-- ==== Sys2Proof/Machine/Frames.lean ====
section
/-! DEFINITION. Ethernet frames and MACsec frames byte by byte (06, 07): lengths, tags, the IP header, the SecTAG of IEEE
802.1AE, protection and validation under a cipher suite, and the timestamps of R378. -/

namespace Sys2Proof.Machine

open Sys2Proof

/-! ## Ethernet frames -/

/-- Destination and source address. -/
def addrBytes (dst src : Nat) : List Nat := beBytes 6 dst ++ beBytes 6 src

/-- VLAN tags as they stand in a frame. -/
def tagBytes (tags : List Vlan) : List Nat := tags.flatMap fun v => beBytes 2 v.tpid ++ beBytes 2 v.tci

/-- The bytes behind the first `c` tags, to the FCS. -/
def restBytes (f : FrameIn) (c : Nat) : List Nat := tagBytes (f.tags.drop c) ++ beBytes 2 f.etherType ++ f.payload

/-- A frame from its destination address to the last byte before the FCS. -/
def frameBytes (f : FrameIn) : List Nat := addrBytes f.dst f.src ++ restBytes f 0

/-- Length of a frame from its destination address to its FCS (R255). -/
def frameLen (f : FrameIn) : Nat := 18 + 4 * f.tags.length + f.payload.length

/-- One byte into the register of the FCS (IEEE 802.3 clause 3.2.9, reflected). -/
def fcsByte (c b : Nat) : Nat :=
  (List.range 8).foldl (fun c _ => if c % 2 = 1 then (c / 2) ^^^ 0xEDB88320 else c / 2) (c ^^^ b)

/-- Bytes with their FCS after them. PRESUMED: notes/assumptions/49.md. -/
def withFcs (bs : List Nat) : List Nat := bs ++ leBytes 4 (bs.foldl fcsByte 0xFFFFFFFF ^^^ 0xFFFFFFFF)

/-- A VLAN tag's TPID (R172). -/
def isVlan (ty : Nat) : Bool := decide (ty = 0x8100 ∨ ty = 0x88A8)

/-- The VLAN tags at the head of bytes, and what follows them. -/
def parseTags : List Nat → List Vlan × List Nat
  | a :: b :: c :: d :: r =>
    if isVlan (beNat [a, b]) then
      let q := parseTags r
      ({ tpid := beNat [a, b], tci := beNat [c, d] } :: q.1, q.2)
    else ([], a :: b :: c :: d :: r)
  | r => ([], r)

/-- A frame as it is delivered: the tags in clear in front of the secure data (R173). -/
def delivered (f : LineFrameIn) (data : List Nat) : FrameIn :=
  let q := parseTags data
  { id := f.id, dst := f.dst, src := f.src, tags := f.tags ++ q.1, etherType := beNat (bytesAt q.2 0 2),
    payload := q.2.drop 2, fec := f.fec }

/-- A frame without SecTAG. -/
def plainFrame (f : LineFrameIn) : FrameIn :=
  { id := f.id, dst := f.dst, src := f.src, tags := f.tags, etherType := f.etherType, payload := f.data, fec := f.fec }

/-! ## Tags and the IP header (R207, R214) -/

/-- A tag whose TPID the port accepts (`CLS_PORT_CFG[p].TPID`). -/
def Image.tagOk (im : Image) (p : Nat) (v : Vlan) : Bool :=
  (decide (v.tpid = 0x8100) && decide (im.portTpid p % 2 = 1)) ||
    (decide (v.tpid = 0x88A8) && decide (im.portTpid p / 2 % 2 = 1))

/-- The VLAN ID of a frame at a port (R207). -/
def Image.vidOf (im : Image) (p : Nat) (tags : List Vlan) : Nat :=
  match tags.find? (im.tagOk p) with
  | some v => if v.tci % 4096 = 0 then im.portPvid p else v.tci % 4096
  | none => im.portPvid p

/-- The tags that follow those which a port accepts: where none is accepted, every tag. DEDUCED:
notes/assumptions/118.md. -/
def Image.tagsLeft (im : Image) (p : Nat) (tags : List Vlan) : List Vlan :=
  match tags.dropWhile fun v => !im.tagOk p v with
  | [] => tags
  | l => l.dropWhile (im.tagOk p)

/-- The EtherType after the tags of R207. -/
def Image.typeAt (im : Image) (p : Nat) (f : FrameIn) : Nat :=
  match im.tagsLeft p f.tags with
  | [] => f.etherType
  | v :: _ => v.tpid

/-- The family of an IP header and the address bits of its destination that the trie uses, where the header is whole
within the first 128 bytes of the frame (R214). -/
def ipDst (at_ ty : Nat) (ps : List Nat) : Option (Nat × Nat) :=
  let ver := ps.headD 0 / 16
  let head := 4 * (ps.headD 0 % 16)
  if ty = 0x0800 then
    if ver = 4 ∧ 20 ≤ head ∧ head ≤ ps.length ∧ at_ + head ≤ 128 then some (4, beNat (bytesAt ps 16 4)) else none
  else if ty = 0x86DD then
    if ver = 6 ∧ 40 ≤ ps.length ∧ at_ + 40 ≤ 128 then some (6, beNat (bytesAt ps 24 8)) else none
  else none

/-- The destination that a frame looks up in the trie (R214). -/
def Image.trieKey (im : Image) (p : Nat) (f : FrameIn) : Option (Nat × Nat) :=
  if im.tagsLeft p f.tags = [] then ipDst (14 + 4 * f.tags.length) f.etherType f.payload else none

/-! ## The SecTAG (IEEE 802.1AE clause 9) -/

/-- Octet 3: TCI and AN. -/
def tciByte (t : SecTag) : Nat :=
  128 * b2n t.v + 64 * b2n t.es + 32 * b2n t.sc + 16 * b2n t.scb + 8 * b2n t.e + 4 * b2n t.c + t.an % 4

/-- A SecTAG with its EtherType. -/
def secTagBytes (t : SecTag) : List Nat :=
  [0x88, 0xE5, tciByte t, t.sl] ++ beBytes 4 t.pn ++ (if t.sc then beBytes 8 t.sci else [])

/-- A SecTAG is well formed for a frame with so many bytes of secure data (Table 06.1). PRESUMED:
notes/assumptions/119.md. -/
def secTagOk (xpn : Bool) (t : SecTag) (n : Nat) : Bool :=
  !t.v && !(t.sc && (t.es || t.scb)) && !(t.e && !t.c) && decide (t.sl < 48 ∧ (if t.sl = 0 then 48 ≤ n else n = t.sl)) &&
    (xpn || decide (t.pn ≠ 0))

/-- A frame that the port reads as having a SecTAG (R173): at most CLEAR_TAGS tags stand before it. -/
def tagSeen (c : Nat) (f : LineFrameIn) : Option SecTag := if f.tags.length ≤ c then f.secTag else none

/-- The same frame read without a SecTAG: where it has one, that is its EtherType and the head of its data. -/
def unread (f : LineFrameIn) : LineFrameIn :=
  match f.secTag with
  | some t => { f with secTag := none, etherType := 0x88E5, data := (secTagBytes t).drop 2 ++ f.data ++ f.icv, icv := [] }
  | none => f

/-! ## Cipher suites (Table 06.1) -/

/-- Key bytes of a SAK under a suite. -/
def sakBytes (u : Suite) (key : Nat) : List Nat := leBytes (if suite256 u then 32 else 16) key

/-- The IV of a frame (IEEE 802.1AE clause 14; R181): SCI and PN, or SSCI and PN under the salt. -/
def frameIv (u : Suite) (sci ssci salt pn : Nat) : Nat :=
  if suiteXpn u then (ssci % 2 ^ 32 * 2 ^ 64 + pn % 2 ^ 64) ^^^ beNat (leBytes 12 salt)
  else sci % 2 ^ 64 * 2 ^ 32 + pn % 2 ^ 32

/-- Secure data behind a confidentiality offset, encrypted or decrypted. -/
def cryptBehind (key : List Nat) (iv off : Nat) (data : List Nat) : List Nat :=
  data.take off ++ gcmCryptBytes key iv (data.drop off)

/-- The ICV over the associated data and secure data of which the first `off` bytes stand in clear. -/
def icvOf (key : List Nat) (iv : Nat) (aad : List Nat) (off : Nat) (data : List Nat) : List Nat :=
  wordBytes (gcmTagBytes key iv (aad ++ data.take off) (data.drop off))

/-- Bytes of secure data that stand in clear: all of them without encryption (E 0). -/
def clearPart (t : SecTag) (off n : Nat) : Nat := if t.e then off else n

/-- The SecTAG that a transmit SC puts on a frame (R172, R176): explicit SCI where the SC always sends it, or sends neither
ES nor SCB and the port has more than one receive SC. PRESUMED: notes/assumptions/119.md. -/
def sentTag (a : ScArgs) (many : Bool) (an pn n : Nat) : SecTag :=
  let sc := a.includeSci || (many && !a.useEs && !a.useScb)
  { v := false, es := a.useEs && !sc, sc, scb := a.useScb && !sc, e := true, c := true, an,
    sl := if n < 48 then n else 0, pn := pn % 2 ^ 32, sci := if sc then a.sci else 0 }

/-- A protected frame (R172, R176): addresses, the tags in clear, SecTAG, secure data, ICV. -/
def protectFrame (a : ScArgs) (t : SecTag) (key : List Nat) (iv : Nat) (f : FrameIn) : List Nat :=
  let data := cryptBehind key iv a.confOffset (restBytes f a.clearTags)
  let aad := addrBytes f.dst f.src ++ secTagBytes t
  addrBytes f.dst f.src ++ tagBytes (f.tags.take a.clearTags) ++ secTagBytes t ++ data ++
    icvOf key iv aad a.confOffset data

/-- Length of a protected frame on the line, its own FCS included. -/
def protectedLen (t : SecTag) (f : FrameIn) : Nat := frameLen f + (if t.sc then 32 else 24)

/-- The secure data of a received frame in clear, and whether its ICV verifies (R177). -/
def validateFrame (off : Nat) (key : List Nat) (iv : Nat) (f : LineFrameIn) (t : SecTag) : List Nat × Bool :=
  let n := clearPart t off f.data.length
  let aad := addrBytes f.dst f.src ++ secTagBytes t
  (cryptBehind key iv n f.data, decide (icvOf key iv aad n f.data = f.icv))

/-- A frame whose outermost tag in clear is marked DEI (R258). -/
def markDei (c : Nat) (f : FrameIn) : FrameIn :=
  match f.tags with
  | v :: r => if 1 ≤ c ∧ isVlan v.tpid then { f with tags := { v with tci := v.tci ||| 0x1000 } :: r } else f
  | [] => f

/-! ## Timestamps (R378, R381) -/

/-- EtherType of PTP (R380). -/
def ptpEtherType : Nat := 0x88F7

/-- `TIM_PORT_TS[p]`, p by lane index. -/
def Image.portTs (im : Image) (p : Nat) : Word := im.reg 0 (0xC00200 + 4 * p)
/-- PTP frames of the port on which the PTP engine runs (R380). -/
def Image.ptpEngine (im : Image) (p : Nat) : Bool :=
  let w := im.reg 0 0xC00300
  bit w 31 && decide (bits w 29 24 = p)
/-- The port is a transparent clock (R381). -/
def Image.ptpClear (im : Image) (p : Nat) : Bool := bit (im.portTs p) 30

/-- Tenths of a ns in units of 2^−16 ns. -/
def tenthNs (n : Int) : Int := n * 65536 / 10

/-- The correction of Table 12.3 with the delay of the optics, in 2^−16 ns: later on transmit, earlier on receive; the
lane skew where the port has more than one lane. DEDUCED: notes/assumptions/120.md. -/
def Image.tsCorrection (im : Image) (p id : Nat) (tx : Bool) : Int :=
  let w := im.portTs p
  let optTx : Int := bits w 23 12
  let optRx : Int := bits w 11 0
  let skew : Int := if im.portWidth (p / 8) = 1 then 0 else Config.sfdSkew p id
  if tx then tenthNs 282 + optTx * 16384 else tenthNs (-1024) - skew - optRx * 16384

/-- The MAC timestamp of a frame at a port (R378): on the port's time base, referred to the MDI. -/
def State.macTime (s : State) (h : Half) (p id : Nat) (tx : Bool) : Int :=
  let im := s.img h
  (tvUnits ((s.half h).tb (bits (im.portTs p) 25 24)).value : Int) + im.tsCorrection p id tx

/-- The timestamp of a frame at a port (R378): of the hardware, or of a management core, which lies within 1.5 µs of it as
a free value says. DEDUCED: notes/assumptions/120.md. -/
def State.timestamp (s : State) (h : Half) (p id : Nat) (tx : Bool) : Int × State :=
  let w := (s.img h).portTs p
  if bit w 31 then
    let (c, s) := s.draw
    ((tvUnits ((s.half h).tb (bits w 25 24)).value : Int) + (c % (3000 * 65536 + 1) : Nat) - 1500 * 65536, s)
  else (s.macTime h p id tx, s)

/-- A PTP message of type Sync or Delay_Req, whose residence time the module adds (R381). -/
def addsResidence (f : FrameIn) : Bool := decide (f.payload.headD 0 % 16 ≤ 1)

/-- Residence time into correctionField, bytes 8–15 of the message, in 2^−16 ns (R381). -/
def addResidence (f : FrameIn) (dt : Int) : FrameIn :=
  let old := beNat (bytesAt f.payload 8 8)
  let new := (((old : Int) + dt) % 2 ^ 64).toNat
  { f with payload := f.payload.take 8 ++ beBytes 8 new ++ f.payload.drop 16 }

end Sys2Proof.Machine
end

