-- ==== Sys2Proof/Machine/Hall.lean ====
section
/-! DEFINITION. The hall (08): admission to queues, shapers, policers, depth and delay samples, and the hall
commands. -/

namespace Sys2Proof.Machine

open Sys2Proof

/-! ## Cells and admission (R236–R242) -/

/-- Cells of a frame. -/
def cellsOf (len : Nat) : Nat := (len + 255) / 256

/-- Length of a frame in the hall. -/
def HFrame.len (f : HFrame) : Nat := frameLen f.body

/-- The frames of a queue. -/
def HState.queue_ (x : HState) (q : Nat) : List HFrame := tabGet [] x.queues q
/-- The half with a queue replaced. -/
def HState.setQueue (x : HState) (q : Nat) (l : List HFrame) : HState := { x with queues := tabSet [] x.queues q l }
/-- Cells that a queue holds. -/
def HState.queueCells (x : HState) (q : Nat) : Nat := ((x.queue_ q).map fun f => cellsOf f.len).sum
/-- Cells that held frames take. -/
def HState.heldCells (x : HState) : Nat := (x.held.map (·.cells)).sum
/-- Cells in use beyond their queues' reserves. -/
def HState.beyond (x : HState) : Nat :=
  (x.queues.map fun p => (p.2.map fun f => cellsOf f.len).sum - x.img.queueReserve p.1).sum + x.heldCells

/-- Why a frame may not enter a queue: queue limit 0, shared pool 1 (R239). -/
def HState.refuses (x : HState) (q : Nat) : Option Nat :=
  let c := x.queueCells q
  if c < x.img.queueReserve q then none
  else if x.img.queueMax q ≤ c then some 0
  else if (x.beyond : Int) < x.img.sharedPool then none else some 1

/-- A rate-limited report: `at_` holds 1 + the time of the last post, `cnt` what came since.  Answers whether it is
posted now, with the count it carries. -/
def rateLimit (at_ cnt : Tab Nat) (k now gap : Nat) : Bool × Nat × Tab Nat × Tab Nat :=
  let last := tabGet 0 at_ k
  let n := tabGet 0 cnt k + 1
  if last = 0 ∨ last - 1 + gap ≤ now then (true, n, tabSet 0 at_ k (now + 1), tabSet 0 cnt k 0)
  else (false, n, at_, tabSet 0 cnt k n)

/-- Count and report a refusal: HALL_REFUSED at most once per ms per queue. -/
def State.refused_ (s : State) (h : Half) (q cause : Nat) : State :=
  let x := s.half h
  let (now, n, a, c) := rateLimit x.refAt x.refCnt q s.now 1000000
  let s := ((s.modHalf h fun x => { x with refAt := a, refCnt := c }).count h 8 q (if cause = 1 then 3 else 2)).happen
    h 0x21 q 1
  if now then s.post h .cores 0x0502 [(2, q), (1, cause), (4, n)] else s

/-- A frame at its queue (R239): admitted whole or refused whole. -/
def State.enqueue (s : State) (h : Half) (q : Nat) (f : HFrame) : State :=
  match (s.half h).refuses q with
  | some c => s.refused_ h q c
  | none =>
    (((s.modHalf h fun x => x.setQueue q (x.queue_ q ++ [f])).count h 8 q 0).count h 8 q 1 (cellsOf f.len)).happen
      h 0x20 q 1

/-- Class of a frame that the module originates: bit offset of its kind in `HAL_CTRL_CLASS` (R241). -/
def Image.ctrlClass (im : Image) (off : Nat) : Nat := bits (im.reg 0 0x800010) (off + 2) off

/-- A frame of the module's own enters the queue of its port, by lane index, in the class of its kind (R241). -/
def State.originate (s : State) (h : Half) (port kind : Nat) (f : FrameIn) : State :=
  s.enqueue h (8 * port + (s.img h).ctrlClass kind)
    { id := f.id, body := f, since := s.now, clear := true, ptpOwn := decide (kind = 8) }

/-- A frame or message at a control queue (R242). -/
def State.toControl (s : State) (h : Half) (kind cage cells : Nat) : State :=
  let k := 4 * kind + cage % 4
  let x := s.half h
  let used := tabGet 0 x.cqCells k
  let all := (x.cqCells.map (·.2)).sum
  let most := bits (x.img.reg 0 (0x801800 + 4 * k)) 14 0
  if used + cells ≤ most ∧ all + cells ≤ x.img.ctrlCells then
    (((s.modHalf h fun x => { x with cqCells := tabSet 0 x.cqCells k (used + cells) }).count h 8 (512 + k) 0).count
      h 8 (512 + k) 1 cells).happen h 0x20 (512 + k) 1
  else s.refused_ h (512 + k) 2

/-- A PTP frame of the port on which the PTP engine runs (R380): its timestamp is taken, and the frame goes to a control
queue of kind 2. -/
def State.toPtp (s : State) (h : Half) (p : Nat) (f : FrameIn) (cage : Nat) : State :=
  let r := s.timestamp h p f.id false
  (r.2.modHalf h fun x => { x with ptp := { x.ptp with rx := r.1 } }).toControl h 2 cage (cellsOf (frameLen f))

/-! ## Shapers (R249–R252) -/

/-- Where a shaper is kept: queues 0–511, control 512–527, SCs from 1,024. -/
def shaperKey (k : ShaperKind) (i : Nat) : Nat :=
  match k with | .queue => i | .control => 512 + i | .sc => 1024 + i

/-- Shapers of a kind. -/
def shaperCount : ShaperKind → Nat
  | .queue => 512
  | .sc => 4096
  | .control => 16

/-- Class-0 queue shapers and control shapers are privileged. -/
def privileged (k : ShaperKind) (i : Nat) : Bool :=
  match k with | .queue => decide (i % 8 = 0) | .control => true | .sc => false

/-- A shaper's setting. -/
def Image.shaper (im : Image) (key : Nat) : Shaper := tabGet {} im.shapers key

/-- Token count in thousandths of a byte. -/
def HState.token (x : HState) (key : Nat) : Int := tabGet 0 x.tokens key

/-- Eligible: disabled, or a count of at least 0 (R249, R250). -/
def HState.eligible (x : HState) (key : Nat) : Bool := !(x.img.shaper key).en || decide (0 ≤ x.token key)

/-- Charge a frame of `len` bytes on the wire: 20 more, down to −16,404 (R249). -/
def HState.charge (x : HState) (key len : Nat) : HState :=
  if (x.img.shaper key).en then
    { x with tokens := tabSet 0 x.tokens key (max (-16404000) (x.token key - 1000 * ((len : Int) + 20))) }
  else x

/-- Install a shaper's setting (R251, R252): a privileged one waits for the next refill tick, an ordinary one applies
at once and its count is set to the burst or to 0. -/
def State.setShaper (s : State) (h : Half) (a : ShaperArgs) : State :=
  let key := shaperKey a.kind a.index
  let v : Shaper := { en := a.enable, rate := a.rate, burst := a.burst }
  if privileged a.kind a.index then s.modImg h fun im => { im with pendShape := im.pendShape ++ [(key, v)] }
  else
    let count : Int := if a.zero || !a.enable then 0 else 1000 * a.burst
    (s.modImg h fun im => { im with shapers := tabSet {} im.shapers key v }).modHalf h fun x =>
      { x with tokens := tabSet 0 x.tokens key count }

/-- One refill of one shaper: install, clip to the burst, refill at RATE × 0.016 bytes (R249, R252). -/
def HState.refillShaper (x : HState) (p : Nat × Shaper) : HState :=
  if p.2.en then
    let b : Int := 1000 * p.2.burst
    { x with tokens := tabSet 0 x.tokens p.1 (min b (min b (x.token p.1) + 16 * p.2.rate)) }
  else { x with tokens := tabSet 0 x.tokens p.1 0 }

/-- One refill of one policer (R256). -/
def HState.refillPol (x : HState) (p : Nat × Pol) : HState :=
  let (c, e) := tabGet (0, 0) x.polLv p.1
  let sum := c + 16 * p.2.cir
  let c' := min (1000 * p.2.cbs) sum
  let e' := min (1000 * p.2.ebs) (e + (sum - c'))
  { x with polLv := tabSet (0, 0) x.polLv p.1 (c', e') }

/-- The management cores empty a control queue whose shaper is eligible, charged at its bytes and 20 more (R249).
DESIGN CHOICE: notes/assumptions/51.md. -/
def HState.serveControl (x : HState) (k : Nat) : HState :=
  let c := tabGet 0 x.cqCells k
  if c ≠ 0 ∧ x.eligible (512 + k) then
    ({ x with cqCells := tabDel x.cqCells k } : HState).charge (512 + k) (256 * c)
  else x

/-- REFILL_TICK (R249, R252, R256). DESIGN CHOICE: notes/assumptions/51.md. DEDUCED: notes/assumptions/54.md. -/
def execRefillTick (half : Half) (s : State) : Host.Outcome State Fault Refusal :=
  .next <|
    if !(s.half half).up then s
    else
      let s := s.modImg half fun im =>
        { im with shapers := im.pendShape.foldl (fun t p => tabSet {} t p.1 p.2) im.shapers, pendShape := [] }
      s.modHalf half fun x => (List.range 16).foldl HState.serveControl
        (x.img.pols.foldl HState.refillPol (x.img.shapers.foldl HState.refillShaper x))

/-! ## Policers (R255–R258) -/

/-- Colour of a frame: 0 green, 1 yellow, 2 red, with both levels afterwards.  In SERVICE the excess bucket is never
drawn on (R257). -/
def colour (lv : Nat × Nat) (service : Bool) (len : Nat) : Nat × (Nat × Nat) :=
  if 1000 * len ≤ lv.1 then (0, (lv.1 - 1000 * len, lv.2))
  else if !service && decide (1000 * len ≤ lv.2) then (1, (lv.1, lv.2 - 1000 * len))
  else (2, lv)

/-- Meter a frame: its colour, and whether it is dropped (R257), counted per policer (R259). -/
def State.meter (s : State) (h : Half) (pol len : Nat) : Nat × Bool × State :=
  let x := s.half h
  let service := x.img.service
  let r := colour (tabGet (0, 0) x.polLv pol) service len
  let drop := service && decide (r.1 ≠ 0)
  let s := (s.modHalf h fun x => { x with polLv := tabSet (0, 0) x.polLv pol r.2 }).count h 9 pol r.1
  (r.1, drop, if drop then s.count h 9 pol 3 else s)

/-! ## Samples (R261) -/

/-- A sample into its minimum, maximum and last. -/
def MinMax.sample (m : MinMax) (v : Nat) : MinMax :=
  let v := Nat.min v (2 ^ 32 - 1)
  { min := if m.any then Nat.min m.min v else v, max := if m.any then Nat.max m.max v else v, last := v, any := true }

/-- Sample every queue and control queue at the end of a crossing (R261). -/
def HState.sampleAll (x : HState) (now : Nat) : HState :=
  (List.range 528).foldl (fun x q =>
    let d := if q < 512 then x.queueCells q else tabGet 0 x.cqCells (q - 512)
    let w := match (x.queue_ q).head? with | some f => now - f.since | none => 0
    { x with depth := tabSet {} x.depth q ((tabGet {} x.depth q).sample d),
             delay := tabSet {} x.delay q ((tabGet {} x.delay q).sample w) }) x

/-! ## Commands (Table 08.6) -/

/-- Who may name a shaper (R263). -/
def Image.shaperOwner (im : Image) (fn : Nat) (k : ShaperKind) (i : Nat) : Bool :=
  decide (fn = 0) || (decide (k = .sc) &&
    (match (im.sc .tx i).args with | some a => decide (a.domain = fn) | none => false))

/-- SHAPER_SET (R251–R254). -/
def execShaperSet (h : Hdr) (a : ShaperArgs) (s : State) : Host.Outcome State Fault Refusal :=
  .next <| s.command h 0x0501
    (fun x => !(s.img x).shaperOwner h.fn a.kind a.index || decide (shaperCount a.kind ≤ a.index) ||
      decide (a.rate < 1 ∨ 1600000 < a.rate ∨ 16777215 < a.burst) || (s.half x).badWhen a.w)
    (fun x => [(decide (a.w ≠ .immediate) && (s.img x).schedFull h.fn 1, stNoRes)])
    (fun x s => match a.w with
      | .immediate => (s.setShaper x a).done x h 0x0501
      | .scheduled tb i => s.arm x h.fn 0x0501 (some (cmdOf h 0x0501)) tb i.time 0 (.shaper a))

/-- SHAPER_READ (R263): enable, rate, burst and the present count in whole bytes, two's complement. -/
def execShaperRead (h : Hdr) (kind : ShaperKind) (index : Nat) (s : State) : Host.Outcome State Fault Refusal :=
  .next <| s.command h 0x0502
    (fun x => !(s.img x).shaperOwner h.fn kind index || decide (shaperCount kind ≤ index))
    (fun _ => [])
    (fun x s =>
      let key := shaperKey kind index
      let v := (s.img x).shaper key
      s.done x h 0x0502 [(1, if v.en then 1 else 0), (4, v.rate), (4, v.burst),
        (4, ((s.half x).token key / 1000 % 2 ^ 32).toNat)])

/-- POLICER_SET (R260): both buckets filled to their new sizes. DEDUCED: notes/assumptions/54.md. -/
def execPolicerSet (h : Hdr) (pol cir cbs ebs : Nat) (s : State) : Host.Outcome State Fault Refusal :=
  .next <| s.command h 0x0503
    (fun _ => decide (h.fn ≠ 0 ∨ 16384 ≤ pol ∨ 1600000 < cir ∨ 16777215 < cbs ∨ 16777215 < ebs))
    (fun _ => [])
    (fun x s =>
      let s := s.modHalf x fun y => { y with polLv := tabSet (0, 0) y.polLv pol (1000 * cbs, 1000 * ebs) }
      (s.modImg x fun im => { im with pols := tabSet {} im.pols pol { cir, cbs, ebs } }).done x h 0x0503)

/-- POLICER_READ (R263). -/
def execPolicerRead (h : Hdr) (pol : Nat) (s : State) : Host.Outcome State Fault Refusal :=
  .next <| s.command h 0x0504
    (fun _ => decide (h.fn ≠ 0 ∨ 16384 ≤ pol))
    (fun _ => [])
    (fun x s =>
      let p : Pol := tabGet {} (s.img x).pols pol
      let lv := tabGet (0, 0) (s.half x).polLv pol
      s.done x h 0x0504 [(4, p.cir), (4, p.cbs), (4, p.ebs), (4, lv.1 / 1000), (4, lv.2 / 1000)])

/-- A sample record (Table 08.7). -/
def HState.sampleRec (x : HState) (q : Nat) : List Fld :=
  let d : MinMax := tabGet {} x.depth q
  let w : MinMax := tabGet {} x.delay q
  [(4, d.min), (4, d.max), (4, d.last), (4, w.min), (4, w.max), (4, w.last)]

/-- SAMPLE_READ (R261); `restart` begins the minimum and maximum again. -/
def execSampleRead (h : Hdr) (first count addr : Nat) (restart : Bool) (s : State) :
    Host.Outcome State Fault Refusal :=
  .next <| s.command h 0x0505
    (fun _ => decide (h.fn ≠ 0 ∨ count < 1 ∨ 528 < first + count))
    (fun _ => [])
    (fun x s =>
      let qs := (List.range count).map (first + ·)
      let recs := qs.flatMap (s.half x).sampleRec
      let again : Tab MinMax → Nat → Tab MinMax := fun t q =>
        tabSet {} t q { (tabGet {} t q : MinMax) with min := 0, max := 0, any := false }
      let s := if restart then
          s.modHalf x fun y => { y with depth := qs.foldl again y.depth, delay := qs.foldl again y.delay }
        else s
      s.reply x h 0x0505 [] addr recs)

end Sys2Proof.Machine
end

