-- ==== Sys2Proof/Machine/Curves.lean ====
section
/-! DEFINITION. Elliptic curves of the public-key engine (11): the curves of R342, points, ECDSA and ECDH, and the input
checks of R346. -/

namespace Sys2Proof.Machine

open Sys2Proof

/-! ## Curves (R342, SP 800-186) -/

/-- P-256. -/
def p256 : Curve where
  p := 0xffffffff00000001000000000000000000000000ffffffffffffffffffffffff
  a := 0xffffffff00000001000000000000000000000000fffffffffffffffffffffffc
  b := 0x5ac635d8aa3a93e7b3ebbd55769886bc651d06b0cc53b0f63bce3c3e27d2604b
  gx := 0x6b17d1f2e12c4247f8bce6e563a440f277037d812deb33a0f4a13945d898c296
  gy := 0x4fe342e2fe1a7f9b8ee7eb4a7c0f9e162bce33576b315ececbb6406837bf51f5
  n := 0xffffffff00000000ffffffffffffffffbce6faada7179e84f3b9cac2fc632551
  bits := 256

/-- P-384. -/
def p384 : Curve where
  p := 2 ^ 384 - 2 ^ 128 - 2 ^ 96 + 2 ^ 32 - 1
  a := 2 ^ 384 - 2 ^ 128 - 2 ^ 96 + 2 ^ 32 - 4
  b := 0xb3312fa7e23ee7e4988e056be3f82d19181d9c6efe8141120314088f5013875ac656398d8a2ed19d2a85c8edd3ec2aef
  gx := 0xaa87ca22be8b05378eb1c71ef320ad746e1d3b628ba79b9859f741e082542a385502f25dbf55296c3a545e3872760ab7
  gy := 0x3617de4a96262c6f5d9e98bf9292dc29f8f41dbd289a147ce9da3113b5f0b8c00a60b1ce1d7e819d7a431d7c90ea0e5f
  n := 0xffffffffffffffffffffffffffffffffffffffffffffffffc7634d81f4372ddf581a0db248b0a77aecec196accc52973
  bits := 384

/-- P-521. -/
def p521 : Curve where
  p := 2 ^ 521 - 1
  a := 2 ^ 521 - 4
  b := 0x0051953eb9618e1c9a1f929a21a0b68540eea2da725b99b315f3b8b489918ef109e156193951ec7e937b1652c0bd3bb1bf07 *
    2 ^ 128 + 0x3573df883d2c34f1ef451fd46b503f00
  gx := 0x00c6858e06b70404e9cd9e3ecb662395b4429c648139053fb521f828af606b4d3dbaa14b5e77efe75928fe1dc127a2ffa8de *
    2 ^ 128 + 0x3348b3c1856a429bf97e7e31c2e5bd66
  gy := 0x011839296a789a3bc0045c8a5fb42c7d1bd998f54449579b446817afbd17273e662c97ee72995ef42640c550b9013fad0761 *
    2 ^ 128 + 0x353c7086a272c24088be94769fd16650
  n := 2 ^ 521 - 2 ^ 260 + 0xa51868783bf2f966b7fcc0148f709a5d03bb5c9b8899c47aebb6fb71e91386409
  bits := 521

/-- Bytes of a coordinate or scalar. -/
def curveWidth (c : Curve) : Nat := (c.bits + 7) / 8

/-! ## Arithmetic -/

/-- A power modulo `m`; the exponent in so many bits. -/
def powMod (m b e n : Nat) : Nat :=
  (List.range n).foldl (fun r i =>
    let r := r * r % m
    if e.testBit (n - 1 - i) then r * b % m else r) (1 % m)

/-- The inverse modulo a prime. -/
def invMod (p x : Nat) : Nat := powMod p (x % p) (p - 2) (Nat.log2 p + 1)

/-- A difference modulo `p`. -/
def subMod (p x y : Nat) : Nat := (x % p + p - y % p) % p

/-- A point of a curve; none is the point at infinity. -/
abbrev Point := Option (Nat × Nat)

/-- The sum of two points. -/
def pointAdd (c : Curve) : Point → Point → Point
  | none, q => q
  | p, none => p
  | some (x, y), some (u, v) =>
    if x = u ∧ (y + v) % c.p = 0 then none
    else
      let l := if x = u then (3 * x * x + c.a) * invMod c.p (2 * y) % c.p
               else subMod c.p v y * invMod c.p (subMod c.p u x) % c.p
      let r := subMod c.p (l * l) (x + u)
      some (r, subMod c.p (l * subMod c.p x r) y)

/-- A multiple of a point. -/
def pointMul (c : Curve) (k : Nat) (q : Point) : Point :=
  (List.range (Nat.log2 k + 1)).foldl (fun r i =>
    let r := pointAdd c r r
    if k.testBit (Nat.log2 k - i) then pointAdd c r q else r) none

/-- The base point. -/
def basePoint (c : Curve) : Point := some (c.gx, c.gy)

/-- Coordinates below p that satisfy the equation of the curve. -/
def onCurve (c : Curve) (x y : Nat) : Bool :=
  decide (x < c.p ∧ y < c.p ∧ y ^ 2 % c.p = (x ^ 3 + c.a * x + c.b) % c.p)

/-- A point as 0x04 ‖ X ‖ Y. -/
def pointBytes (c : Curve) : Point → List Nat
  | some (x, y) => [0x04] ++ beBytes (curveWidth c) x ++ beBytes (curveWidth c) y
  | none => [0]

/-- A public point that passes R346: uncompressed form, coordinates below p, on the curve. -/
def readPoint (c : Curve) (bs : List Nat) : Point :=
  let x := beNat (bytesAt bs 1 (curveWidth c))
  let y := beNat (bytesAt bs (1 + (curveWidth c)) (curveWidth c))
  if bs.length = 1 + 2 * curveWidth c ∧ bs.headD 0 = 4 ∧ onCurve c x y then some (x, y) else none

/-- A scalar that passes R346. -/
def scalarOk (c : Curve) (k : Nat) : Bool := decide (0 < k ∧ k < c.n)

/-! ## ECDSA (FIPS 186-5) and ECDH (SP 800-56A) -/

/-- The hash of R365, by its identifier: 1–3 SHA-2, 4–6 SHA-3. -/
def digestLen (hash : Nat) : Nat := if hash % 3 = 1 then 32 else if hash % 3 = 2 then 48 else 64
def digestOf (hash : Nat) (bs : List Nat) : List Nat :=
  if hash ≤ 3 then sha2 (8 * digestLen hash) bs else sha3 (8 * digestLen hash) bs

/-- The leftmost bits of a digest, as many as the order has. -/
def digestNat (c : Curve) (d : List Nat) : Nat :=
  let b := Nat.log2 c.n + 1
  if b < 8 * d.length then beNat d / 2 ^ (8 * d.length - b) else beNat d

/-- A signature r ‖ s over a digest verifies under a public key (R346). -/
def ecdsaOk (c : Curve) (key d sig : List Nat) : Bool :=
  let r := beNat (bytesAt sig 0 (curveWidth c))
  let t := beNat (bytesAt sig (curveWidth c) (curveWidth c))
  let q := readPoint c key
  let w := invMod c.n t
  let e := digestNat c d
  decide (sig.length = 2 * curveWidth c) && scalarOk c r && scalarOk c t && q.isSome &&
    match pointAdd c (pointMul c (e * w % c.n) (basePoint c)) (pointMul c (r * w % c.n) q) with
    | some (x, _) => decide (x % c.n = r)
    | none => false

/-- A signature r ‖ s over a digest with a private scalar and a nonce. -/
def ecdsaSign (c : Curve) (k nonce : Nat) (d : List Nat) : List Nat :=
  let r := match pointMul c nonce (basePoint c) with | some (x, _) => x % c.n | none => 0
  beBytes (curveWidth c) r ++ beBytes (curveWidth c) (invMod c.n nonce * (digestNat c d + r * k) % c.n)

/-- The x-coordinate of the product with a peer's public point; none where R346 refuses an input. -/
def ecdh (c : Curve) (k : Nat) (point : List Nat) : Option (List Nat) :=
  match readPoint c point with
  | none => none
  | some q => (pointMul c k (some q)).map fun v => beBytes (curveWidth c) v.1

/-! ## Loaded curves (R347) -/

/-- The checks of R347; the primality tests with their random bases have no body. DESIGN CHOICE: notes/assumptions/9.md. -/
def curveOk (c : Curve) : Bool :=
  decide (2 ^ (c.bits - 1) ≤ c.p ∧ c.p < 2 ^ c.bits) && Config.primalityTest c.p && decide (c.a < c.p ∧ c.b < c.p) &&
    decide ((4 * c.a ^ 3 + 27 * c.b ^ 2) % c.p ≠ 0) && onCurve c c.gx c.gy && Config.primalityTest c.n &&
    decide (((c.p : Int) + 1 - c.n) ^ 2 ≤ 4 * c.p) && (pointMul c c.n (basePoint c)).isNone && decide (c.n ≠ c.p)

/-! ## ML-KEM-1024 (FIPS 203) -/

/-- The key pair of a seed, an encapsulation with the random message that it takes, and a decapsulation, over bytes.
DESIGN CHOICE: notes/assumptions/9.md. -/
def mlkemKeys (seed : Nat) : List Nat × List Nat :=
  let k := Config.mlkemKeys seed
  (padTo 1568 (k.1.map (· % 256)), k.2)
def mlkemEncaps (ek : List Nat) (m : Nat) : List Nat × List Nat :=
  let r := Config.mlkemEncaps ek m
  (padTo 1568 (r.1.map (· % 256)), padTo 32 (r.2.map (· % 256)))
def mlkemDecaps (dk ct : List Nat) : List Nat := padTo 32 ((Config.mlkemDecaps dk ct).map (· % 256))

/-- The 12-bit coefficients of an encapsulation key. -/
def ekCoeffs (ek : List Nat) : List Nat :=
  (List.range 512).flatMap fun i =>
    let v := leNat (bytesAt ek (3 * i) 3)
    [v % 4096, v / 4096]

/-- The length and modulus checks of an encapsulation key (R346). -/
def ekOk (ek : List Nat) : Bool := decide (ek.length = 1568) && (ekCoeffs ek).all fun v => decide (v < 3329)

/-- The length check of a ciphertext (R346). -/
def ctOk (ct : List Nat) : Bool := decide (ct.length = 1568)

end Sys2Proof.Machine
end

