-- ==== Sys2Proof/Machine/Hss.lean ====
section
/-! DEFINITION. LMS and HSS (SP 800-208, RFC 8554) with the parameter set of R342: LMS_SHA256_M32_H20 with
LMOTS_SHA256_N32_W8. -/

namespace Sys2Proof.Machine

open Sys2Proof

/-- SHA-256. -/
def sha256 (bs : List Nat) : List Nat := sha2 256 bs

/-! ## LM-OTS -/

/-- Type codes. -/
def lmsType : Nat := 8
def lmotsType : Nat := 4

/-- The 34 digits of a message hash: its bytes, then the bytes of its checksum. -/
def otsDigits (q : List Nat) : List Nat := q ++ beBytes 2 ((q.map fun b => 255 - b).sum)

/-- The hash that a one-time signature signs. -/
def otsHash (id : List Nat) (q : Nat) (c msg : List Nat) : List Nat :=
  sha256 (id ++ beBytes 4 q ++ [0x81, 0x81] ++ c ++ msg)

/-- A chain from step `from_`, so many steps on. -/
def otsChain (id : List Nat) (q i from_ steps : Nat) (x : List Nat) : List Nat :=
  (List.range steps).foldl (fun x j => sha256 (id ++ beBytes 4 q ++ beBytes 2 i ++ [from_ + j] ++ x)) x

/-- The public value of the 34 chain ends. -/
def otsEnds (id : List Nat) (q : Nat) (ends : List (List Nat)) : List Nat :=
  sha256 (id ++ beBytes 4 q ++ [0x80, 0x80] ++ ends.flatten)

/-- The public value that a one-time signature C ‖ y over a message leads to. -/
def otsFrom (id : List Nat) (q : Nat) (sig msg : List Nat) : List Nat :=
  let ds := otsDigits (otsHash id q (bytesAt sig 0 32) msg)
  otsEnds id q ((List.range 34).map fun i =>
    let d := ds.getD i 0
    otsChain id q i d (255 - d) (bytesAt sig (32 + 32 * i) 32))

/-- A private chain value, and the randomizer, from the seed of a tree (RFC 8554, appendix A). PRESUMED:
notes/assumptions/125.md. -/
def otsSecret (id seed : List Nat) (q i : Nat) : List Nat := sha256 (id ++ beBytes 4 q ++ beBytes 2 i ++ [0xFF] ++ seed)
def otsRandom (id seed : List Nat) (q : Nat) : List Nat := otsSecret id seed q 0xFFFD

/-- The public value of a one-time key. -/
def otsPublic (id seed : List Nat) (q : Nat) : List Nat :=
  otsEnds id q ((List.range 34).map fun i => otsChain id q i 0 255 (otsSecret id seed q i))

/-- A one-time signature: type, C, y. -/
def otsSign (id seed : List Nat) (q : Nat) (msg : List Nat) : List Nat :=
  let c := otsRandom id seed q
  let ds := otsDigits (otsHash id q c msg)
  beBytes 4 lmotsType ++ c ++
    (List.range 34).flatMap fun i => otsChain id q i 0 (ds.getD i 0) (otsSecret id seed q i)

/-! ## LMS -/

/-- A leaf, and an inner node, of a tree. -/
def lmsLeaf (id : List Nat) (n : Nat) (k : List Nat) : List Nat := sha256 (id ++ beBytes 4 n ++ [0x82, 0x82] ++ k)
def lmsInner (id : List Nat) (n : Nat) (l r : List Nat) : List Nat :=
  sha256 (id ++ beBytes 4 n ++ [0x83, 0x83] ++ l ++ r)

/-- The value of node `n` of a tree, so many levels above its leaves. -/
def lmsNode (id seed : List Nat) : Nat → Nat → List Nat
  | 0, n => lmsLeaf id n (otsPublic id seed (n - 2 ^ 20))
  | h + 1, n => lmsInner id n (lmsNode id seed h (2 * n)) (lmsNode id seed h (2 * n + 1))

/-- The public key of a tree: types, identifier, root. -/
def lmsPublic (id seed : List Nat) : List Nat :=
  beBytes 4 lmsType ++ beBytes 4 lmotsType ++ id ++ lmsNode id seed 20 1

/-- An LMS signature with leaf `q`: q, one-time signature, type, path. -/
def lmsSign (id seed : List Nat) (q : Nat) (msg : List Nat) : List Nat :=
  beBytes 4 q ++ otsSign id seed q msg ++ beBytes 4 lmsType ++
    (List.range 20).flatMap fun i => lmsNode id seed i ((2 ^ 20 + q) / 2 ^ i ^^^ 1)

/-- An LMS public key of 56 bytes and a signature of 1,772 over a message: the types and the leaf index of R346, and the
root. -/
def lmsOk (key sig msg : List Nat) : Bool :=
  let id := bytesAt key 8 16
  let q := beNat (bytesAt sig 0 4)
  let leaf := lmsLeaf id (2 ^ 20 + q) (otsFrom id q (bytesAt sig 8 1120) msg)
  let root := (List.range 20).foldl (fun (v : List Nat) i =>
    let n := (2 ^ 20 + q) / 2 ^ i
    let p := bytesAt sig (1132 + 32 * i) 32
    if n % 2 = 1 then lmsInner id (n / 2) p v else lmsInner id (n / 2) v p) leaf
  decide (key.length = 56 ∧ sig.length = 1772 ∧ beNat (bytesAt key 0 4) = lmsType ∧
      beNat (bytesAt key 4 4) = lmotsType ∧ q < 2 ^ 20 ∧ beNat (bytesAt sig 4 4) = lmotsType ∧
      beNat (bytesAt sig 1128 4) = lmsType) && decide (root = bytesAt key 24 32)

/-! ## HSS -/

/-- An HSS public key that passes R346: one or two levels, the types of R342. -/
def hssKeyOk (key : List Nat) : Bool :=
  let l := beNat (bytesAt key 0 4)
  decide (key.length = 60 ∧ (l = 1 ∨ l = 2) ∧ beNat (bytesAt key 4 4) = lmsType ∧ beNat (bytesAt key 8 4) = lmotsType)

/-- An HSS signature over a message verifies under a public key (R346). -/
def hssOk (key msg sig : List Nat) : Bool :=
  let n := beNat (bytesAt sig 0 4)
  let top := key.drop 4
  hssKeyOk key && decide (n + 1 = beNat (bytesAt key 0 4)) &&
    if n = 0 then lmsOk top (sig.drop 4) msg
    else lmsOk top (bytesAt sig 4 1772) (bytesAt sig 1776 56) && lmsOk (bytesAt sig 1776 56) (sig.drop 1832) msg

/-- The HSS public key of a two-level key. -/
def hssPublic (id seed : List Nat) : List Nat := beBytes 4 2 ++ lmsPublic id seed

/-- A two-level signature: leaf `q` of the top tree signs the second tree, whose leaf `r` signs the message. -/
def hssSign (id seed id1 seed1 : List Nat) (q r : Nat) (msg : List Nat) : List Nat :=
  let low := lmsPublic id1 seed1
  beBytes 4 1 ++ lmsSign id seed q low ++ low ++ lmsSign id1 seed1 r msg

end Sys2Proof.Machine
end

