-- ==== Sys2Proof/Machine/Records.lean ====
section
/-! DEFINITION. Signed records (11, 19) and the identity keys: the dual signature block, anchors, charters,
authorisations, firmware images, the birth record. -/

namespace Sys2Proof.Machine

open Sys2Proof

/-- ASCII without terminator. -/
def ascii (s : String) : List Nat := s.toList.map Char.toNat

/-- SHA-384 as a field of 48 bytes. -/
def sha384 (bs : List Nat) : Nat := leNat (sha2 384 bs)

/-! ## Dual signatures (R352, R353) -/

/-- The two public keys of a signer pass R346. -/
def signerOk (ecdsa hss : List Nat) : Bool := (readPoint p384 ecdsa).isSome && hssKeyOk hss

/-- A dual signature block over a message: both parts verify under the signer's keys. -/
def dualOk (ecdsa hss msg sig : List Nat) : Bool :=
  decide (sig.length = 3700) && ecdsaOk p384 ecdsa (sha2 384 msg) (sig.take 96) && hssOk hss msg (sig.drop 96)

/-! ## Identity keys (R354) -/

/-- The ECDSA private scalar of an IDGEN. PRESUMED: notes/assumptions/125.md. -/
def idScalar (birth g : Nat) : Nat :=
  beNat (kmac (leBytes 32 birth) (ascii "E" ++ [g % 256]) 640 "FNZ-ID") % (p384.n - 1) + 1

/-- Seed and identifier, as KMAC256 gives them for a tree. -/
def treeOf (key data : List Nat) : List Nat × List Nat :=
  let k := kmac key data 384 "FNZ-ID"
  (k.take 32, k.drop 32)

/-- The top tree of an IDGEN, and level-1 tree `j` under it. -/
def idTop (birth g : Nat) : List Nat × List Nat := treeOf (leBytes 32 birth) (ascii "H" ++ [g % 256])
def idLow (birth g j : Nat) : List Nat × List Nat := treeOf (idTop birth g).1 (ascii "L" ++ beBytes 4 j)

/-- The identity public keys: 97 and 60 bytes. -/
def idEcdsa (birth g : Nat) : List Nat := pointBytes p384 (pointMul p384 (idScalar birth g) (basePoint p384))
def idHss (birth g : Nat) : List Nat := hssPublic (idTop birth g).2 (idTop birth g).1

/-- The level-0 and level-1 leaves that sign under an HSS index (R356). -/
def hssLeaves (x : Nat) : Nat × Nat := (x / 2 ^ 20, x % 2 ^ 20)

/-- The dual signature block of the identity keys over a message, with an HSS index and the random bytes that hedge the
ECDSA nonce (Table 11.3). -/
def dualSign (birth g index hedge : Nat) (msg : List Nat) : List Nat :=
  let d := idScalar birth g
  let dg := sha2 384 msg
  let q := hssLeaves index
  let top := idTop birth g
  let low := idLow birth g q.1
  ecdsaSign p384 d (Config.ecdsaNonce d dg hedge % (p384.n - 1) + 1) dg ++
    hssSign top.2 top.1 low.2 low.1 q.1 q.2 msg

/-! ## Anchors (Table 11.5) -/

/-- MAGIC and VERSION. -/
def Anchor.formOk (a : Anchor) : Bool :=
  decide (a.bytes.length = 184 ∧ bytesAt a.bytes 0 4 = ascii "FANC" ∧ a.bytes.getD 4 0 = 1)
/-- Membership domain. -/
def Anchor.mdomain (a : Anchor) : Nat := leNat (bytesAt a.bytes 8 16)
/-- The anchor's public keys. -/
def Anchor.ecdsa (a : Anchor) : List Nat := bytesAt a.bytes 24 97
def Anchor.hss (a : Anchor) : List Nat := bytesAt a.bytes 124 60
/-- Both keys pass R346. -/
def Anchor.keysOk (a : Anchor) : Bool := signerOk a.ecdsa a.hss
/-- SHA-384 of the record. -/
def Anchor.digest (a : Anchor) : Nat := sha384 a.bytes

/-! ## Charters (Table 11.6) -/

/-- MAGIC and VERSION. -/
def Charter.formOk (c : Charter) : Bool :=
  decide (c.bytes.length = 3972 ∧ bytesAt c.bytes 0 4 = ascii "FCHR" ∧ c.bytes.getD 4 0 = 1)
/-- Fields of a charter. -/
def Charter.idgen (c : Charter) : Nat := c.bytes.getD 5 0
def Charter.member (c : Charter) : Nat := leNat (bytesAt c.bytes 6 2) % 8192
def Charter.mdomain (c : Charter) : Nat := leNat (bytesAt c.bytes 8 16)
def Charter.serial (c : Charter) : Nat := leNat (bytesAt c.bytes 24 16)
def Charter.seq (c : Charter) : Nat := leNat (bytesAt c.bytes 48 8)
def Charter.ecdsa (c : Charter) : List Nat := bytesAt c.bytes 56 97
def Charter.hss (c : Charter) : List Nat := bytesAt c.bytes 156 60
def Charter.anchorDigest (c : Charter) : Nat := leNat (bytesAt c.bytes 216 48)
/-- The charter digest (R359). -/
def Charter.digest (c : Charter) : Nat := sha384 c.bytes
/-- The anchor's signature over bytes 0–271. -/
def Charter.sigOk (c : Charter) (a : Anchor) : Bool :=
  dualOk a.ecdsa a.hss (c.bytes.take 272) (bytesAt c.bytes 272 3700)

/-- Every condition of R359 but the signature and the issue count. -/
def Charter.fieldsOk (c : Charter) (a : Anchor) : Bool :=
  c.formOk && decide (c.anchorDigest = a.digest ∧ c.mdomain = a.mdomain) && signerOk c.ecdsa c.hss

/-! ## Authorisations (Table 19.4) -/

/-- MAGIC, VERSION and KIND as stated, in the length of the table (R550). -/
def authForm (kind : Nat) (bs : List Nat) : Bool :=
  decide (bs.length = 3764 ∧ bytesAt bs 0 4 = ascii "FAUT" ∧ bs.getD 4 0 = 1 ∧ bs.getD 5 0 = kind)

/-- The fields of an authorisation name the module, its IDGEN and the present run (R550). -/
def authNames (c : Charter) (idgen run : Nat) (bs : List Nat) : Bool :=
  decide (leNat (bytesAt bs 8 16) = c.mdomain ∧ leNat (bytesAt bs 24 2) % 8192 = c.member ∧
    leNat (bytesAt bs 32 16) = c.serial ∧ bs.getD 6 0 = idgen ∧ leNat (bytesAt bs 48 8) = run)

/-- The anchor's signature over bytes 0–63. -/
def authSig (a : Anchor) (bs : List Nat) : Bool := dualOk a.ecdsa a.hss (bs.take 64) (bytesAt bs 64 3700)

/-! ## Firmware images (Table 19.6) -/

/-- The header keeps to its layout, and the length is that of header and payload (R553). -/
def fwHeaderOk (bs : List Nat) : Bool :=
  let n := leNat (bytesAt bs 8 4)
  decide (bs.length = 4096 + n ∧ 1 ≤ n ∧ n ≤ 50331648 ∧ bytesAt bs 0 4 = ascii "FFWI" ∧ bs.getD 4 0 = 1 ∧
    1 ≤ bs.getD 6 0 ∧ 1 ≤ bs.getD 7 0 ∧ bs.getD 7 0 ≤ bs.getD 6 0) &&
    (bytesAt bs 161 3 ++ bytesAt bs 224 32 ++ bytesAt bs 3956 140).all fun b => decide (b = 0)

/-- The payload matches its digest. -/
def fwPayloadOk (bs : List Nat) : Bool := decide (sha2 384 (bs.drop 4096) = bytesAt bs 16 48)
/-- KEY_RECORD hashes to the fused value (R361). -/
def fwKeyOk (bs : List Nat) : Bool := decide (sha384 (bytesAt bs 64 160) = Config.fwKeys)
/-- Both signature parts verify under KEY_RECORD (R361). -/
def fwSigOk (bs : List Nat) : Bool := dualOk (bytesAt bs 64 97) (bytesAt bs 164 60) (bs.take 256) (bytesAt bs 256 3700)

/-- An image as a slot holds it. -/
def fwOfInput (bs : List Nat) : Fw :=
  { svn := bs.getD 5 0, ferryVer := bs.getD 6 0, ferryMin := bs.getD 7 0, build := leNat (bytesAt bs 12 4),
    digest := sha384 bs, loads := true }

/-! ## The birth record (Table 19.3) -/

/-- Bytes 0–255 of the birth record, of a module with a birth secret. -/
def birthHead (birth : Nat) : List Nat :=
  ascii "FBRT" ++ [1, 0, 0, 0] ++ leBytes 16 Config.moduleSerial ++ leBytes 8 Config.made ++ idEcdsa birth 0 ++ [0, 0, 0] ++
    idHss birth 0 ++ leBytes 48 Config.fwKeys ++ List.replicate 16 0

/-- The birth record: its signature is Fenzaner's. -/
def birthRecord (birth : Nat) : List Nat := birthHead birth ++ padTo 3700 (Config.makerSignature.map (· % 256))

end Sys2Proof.Machine
end

