-- ==== Sys2Proof/Machine/CwyCipher.lean ====
section
/-! DEFINITION. Encryption in causeway mode (05): epochs and key slots, the key-change protocol of Table 05.8 and
R162, the spans of rows sent and received, their verdicts, and the cipher commands and events. -/

namespace Sys2Proof.Machine

open Sys2Proof

/-! ## Key slots -/

/-- The four slots of an association. -/
def TxAssoc.slots (a : TxAssoc) : List KeySlot := [a.s0, a.s1, a.s2, a.s3]
def RxAssoc.slots (a : RxAssoc) : List KeySlot := [a.s0, a.s1, a.s2, a.s3]

/-- Each slot changed. -/
def TxAssoc.mapSlots (a : TxAssoc) (f : KeySlot → KeySlot) : TxAssoc :=
  { a with s0 := f a.s0, s1 := f a.s1, s2 := f a.s2, s3 := f a.s3 }
def RxAssoc.mapSlots (a : RxAssoc) (f : KeySlot → KeySlot) : RxAssoc :=
  { a with s0 := f a.s0, s1 := f a.s1, s2 := f a.s2, s3 := f a.s3 }

/-- A key into the lowest EMPTY slot. -/
def TxAssoc.put (a : TxAssoc) (k : KeySlot) : TxAssoc :=
  if a.s0.st = 0 then { a with s0 := k } else if a.s1.st = 0 then { a with s1 := k }
  else if a.s2.st = 0 then { a with s2 := k } else { a with s3 := k }
def RxAssoc.put (a : RxAssoc) (k : KeySlot) : RxAssoc :=
  if a.s0.st = 0 then { a with s0 := k } else if a.s1.st = 0 then { a with s1 := k }
  else if a.s2.st = 0 then { a with s2 := k } else { a with s3 := k }

/-- The slot in a state, if any. -/
def TxAssoc.inSt (a : TxAssoc) (st : Nat) : Option KeySlot := a.slots.find? fun k => decide (k.st = st)
def RxAssoc.inSt (a : RxAssoc) (st : Nat) : Option KeySlot := a.slots.find? fun k => decide (k.st = st)

/-- Erase the slots in a state: no key or salt stays. -/
def eraseSt (st : Nat) (k : KeySlot) : KeySlot := if k.st = st then {} else k

/-- Every slot erased, NO_KEY (Table 05.8, last row; R563). -/
def TxAssoc.clear (a : TxAssoc) : TxAssoc :=
  { a with st := .noKey, s0 := {}, s1 := {}, s2 := {}, s3 := {}, ready := false, confirmed := false }
def RxAssoc.clear (a : RxAssoc) : RxAssoc := { a with s0 := {}, s1 := {}, s2 := {}, s3 := {} }

/-- The own member ID: of the module's charter, 0 while it holds none (R334) (R303, R304). -/
def State.member (s : State) : Nat := match s.flash.charter with | some c => c.member | none => 0

/-! ## Working keys (R160, R334) -/

/-- WK ‖ SALT of an epoch: association key, tributary, epoch and sending module's member ID (R334). -/
def epochSecret (assoc t epoch member : Nat) : List Nat :=
  kmac (leBytes 32 assoc) ([0x54, t] ++ beBytes 2 member ++ beBytes 4 epoch) 352 "FNZ-CWY-WK"

/-- The working key of an epoch, 256 bits, and its salt, 96 bits, as IV bits [95:0] take it (Table 05.1). -/
def epochKey (assoc t epoch member : Nat) : Nat := leNat ((epochSecret assoc t epoch member).take 32)
def epochSalt (assoc t epoch member : Nat) : Nat := beNat ((epochSecret assoc t epoch member).drop 32)

/-- The key-check value of an epoch (R160). -/
def epochKcv (key epoch : Nat) : Nat :=
  leNat ((kmac (leBytes 32 key) (beBytes 4 epoch) 256 "FNZ-CWY-KCV").take 8)

/-! ## Key-change messages (Table 05.5) -/

/-- A key-change message (Table 05.5), by its type, epoch and two operands: KEY_NEXT 0x11 with KCV, and SPAN_KIB and the
sender's member ID in one, KEY_READY 0x12 with KCV, KEY_CONFIRM 0x13 with CFC0, KEY_REFUSE 0x14 with its cause. DEDUCED:
notes/assumptions/100.md. -/
def keyChangeBytes (ty epoch arg1 arg2 : Nat) : List Nat :=
  let kcv := if ty = 0x11 ∨ ty = 0x12 then fldBytes (8, arg1) else List.replicate 8 0
  let cfc := if ty = 0x13 then beBytes 8 arg1
             else if ty = 0x11 then beBytes 2 (arg2 % 8192) ++ List.replicate 6 0 else List.replicate 8 0
  withCrc ([ty, 1] ++ beBytes 4 epoch ++
    [if ty = 0x11 then arg2 / 65536 else 0, if ty = 0x14 then arg1 else 0] ++ kcv ++ cfc)

/-- A key-change message goes into the message channel: its segments wait for rows of slot index 0 (R117). -/
def State.sendTmc (s : State) (h : Half) (t ty epoch arg1 arg2 : Nat) : State :=
  s.modHalf h fun x => x.setTrib t
    { x.trib t with tmcTx := (x.trib t).tmcTx ++ segmentsOf 48 (keyChangeBytes ty epoch arg1 arg2) }

/-! ## Epochs (R143, R144) -/

/-- Key of the epoch reservations: association key serial and tributary. -/
def epochResKey (serial t : Nat) : Nat := serial * 32 + t

/-- The next epoch to use: unused, and of the parity opposite to the epoch in use. -/
def TxAssoc.candidate (a : TxAssoc) : Nat :=
  match a.inSt 2 with
  | some k => if a.nextEpoch % 2 = k.epoch % 2 then a.nextEpoch + 1 else a.nextEpoch
  | none => a.nextEpoch

/-- No epoch with the required bit remains below 2^32 (R144). -/
def TxAssoc.spent (a : TxAssoc) : Bool := decide (2 ^ 32 ≤ a.candidate)

/-- Point an association at the first block of 16 that its key has not journalled (R143). DEDUCED:
notes/assumptions/37.md. -/
def State.freshEpochs (s : State) (h : Half) (t : Nat) : State :=
  let a := (s.img h).txA t
  match a.bound with
  | none => s
  | some k =>
    let blk := tabGet 0 s.flash.epochBlk (epochResKey ((s.img h).key k).serial t)
    s.modImg h fun im => im.setTx t { a with nextEpoch := 16 * blk + 1, reserved := 16 * blk + 1 }

/-- Start a key change (Table 05.8, rows 1 and 2): draw an epoch, journalling its block first, derive it into a
free slot as STAGED and send KEY_NEXT.  Called only while an epoch remains. -/
def State.startKeyChange (s : State) (h : Half) (t : Nat) : State :=
  let im := s.img h
  let a := im.txA t
  match a.bound with
  | none => s
  | some hd =>
    let ent := im.key hd
    let e := a.candidate
    let blk := (e - 1) / 16 + 1
    let wk := epochKey ent.key t e s.member
    let a' : TxAssoc := { a.put { st := 1, epoch := e, key := wk, salt := epochSalt ent.key t e s.member } with
      st := .announced, nextEpoch := e + 1, reserved := max a.reserved (16 * blk + 1), ready := false,
      mfNext := 0, orphaned := false, torn := false }
    let rk := epochResKey ent.serial t
    let fresh := decide (tabGet 0 s.flash.epochBlk rk < blk)
    let fl := if fresh then { s.flash.journal 5 with epochBlk := tabSet 0 s.flash.epochBlk rk blk } else s.flash
    (({ s with flash := fl }).modImg h fun im => im.setTx t a').sendTmc h t 0x11 e (epochKcv wk e)
      (im.spanKib t * 65536 + s.member)

/-- The key bound to a tributary takes a new child: it is LIVE (R283, R290). -/
def Image.bindLive (im : Image) (t : Nat) : Bool :=
  match (im.txA t).bound with
  | some hd => decide ((im.key hd).st = 1)
  | none => false

/-- Start a key change if the tributary is an enabled terminating one with a LIVE key bound and an epoch left. -/
def State.keyChangeIfBound (s : State) (h : Half) (t : Nat) : State :=
  let a := (s.img h).txA t
  if (s.img h).termTrib t && (s.img h).bindLive t && !a.spent then s.startKeyChange h t else s

/-- Erase every slot of both associations of a tributary and put the transmit association in NO_KEY (R563). -/
def State.eraseAssoc (s : State) (h : Half) (t : Nat) : State :=
  s.modImg h fun im => (im.setTx t (im.txA t).clear).setRx t (im.rxA t).clear

/-! ## Commands (Table 05.10) -/

/-- What a key handle shows to a command: unknown or retired, or with an invalid parent. -/
def Image.keyFails (im : Image) (hd : Nat) : List (Bool × Nat) :=
  let e := im.key hd
  [(decide (e.st = 0 ∨ e.st = 3), stKeyInvalid), (decide (e.st = 2 ∨ e.st = 4), stOrphaned)]

/-- Landing-4 keys pinned resident (R280). -/
def Image.pinned4 (im : Image) : Nat :=
  (im.keys.filter fun p => decide (hLanding p.1 = 4) && p.2.pinned).length

/-- A tributary lets go of a key: it stays pinned while another tributary is bound to it. -/
def Image.letGo (im : Image) (t : Nat) : Image :=
  match (im.txA t).bound with
  | some o => im.setKey o { im.key o with
      pinned := (List.range 32).any fun u => decide (u ≠ t ∧ (im.txA u).bound = some o) }
  | none => im

/-- Bind a resident key to a tributary and start the first key change. -/
def State.bindNow (s : State) (x : Half) (t hd : Nat) : State :=
  let s := s.modImg x fun im =>
    let im := im.letGo t
    let im := im.setKey hd { im.key hd with pinned := true, lastUse := s.now }
    im.setTx t { im.txA t with bound := some hd }
  (s.freshEpochs x t).startKeyChange x t

/-- The landing-4 key is loaded for a command that waits (R281). -/
def State.loadFor (s : State) (x : Half) (hd : Nat) (j : Job) : State :=
  (s.modImg x fun im => { im with loads := if im.loads.contains hd then im.loads else im.loads ++ [hd] }).wait x j

/-- An epoch with the required bit is left in the first block that the key `hd` has not journalled. -/
def State.epochsLeft (s : State) (x : Half) (t hd : Nat) : Bool :=
  let im := s.img x
  let blk := tabGet 0 s.flash.epochBlk (epochResKey (im.key hd).serial t)
  !({ im.txA t with nextEpoch := 16 * blk + 1 } : TxAssoc).spent

/-- The failures of a bind that the tributary and the key show, beside wrong arguments. -/
def State.bindFails (s : State) (x : Half) (t handle : Nat) : List (Bool × Nat) :=
  let im := s.img x
  let a := im.txA t
  im.keyFails handle ++
    [(decide (a.st = .announced ∨ a.st = .switched), stNoRes),
     (!(im.key handle).pinned && decide (2048 ≤ im.pinned4), stNoRes),
     (decide ((im.key handle).st ≠ 0 ∧ (im.key handle).st ≠ 3 ∧ (im.key handle).kind ≠ 5), stArgs),
     (!s.epochsLeft x t handle, stExhausted)]

/-- TRIB_CIPHER_BIND (R164, Table 05.10). -/
def execTribCipherBind (h : Hdr) (t handle : Nat) (s : State) : Host.Outcome State Fault Refusal :=
  .next <| s.command h 0x0A50
    (fun x => let im := s.img x
      !im.termTrib t || !serves h.fn (im.tribDomain t) || decide (hLanding handle ≠ 4) ||
      decide (hDomain handle ≠ im.tribDomain t))
    (fun x => if ((s.img x).txA t).bound = some handle then [] else s.bindFails x t handle)
    (fun x s =>
      let im := s.img x
      if (im.txA t).bound = some handle then s.postCpl x (cmdOf h 0x0A50) stDone cfAlready []
      else if (im.key handle).resident then (s.bindNow x t handle).done x h 0x0A50
      else s.loadFor x handle { cmd := cmdOf h 0x0A50, on := .load handle, status := stDone, cflags := 0,
                                result := [], area := none, cont := .bind t handle })

/-- TRIB_CIPHER_UNBIND (R563, Table 05.10). -/
def execTribCipherUnbind (h : Hdr) (t : Nat) (s : State) : Host.Outcome State Fault Refusal :=
  .next <| s.command h 0x0A52
    (fun x => let im := s.img x
      decide (32 ≤ t) || im.tribPass t || !serves h.fn (im.tribDomain t))
    (fun _ => [])
    (fun x s =>
      let s := (s.eraseAssoc x t).modImg x fun im =>
        let im := im.letGo t
        im.setTx t { im.txA t with bound := none }
      s.done x h 0x0A52)

/-- A key step at its firing (R161, R164): the status it completes with, and the state.  A tributary disabled since it was
armed, its key still bound, gives REJECTED_ARGS. DESIGN CHOICE: notes/assumptions/112.md. -/
def State.fireKeyStep (s : State) (x : Half) (t : Nat) : Nat × State :=
  let im := s.img x
  let a := im.txA t
  match a.bound with
  | none => (stArgs, s)
  | some hd =>
    match lowest [(decide (a.st = .announced ∨ a.st = .switched), stNoRes),
                  (decide ((im.key hd).st ≠ 1), stOrphaned), (a.spent, stExhausted),
                  (!im.termTrib t, stArgs)] with
    | some st => (st, s)
    | none => (stDone, s.startKeyChange x t)

/-! ## Key-change messages and timers -/

/-- The half that acts on a tributary's key messages: the holder. -/
def State.withHolder (s : State) (f : Half → State) : State :=
  match s.holder with
  | some x => f x
  | none => s

/-- Post TRIB_KEY_REFUSED: tributary; sent 0 or received 1; epoch; cause. -/
def State.postRefused (s : State) (x : Half) (t received e cause : Nat) : State :=
  s.post x .cores 0x0A0C [(1, t), (1, received), (4, e), (1, cause)] (.dom ((s.img x).tribDomain t))

/-- A slot that holds the key-phase bit and may not be replaced (R162): neither STAGED, nor LIVE under NOKEY or
ACF, nor idle for 8 container multiframes. -/
def slotBusy (defect : Bool) (e : Nat) (k : KeySlot) : Bool :=
  decide (k.st ≠ 0) && decide (k.epoch % 2 = e % 2) &&
    !(decide (k.st = 1) || (decide (k.st = 2) && defect) || decide (8 ≤ k.idle))

/-- The cause with which a receive association refuses a KEY_NEXT (Table 05.7), in the order 3, 6, 1, 2, 4, 5.
DEDUCED: notes/assumptions/41.md. -/
def HState.refuseCause (x : HState) (own t e n kcv m : Nat) : Option Nat :=
  let im := x.img
  let a := im.rxA t
  match (im.txA t).bound with
  | none => some 3
  | some hd =>
    let wk := epochKey (im.key hd).key t e m
    let tr := x.trib t
    if (im.key hd).st ≠ 1 then some 3
    else if m = own then some 6
    else if epochKcv wk e ≠ kcv then some 1
    else if n ≠ im.spanKib t then some 2
    else if a.slots.any fun k => decide (k.st = 1 ∧ k.epoch = e) then none
    else if a.slots.any (slotBusy (tr.nokey || tr.acf) e) then some 4
    else if e ≤ a.highest then some 5
    else none

/-- A KEY_NEXT at the receive association (R162): refused with its first cause, or answered with KEY_READY. DEDUCED:
notes/assumptions/41.md. -/
def State.keyNext (s : State) (x : Half) (t epoch spanKib kcv member : Nat) : State :=
  if !(s.img x).termTrib t then s
  else match (s.half x).refuseCause s.member t epoch spanKib kcv member with
    | some c => (s.postRefused x t 0 epoch c).sendTmc x t 0x14 epoch c 0
    | none =>
      let im := s.img x
      let a := im.rxA t
      let s :=
        if a.slots.any fun k => decide (k.st = 1 ∧ k.epoch = epoch) then s
        else
          let hd := ((im.txA t).bound).getD 0
          let wk := epochKey (im.key hd).key t epoch member
          let a := a.mapSlots fun k => if k.st ≠ 0 ∧ k.epoch % 2 = epoch % 2 then {} else k
          let salt := epochSalt (im.key hd).key t epoch member
          s.modImg x fun im => im.setRx t { a.put { st := 1, epoch, key := wk, salt } with
            highest := max a.highest epoch, orphaned := false }
      s.sendTmc x t 0x12 epoch kcv 0

/-- A KEY_READY (R161): the staged epoch switches in at the next container multiframe boundary.  One whose KCV is not the
staged epoch's is ignored. DESIGN CHOICE: notes/assumptions/110.md. -/
def State.keyReady (s : State) (x : Half) (t epoch kcv : Nat) : State :=
  let a := (s.img x).txA t
  match a.inSt 1 with
  | some k =>
    if a.st = .announced ∧ k.epoch = epoch ∧ kcv = epochKcv k.key epoch then
      s.modImg x fun im => im.setTx t { a with ready := true }
    else s
  | none => s

/-- A KEY_CONFIRM for the CURRENT epoch (R161). -/
def State.keyConfirm (s : State) (x : Half) (t epoch : Nat) : State :=
  let a := (s.img x).txA t
  match a.inSt 2 with
  | some k =>
    if a.st = .switched ∧ k.epoch = epoch then s.modImg x fun im => im.setTx t { a with confirmed := true } else s
  | none => s

/-- Send KEY_NEXT again for the staged epoch. -/
def State.resendNext (s : State) (x : Half) (t : Nat) : State :=
  let im := s.img x
  let a := im.txA t
  match a.inSt 1 with
  | some k => (s.modImg x fun im => im.setTx t { a with mfNext := 0 }).sendTmc x t 0x11 k.epoch
      (epochKcv k.key k.epoch) (im.spanKib t * 65536 + s.member)
  | none => s

/-- A KEY_REFUSE is posted (R162).  One for the staged epoch (R161) with cause 4 resends KEY_NEXT; with any other cause it
erases the staged slot. -/
def State.keyRefuse (s : State) (x : Half) (t epoch cause : Nat) : State :=
  let a := (s.img x).txA t
  let s := s.postRefused x t 1 epoch cause
  match a.inSt 1 with
  | some k =>
    if a.st = .announced ∧ k.epoch = epoch then
      if cause = 4 then s.resendNext x t
      else s.modImg x fun im => im.setTx t { a.mapSlots (eraseSt 1) with
        st := if (a.inSt 2).isSome then .run else .noKey, ready := false }
    else s
  | none => s

/-- KEY_NEXT_RX (R162). -/
def execKeyNextRx (t epoch spanKib kcv member : Nat) (s : State) : Host.Outcome State Fault Refusal :=
  onUnit (decide (t < 32)) <| s.withHolder fun x => s.keyNext x t epoch spanKib kcv member

/-- KEY_READY_RX (R161). -/
def execKeyReadyRx (t epoch kcv : Nat) (s : State) : Host.Outcome State Fault Refusal :=
  onUnit (decide (t < 32)) <| s.withHolder fun x => s.keyReady x t epoch kcv

/-- KEY_CONFIRM_RX (R161); CFC0 is a field of 64 bits. -/
def execKeyConfirmRx (t epoch cfc0 : Nat) (s : State) : Host.Outcome State Fault Refusal :=
  onUnit (decide (t < 32 ∧ cfc0 < 2 ^ 64)) <| s.withHolder fun x => s.keyConfirm x t epoch

/-- KEY_REFUSE_RX (R161). -/
def execKeyRefuseRx (t epoch cause : Nat) (s : State) : Host.Outcome State Fault Refusal :=
  onUnit (decide (t < 32)) <| s.withHolder fun x => s.keyRefuse x t epoch cause

/-- KEY_NEXT_RESEND (R161): 8 container multiframes without an answer. -/
def execKeyNextResend (t : Nat) (s : State) : Host.Outcome State Fault Refusal :=
  onUnit (decide (t < 32)) <| s.withHolder fun x =>
    let a := (s.img x).txA t
    if a.st = .announced ∧ a.ready = false ∧ 8 ≤ a.mfNext then s.resendNext x t else s

/-- The next row of the transmit side starts a container multiframe (R142). -/
def Image.atBoundary (im : Image) (t : Nat) : Bool := decide (tabGet 0 im.cfc t % 256 = 0)

/-- EPOCH_SWITCH (R161): at a container multiframe boundary the staged slot becomes CURRENT, the former CURRENT
slot OLD. -/
def execEpochSwitch (t : Nat) (s : State) : Host.Outcome State Fault Refusal :=
  onUnit (decide (t < 32)) <| s.withHolder fun x =>
    let im := s.img x
    let a := im.txA t
    match a.inSt 1 with
    | some k =>
      if a.st = .announced ∧ a.ready ∧ im.atBoundary t then
        let had := (a.inSt 2).isSome
        let a' := a.mapSlots fun v => if v.st = 2 then { v with st := 3 } else if v.st = 1 then { v with st := 2 } else v
        (s.modImg x fun im => im.setTx t { a' with
            st := if had then .switched else .run, ready := false, confirmed := false, mfSwitch := 0,
            spans := 0 }).post x .cores 0x0A08
          [(1, t), (4, k.epoch), (1, k.epoch % 2), (8, tabGet 0 im.cfc t), (1, 0)] (.dom (im.tribDomain t))
      else s
    | none => s

/-- Post TRIB_KEY_RETIRED: tributary; direction; epoch. -/
def State.postRetired (s : State) (x : Half) (t dir e : Nat) : State :=
  s.post x .cores 0x0A0B [(1, t), (1, dir), (4, e)] (.dom ((s.img x).tribDomain t))

/-- TX_KEY_RETIRE (R161): KEY_CONFIRM has arrived and 8 container multiframes have passed since the switch. -/
def execTxKeyRetire (t : Nat) (s : State) : Host.Outcome State Fault Refusal :=
  onUnit (decide (t < 32)) <| s.withHolder fun x =>
    let a := (s.img x).txA t
    match a.inSt 3 with
    | some k =>
      if a.st = .switched ∧ a.confirmed ∧ 8 ≤ a.mfSwitch then
        (s.modImg x fun im => im.setTx t { a.mapSlots (eraseSt 3) with st := .run }).postRetired x t 0 k.epoch
      else s
    | none => s

/-- TX_KEY_REVERT (R161): CONFIRM_TO container multiframes without KEY_CONFIRM, at a boundary. -/
def execTxKeyRevert (t : Nat) (s : State) : Host.Outcome State Fault Refusal :=
  onUnit (decide (t < 32)) <| s.withHolder fun x =>
    let im := s.img x
    let a := im.txA t
    match a.inSt 3 with
    | some k =>
      if a.st = .switched ∧ !a.confirmed ∧ im.confirmTo t ≤ a.mfSwitch ∧ im.atBoundary t then
        let a' := (a.mapSlots (eraseSt 2)).mapSlots fun v => if v.st = 3 then { v with st := 2 } else v
        (s.modImg x fun im => im.setTx t { a' with st := .run }).post x .cores 0x0A08
          [(1, t), (4, k.epoch), (1, k.epoch % 2), (8, tabGet 0 im.cfc t), (1, 1)] (.dom (im.tribDomain t))
      else s
    | none => s

/-- RX_KEY_RETIRE (R162): 8 container multiframes after the first span authenticated under the successor. -/
def execRxKeyRetire (t : Nat) (s : State) : Host.Outcome State Fault Refusal :=
  onUnit (decide (t < 32)) <| s.withHolder fun x =>
    let a := (s.img x).rxA t
    match a.inSt 3 with
    | some k =>
      if 8 ≤ a.mfLive then
        (s.modImg x fun im => im.setRx t (a.mapSlots (eraseSt 3))).postRetired x t 1 k.epoch
      else s
    | none => s

/-- KEY_CONFIRM_RESEND (R162): every 8 container multiframes while spans of the LIVE epoch authenticate: one has within
the last 8. DESIGN CHOICE: notes/assumptions/111.md. -/
def execKeyConfirmResend (t : Nat) (s : State) : Host.Outcome State Fault Refusal :=
  onUnit (decide (t < 32)) <| s.withHolder fun x =>
    let a := (s.img x).rxA t
    match a.inSt 2 with
    | some k =>
      if 8 ≤ a.mfConf ∧ k.idle < 8 then
        (s.modImg x fun im => im.setRx t { a with mfConf := 0 }).sendTmc x t 0x13 k.epoch a.liveCfc 0
      else s
    | none => s

/-- SPAN_EXP of R337. -/
def Image.spanExp (im : Image) : Nat := bits (im.reg 0 0xA00014) 5 0

/-- SPAN_COUNT_REKEY (R337): the CURRENT epoch has reached 2^SPAN_EXP spans. -/
def execSpanCountRekey (t : Nat) (s : State) : Host.Outcome State Fault Refusal :=
  onUnit (decide (t < 32)) <| s.withHolder fun x =>
    let a := (s.img x).txA t
    if a.st = .run ∧ 2 ^ (s.img x).spanExp ≤ a.spans then s.keyChangeIfBound x t else s

/-! ## Rows sent (R145–R152) -/

/-- What encrypting the side sequence of a frame has done so far: the span in progress, whether it is broken (R152), the
words sent, the tags placed, and the spans encrypted to their end. -/
structure TxAcc where
  span  : TxSpan
  brk   : Bool
  words : List Nat
  tags  : List ((Nat × Nat) × Nat)
  spans : Nat
deriving DecidableEq, Repr

/-- A span's share of a frame, encrypted (R148); the words of a broken span are all ones and its tag word 0x00 (R152). -/
def txPart (slot : KeySlot) (trib size n k cfc : Nat) (jcs seq : List Nat) (a : TxAcc) (p : SpanPart) : TxAcc :=
  let sp : TxSpan := if p.begins then {} else a.span
  let brk := a.brk && !p.begins
  let key := leBytes 32 slot.key
  let id := spanId k n (cfc - cfc % 256) p.i
  let iv := spanIv slot.salt id.1 id.2
  let ws := slice seq p.lo p.hi
  let c := if brk then List.replicate ws.length onesWord
           else gcmCrypt key iv (multiframeIndex k cfc p.lo - (spanBounds k n p.i).1) ws
  let sp : TxSpan := { cipher := sp.cipher ++ c, jcs := sp.jcs ++ partJcs k jcs p.lo p.hi }
  let tag := if brk then 0
             else gcmTag key iv (spanAad trib size n slot.epoch id.1 id.2 sp.cipher.length sp.jcs) sp.cipher
  { span := if p.ends then {} else sp, brk, words := a.words ++ c,
    tags := if p.ends then a.tags ++ [(tagPlace k n p.i, tag)] else a.tags,
    spans := a.spans + b2n (p.ends && !brk) }

/-- The side sequence of a frame encrypted under the CURRENT slot. -/
def txRows (slot : KeySlot) (trib size n k cfc : Nat) (jcs seq : List Nat) (span : TxSpan) (brk : Bool) : TxAcc :=
  (spanParts k n cfc).foldl (txPart slot trib size n k cfc jcs seq) { span, brk, words := [], tags := [], spans := 0 }

/-! ## Rows received (R153–R155) -/

/-- The key slot a decided key-phase bit selects (R153). -/
def RxAssoc.selKp (a : RxAssoc) (kp : Bool) : Option Nat :=
  let fits := fun (k : KeySlot) => decide (k.epoch % 2 = b2n kp)
  let live := a.slots.findIdx? fun k => decide (k.st = 1 ∨ k.st = 2) && fits k
  match live with
  | some i => some i
  | none => a.slots.findIdx? fun k => decide (k.st = 3) && fits k

/-- The slot that a row or a span selects. DEDUCED: notes/assumptions/43.md. -/
def RxAssoc.sel (a : RxAssoc) (i : Option Nat) : Option KeySlot :=
  match i with
  | some j => match a.slots[j]? with
    | some k => if k.st = 0 then none else some k
    | none => none
  | none => none

/-- The client egress of a terminating tributary carries the delivered stream: its side is not failed (R135), no CAIS
(R136), no forced receive substitute (R138). -/
def HState.delivers (x : HState) (t : Nat) : Bool :=
  x.img.termTrib t && !x.sideFailed t .A && !(x.side t .A).cais.on && decide (tabGet 0 x.img.forced (2 * t + 1) ≠ 2)

/-- The rows of one frame as the cipher stage takes them (R153, R154): CFC, whether it breaks with the last rows', the
slot that the decided KP selects, decided AIS, in these rows or the last, whether a row arrived while the side was failed,
JC by slot, the side sequence and the tag words of each slot. -/
structure RxFrameRows where
  cfc   : Nat
  gap   : Bool
  sel   : Option Nat
  ais   : Bool
  edge  : Bool
  late  : Bool
  jcs   : List Nat
  seq   : List (Nat × Bool)
  tags  : List (List (Nat × Bool))
deriving DecidableEq, Repr

/-- The rows of a frame, from one row of each slot; the flags are those of slot index 0 (R116). -/
def HState.frameRows (x : HState) (t : Nat) (rows : List RxRow) : RxFrameRows :=
  let r : RxRow := rows.headD { start := 0, words := [], cfc := 0, jc := 0, ais := false, kp := false, failed := false }
  { cfc := r.cfc,
    gap := decide ((x.trib t).lastCfc ≠ some ((r.cfc + 2 ^ 64 - 1) % 2 ^ 64)) || rows.any fun v => decide (v.cfc ≠ r.cfc),
    sel := (x.img.rxA t).selKp r.kp, ais := r.ais, edge := r.ais || (x.trib t).lastCut, late := rows.any (·.failed),
    jcs := rows.map (·.jc),
    seq := sideSeq (0, false) (x.img.tribSlots t) (rows.map fun v => rowData (0, false) v.words),
    tags := rows.map fun v => rowTags (0, false) v.words }

/-- A span with a break in the run of CFC: broken already where AIS rows or a failure of the side stand on one side of the
break, whose CFC need not go on (R131), else broken by non-consecutive CFC (R154). DEDUCED: notes/assumptions/43.md. -/
def RxSpan.cut (v : RxSpan) (edge : Bool) : RxSpan :=
  if v.ais || v.failed then v else if edge then { v with ais := true } else { v with gap := true }

/-- A span's share of the rows of a frame, decrypted under the slot `slot`, if the rows select one.  A break in the run of
CFC ends the span in progress.  What a row without a key decrypts to is free. DESIGN CHOICE: notes/assumptions/109.md. -/
def rxPart (slot : Option KeySlot) (n k fv : Nat) (f : RxFrameRows) (r : TribSt) (p : SpanPart) : TribSt :=
  let id := spanId k n (f.cfc - f.cfc % 256) p.i
  let fresh : RxSpan := { cfc0 := id.1, q0 := id.2 }
  let r := if f.gap || p.begins then
      { r with spans := r.spans ++ r.rxSpan.toList.map fun v => v.cut f.edge, rxSpan := none } else r
  let sp : RxSpan := r.rxSpan.getD (if p.begins then fresh else fresh.cut f.edge)
  let ws := slice f.seq p.lo p.hi
  let plain := match slot with
    | some v => gcmCrypt (leBytes 32 v.key) (spanIv v.salt id.1 id.2) (multiframeIndex k f.cfc p.lo - (spanBounds k n p.i).1)
        (ws.map (·.1))
    | none => (List.range ws.length).map fun i => Config.freeNat (fv + p.lo + i) % 2 ^ 128
  let tag := ((f.tags.getD (tagPlace k n p.i).2 []).getD (tagPlace k n p.i).1 (0, false))
  let sp : RxSpan := { sp with
    cipher := sp.cipher ++ ws.map (·.1), bits := sp.bits ++ seqBits k f.jcs p.lo plain,
    jcs := sp.jcs ++ partJcs k f.jcs p.lo p.hi, slots := sp.slots ++ [f.sel], ais := sp.ais || f.ais,
    failed := sp.failed || f.late, uncorr := sp.uncorr || ws.any (·.2) || (p.ends && tag.2), tag := tag.1 }
  if p.ends then { r with spans := r.spans ++ [sp], rxSpan := none } else { r with rxSpan := some sp }

/-- Stream bits that leave the cipher stage before any verdict: those that spans gained (R155). -/
def gainedBits (before after : TribSt) : List Bool :=
  let had := (before.rxSpan.toList.map (·.bits)).flatten.length + (before.spans.map (·.bits)).flatten.length
  ((after.spans.map (·.bits)).flatten ++ (after.rxSpan.toList.map (·.bits)).flatten).drop had

/-- `TRB_EGRESS_CFG.BW`. -/
def Image.egressBw (im : Image) : Nat := bits (im.reg 0 0x402000) 1 0

/-- The rows of one frame go through the cipher stage (R153–R155): in release-then-poison mode their stream bits leave for
the client egress, in verify-first mode they wait for the verdict; the rate loop follows the bits delivered (R111). -/
def State.decryptRows (s : State) (h : Half) (t : Nat) (rows : List RxRow) : State :=
  let x := s.half h
  let im := x.img
  let k := im.tribSlots t
  let f := x.frameRows t rows
  let r := (spanParts k (im.spanKib t) f.cfc).foldl
    (rxPart ((im.rxA t).sel f.sel) (im.spanKib t) k s.fv f) (x.trib t)
  let out := gainedBits (x.trib t) r
  let loop := if x.sideFailed t .A then r.loop else Config.rateLoop im.egressBw r.loop out.length
  let s := { s with fv := s.fv + 972 * k }.modHalf h fun y => y.setTrib t { r with lastCfc := some f.cfc, lastCut := f.ais, loop }
  if x.delivers t && !im.verifyFirst t && decide (s.obeyed = some h) then s.emit (.stream t out) else s

/-! ## Verdicts (R154–R158) -/

/-- The span is broken (R154). DEDUCED: notes/assumptions/42.md. -/
def RxSpan.broken (v : RxSpan) : Bool := v.ais || v.failed || v.gap

/-- (CFC0, q0) is not greater than that of the last span authenticated under the slot. -/
def KeySlot.replay (k : KeySlot) (v : RxSpan) : Bool :=
  k.authed && (decide (v.cfc0 < k.lastCfc) || (decide (v.cfc0 = k.lastCfc) && decide (v.q0 ≤ k.lastQ)))

/-- The slot that a span's rows select, and rows that select different slots (R153). -/
def RxSpan.slot (v : RxSpan) : Option Nat := v.slots.headD none
def RxSpan.slotsDiffer (v : RxSpan) : Bool := v.slots.any fun i => decide (i ≠ v.slot)

/-- The tag verifies under a slot (R148). -/
def RxSpan.tagOk (v : RxSpan) (im : Image) (t : Nat) (k : KeySlot) : Bool :=
  decide (v.tag = gcmTag (leBytes 32 k.key) (spanIv k.salt v.cfc0 v.q0)
    (spanAad t (im.tribSize t) (im.spanKib t) k.epoch v.cfc0 v.q0 v.cipher.length v.jcs) v.cipher)

/-- The tag of a span verifies under the slot that it selects. -/
def Image.spanTagOk (im : Image) (t : Nat) (v : RxSpan) : Bool :=
  match (im.rxA t).sel v.slot with
  | some k => v.tagOk im t k
  | none => false

/-- The span replays one that its slot has authenticated. -/
def Image.spanReplay (im : Image) (t : Nat) (v : RxSpan) : Bool :=
  match (im.rxA t).sel v.slot with
  | some k => k.replay v
  | none => false

/-- The span is failed (R154). DEDUCED: notes/assumptions/43.md. -/
def Image.spanFailed (im : Image) (t : Nat) (v : RxSpan) : Bool :=
  v.broken || v.slotsDiffer || !im.spanTagOk t v || v.uncorr || im.spanReplay t v

/-- The span fails only because it is broken by decided AIS or by arriving while the side is failed (R167).  The tag of such
a span is not judged, nor the CFC of an AIS row. DEDUCED: notes/assumptions/43.md. -/
def Image.spanExempt (im : Image) (t : Nat) (v : RxSpan) : Bool :=
  (v.ais || v.failed) && !v.gap && !v.uncorr && (v.ais || !im.spanReplay t v)

/-- Cause in TRIB_AUTH_FAIL: tag 0, uncorrectable codeword 1, replay 2, non-consecutive CFC 3. DEDUCED:
notes/assumptions/43.md. -/
def Image.spanCause (im : Image) (t : Nat) (v : RxSpan) : Nat :=
  if v.gap then 3
  else if v.uncorr then 1
  else if im.spanTagOk t v && !v.slotsDiffer && im.spanReplay t v then 2
  else 0

/-- An authenticated span under slot `j` (R154, R162): the slot keeps its position, a STAGED slot becomes LIVE
and the former LIVE slot OLD. -/
def RxAssoc.auth (a : RxAssoc) (j : Nat) (v : RxSpan) : RxAssoc :=
  let hit : KeySlot → KeySlot := fun k => { k with lastCfc := v.cfc0, lastQ := v.q0, authed := true, idle := 0 }
  let staged := match a.slots[j]? with | some k => decide (k.st = 1) | none => false
  let a := if staged then a.mapSlots fun k => if k.st = 2 then { k with st := 3 } else k else a
  let g : Nat → KeySlot → KeySlot := fun i k => if i = j then (if staged then { hit k with st := 2 } else hit k) else k
  let a := { a with s0 := g 0 a.s0, s1 := g 1 a.s1, s2 := g 2 a.s2, s3 := g 3 a.s3 }
  if staged then { a with mfLive := 0, mfConf := 0, liveCfc := v.cfc0 } else a

/-- ACF after a span that is not broken (R158). DEDUCED: notes/assumptions/43.md. -/
def TribSt.acfRun (r : TribSt) (n : Nat) (failed : Bool) : TribSt :=
  if failed then
    let k := r.failRun + 1
    { r with failRun := k, authRun := 0, acf := r.acf || decide (n ≤ k) }
  else
    let k := r.authRun + 1
    { r with authRun := k, failRun := 0, acf := r.acf && decide (k < n) }

/-! ## Poisoning (R157) -/

/-- The frame in progress at block `b`: where it started. -/
def frameAt (bs : List Blk66) (b : Nat) : Option Nat :=
  (bs.take b).zipIdx.foldl (fun a p =>
    match p.1.kind with
    | .start => some p.2
    | .terminate | .idle => none
    | _ => a) none

/-- A block at which the frame in progress has ended: a start block, or one of idle or ordered-set characters alone. -/
def blkBetween (v : Blk66) : Bool := decide (v.kind = .start ∨ v.kind = .idle)

/-- Blocks replaced until the frame in progress ends, from block `b` on. -/
def endFrame : List Blk66 → Nat → List Nat
  | [], _ => []
  | v :: r, b => if blkBetween v then [] else if v.kind = .terminate then [b] else b :: endFrame r (b + 1)

/-- The blocks that a failed span's procedure replaces (R157). -/
def poisoned (verifyFirst : Bool) (bs : List Blk66) : List Nat :=
  let p := (bs.findIdx? fun v => if verifyFirst then v.inSpan else !v.handed).getD bs.length
  let inS := ((bs.drop p).takeWhile (·.inSpan)).length
  let b := p + inS
  let after := match frameAt bs b with
    | none => true
    | some f => !((bs.drop f).any (·.inSpan)) && !((bs[f]?).any (·.failed))
  if !verifyFirst && decide (inS = 0) && after then []
  else (List.range inS).map (p + ·) ++ endFrame (bs.drop b) b

/-- Frames that the procedure ends: each has a block among those replaced. DEDUCED: notes/assumptions/113.md. -/
def framesEnded (bs : List Blk66) (replaced : List Nat) : Nat :=
  let of : Nat → Option Nat := fun b =>
    match bs[b]? with
    | some v => if v.kind = .start then some b else if v.kind = .idle then none else frameAt bs b
    | none => none
  ((replaced.map of).filter Option.isSome).eraseDups.length

/-- Report a failed span (R167): at most one TRIB_AUTH_FAIL per container multiframe, with the count absorbed. -/
def State.reportSpan (s : State) (h : Half) (t : Nat) (v : RxSpan) (ended : Nat) : State :=
  let r := (s.half h).trib t
  if r.failPosted then s.modHalf h fun x => x.setTrib t { r with absorbed := r.absorbed + 1 }
  else
    (s.modHalf h fun x => x.setTrib t { r with failPosted := true, absorbed := 0 }).postEv h .cores
      { code := 0x0A09, origin := h, absorbed := r.absorbed,
        payload := [(1, h.idx), (1, t), (8, v.cfc0), (2, v.q0), (1, (s.img h).spanCause t v), (4, ended)],
        route := .dom ((s.img h).tribDomain t), key := 0, times := (s.half h).times }

/-- A failed span (R154, R157, R158, R167): counted, its blocks poisoned, ACF moved, reported. -/
def State.failSpan (s : State) (h : Half) (t : Nat) (v : RxSpan) (blocks : List Blk66) : State :=
  let im := s.img h
  let gone := if (s.half h).delivers t then poisoned (im.verifyFirst t) blocks else []
  let ended := framesEnded blocks gone
  let s := s.count h 3 t (if v.broken then 2 else 1)
  let s := if im.spanReplay t v && !v.broken then s.count h 3 t 3 else s
  let s := s.count h 3 t 4 ended
  let s := if gone = [] || decide (s.obeyed ≠ some h) then s else s.emit (.poison t gone)
  let s := if v.broken then s
    else (s.modHalf h fun x => x.setTrib t ((x.trib t).acfRun (im.acfN t) true)).noteCipher h t
  if im.spanExempt t v then s else s.reportSpan h t v ended

/-- An authenticated span (R154, R158, R162). -/
def State.passSpan (s : State) (h : Half) (t : Nat) (v : RxSpan) : State :=
  let a := (s.img h).rxA t
  let j := v.slot.getD 0
  let k := a.sel v.slot
  let s := (s.count h 3 t 0).modHalf h fun x =>
    ({ x with img := x.img.setRx t (a.auth j v) }).setTrib t ((x.trib t).acfRun (x.img.acfN t) false)
  let s := if (k.map (·.st)) == some 1 && s.isActive h then
      s.sendTmc h t 0x13 ((k.map (·.epoch)).getD 0) v.cfc0 0 else s
  s.noteCipher h t

/-- SPAN_VERDICT (R154): the verdict of the span that has waited longest; in verify-first mode its stream bits leave now
(R155).  `blocks`: the 66b blocks of the client stream from the start of the frame in progress as the span began. -/
def execSpanVerdict (h : Half) (t : Nat) (blocks : List Blk66) (s : State) : Host.Outcome State Fault Refusal :=
  onUnit (decide (t < 32)) <|
    let x := s.half h
    match (x.trib t).spans with
    | [] => s
    | v :: rest =>
      if !x.up || !x.img.termTrib t then s
      else
        let s := s.modHalf h fun y => y.setTrib t { y.trib t with spans := rest }
        let s := if x.delivers t && x.img.verifyFirst t && decide (s.obeyed = some h) then s.emit (.stream t v.bits) else s
        (if x.img.spanFailed t v then s.failSpan h t v blocks else s.passSpan h t v).noteSide h t .A

end Sys2Proof.Machine
end

