-- ==== Sys2Proof/Machine/Ferry.lean ====
section
/-! DEFINITION. The ferry link's stripe (R69): ferry blocks over the lanes in use, the alignment control blocks, and the
deskew of the receiving half. -/

namespace Sys2Proof.Machine

open Sys2Proof

/-- A block on a ferry lane: a block of the ferry protocol, or the alignment control block with its lane's number. -/
inductive FerryBlock where
  | data (payload : Nat)
  | align (lane : Nat)
deriving DecidableEq, Repr

/-- The row of a stripe over `n` lanes in which ferry block `m` goes: each row gives every lane a block, and one row in
16,384 is the row of alignment blocks.  DEDUCED: notes/assumptions/107.md. -/
def stripeRow (n m : Nat) : Nat := m / n + m / n / 16383 + 1

/-- The lane, in ascending order of the lanes in use, on which ferry block `m` goes. -/
def stripeLane (lanes : List Nat) (m : Nat) : Nat := lanes.getD (m % lanes.length) 0

/-- What the sending half sends on the `i`-th of its lanes in use in row `j`, for a stream of ferry blocks. -/
def stripe (lanes : List Nat) (blocks : Nat → Nat) (i j : Nat) : FerryBlock :=
  if j % 16384 = 0 then .align (lanes.getD i 0) else .data (blocks ((j - 1 - j / 16384) * lanes.length + i))

/-- Ferry block `m` as the receiving half takes it from the deskewed lanes. -/
def unstripe (n : Nat) (lane : Nat → Nat → FerryBlock) (m : Nat) : Option Nat :=
  match lane (m % n) (stripeRow n m) with
  | .data v => some v
  | .align _ => none

/-- The delay that deskew gives each lane, from the arrival of its alignment block in ps: none where the skew between two
lanes is above 64 ns. -/
def ferryDelays (at_ : List Int) : Option (List Int) :=
  match at_.max?, at_.min? with
  | some hi, some lo => if hi - lo ≤ 64000 then some (at_.map fun a => hi - a) else none
  | _, _ => none

/-- The lanes that a half receives on, in ascending order. -/
def HState.ferryUsed (x : HState) : List Nat :=
  (List.range 8).filter fun l => (tabGet {} x.ferry l : FerryLane).inUse

/-- The arrivals of the alignment blocks on the lanes in use, and on a further lane. -/
def HState.ferryArrivals (x : HState) (lane : Nat) (at_ : Int) : List Int :=
  at_ :: (x.ferryUsed.filter (· ≠ lane)).map fun l => (tabGet {} x.ferry l : FerryLane).at_

end Sys2Proof.Machine
end

