-- ==== Sys2Proof/Machine/Lanes.lean ====
section
/-! DEFINITION. Serial lanes and the ferry link (02), the pace governor and the handshake FIFOs (01), and what a
lane that leaves ACTIVE or loses its signal does to frame alignment (R94). -/

namespace Sys2Proof.Machine

open Sys2Proof

/-! ## What a change on the line sets going (03) -/

/-- The lane is in ACTIVE: it has reached ACTIVE and no write moves it elsewhere (R61, R94). DEDUCED:
notes/assumptions/89.md. -/
def LaneSt.inActive (l : LaneSt) : Bool := decide (l.pwrNow = 2 ∧ l.target = 2)

/-- Post CWY_LANE_ALIGN: half; lane; SYNC gained 0 or lost 1; MFAS at the change. -/
def State.postAlign (s : State) (h : Half) (k lost mfas : Nat) : State :=
  s.postLevel h 0x0A01 k [(1, h.idx), (1, k), (1, lost), (1, mfas)]

/-- No lane of a lane's group is left in SYNC: no valid GOB arrives (GOB_VALID). -/
def HState.gobLost (x : HState) (k : Nat) : HState :=
  match x.img.laneGroup k with
  | some g => if (x.img.groupLanes g).any fun j => (x.rxLane j).sync then x
              else x.setGrp g { x.grp g with gobValid := false, blocks := [] }
  | none => x

/-- Put line lane `k` into HUNT with no sounding (R93, R94); what it had accepted counts afresh. DEDUCED:
notes/assumptions/44.md. -/
def State.huntLane (s : State) (h : Half) (k : Nat) : State :=
  let l := (s.half h).rxLane k
  let s := s.count h 1 (32 + k) 8 l.snds.length
  let s := if l.hail.isSome then s.count h 1 (32 + k) 9 else s
  let s := s.modHalf h fun x => x.setRxLane k
    { shown := l.shown, deg := l.deg, lod := l.lod, advance := l.advance, rei := 0, rdi := { on := l.rdi.on },
      rdeg := { on := l.rdeg.on }, wAt := l.wAt, wFrames := l.wFrames, wBip := l.wBip, wCw := l.wCw, wUncorr := l.wUncorr,
      wBad := true }
  let s := s.modHalf h fun x => x.gobLost k
  if l.sync then s.postAlign h k 1 l.mfas else s

/-- LID of every lane under R79, and LOD and DEG cleared on a lane of no enabled group (R103). -/
def HState.updLids (x : HState) : HState :=
  (List.range 32).foldl (fun x k =>
    let l := x.rxLane k
    match x.img.laneGroup k with
    | some g => x.setRxLane k { l with lid := x.lidCond g k }
    | none => x.setRxLane k { l with lid := false, lod := false, deg := false }) x

/-- A lane of group `g` that is admissible now and was not, or a partition that is exceeded (R99). -/
def HState.mustRebuild (x before : HState) (g : Nat) : Bool :=
  ((x.img.groupLanes g).any fun k => x.admissible g k && !before.admissible g k) || !x.feasible g

/-- After a change on the line: identities, deskew sets (R99), and every defect event (R102, R134).  Where the partition is
exceeded, the enabled group of the lowest number rebuilds its set first. DESIGN CHOICE: notes/assumptions/114.md. -/
def State.lineChanged (s : State) (h : Half) (before : HState) : State :=
  let s := s.modHalf h HState.updLids
  let s := (List.range 16).foldl (fun s g =>
    if (s.img h).groupEn g && (s.half h).mustRebuild before g then s.rebuildSet h g false else s) s
  s.noteAll h

/-! ## Power states (R60–R62, R562) -/

/-- The lanes move toward the power states that the paired registers give (R61); a line lane that so leaves ACTIVE
hunts (R94). DEDUCED: notes/assumptions/48.md. -/
def State.aimLanes (s : State) (h : Half) : State :=
  let before := s.half h
  let s := (List.range 64).foldl (fun s n =>
    let l := (s.half h).lane n
    let want := (s.img h).lanePwr n
    if l.target = want then s
    else
      let s := s.modHalf h fun x => x.setLane n { l with target := want }
      if 32 ≤ n ∧ l.inActive then s.huntLane h (n - 32) else s) s
  s.lineChanged h before

/-- The lane reaches the power state that it moves toward. -/
def LaneSt.arrive (l : LaneSt) (step : Nat) : LaneSt :=
  if l.target = 0 then
    { l with pwrNow := 0, signal := false, lock := false, adapted := false, seen := false, searched := false }
  else { l with pwrNow := l.target, ctle := if l.pwrNow = 0 then step else l.ctle }

/-- The written CTLE step applies to a running lane while CTLE_AUTO is 0 (R52). -/
def HState.setCtle (x : HState) (n : Nat) : HState :=
  if x.img.ctleAuto n || decide ((x.lane n).pwrNow = 0) then x
  else x.setLane n { x.lane n with ctle := x.img.ctleStep n }

/-- LANE_PWR_MOVE_DONE (R562). -/
def execLanePwrMoveDone (half : Half) (lane : Nat) (s : State) : Host.Outcome State Fault Refusal :=
  onUnit (decide (lane < 64)) <|
    let x := s.half half
    let l := x.lane lane
    if !x.up || decide (l.pwrNow = l.target) then s
    else
      let s := s.modHalf half fun y => y.setLane lane (l.arrive (x.img.ctleStep lane))
      if 32 ≤ lane then (s.huntLane half (lane - 32)).lineChanged half x else s

/-! ## Signal and adaptation (R52, R53, R62) -/

/-- Key of a slipway (R44, R63). -/
def slipKey (lane : Nat) (d : Dir) : Nat := 2 * lane + d.idx

/-- Signal detect and clock lock of a lane out of DEEP change (R53); without both the lane is not adapted, and a line lane
hunts (R94). -/
def State.signalSeen (half : Half) (lane : Nat) (signal lock : Bool) (s : State) : State :=
  let x := s.half half
  let l := x.lane lane
  let dead := (tabGet {} s.slips (slipKey lane .rx) : Slip).stopped
  if !x.up || decide (l.pwrNow = 0) || (dead && signal) || decide (l.signal = signal ∧ l.lock = lock) then s
  else
    let seen := l.seen || signal
    let ok := signal && lock
    let s := s.modHalf half fun y => y.setLane lane
      { l with signal, lock, seen, adapted := l.adapted && ok }
    let s := if seen then s.postLevel half 0x0D06 lane [(1, half.idx), (1, lane), (1, b2n signal), (1, b2n lock)]
      else s
    if 32 ≤ lane then (if ok then s else s.huntLane half (lane - 32)).lineChanged half x else s

/-- The lanes of a cage lose their signal in both halves (R524). -/
def State.cageDark (s : State) (c : Nat) : State :=
  (List.range 8).foldl (fun s i => (s.signalSeen .A (8 * c + i) false false).signalSeen .B (8 * c + i) false false) s

/-- SIGNAL_CHANGE (R53). -/
def execSignalChange (half : Half) (lane : Nat) (signal lock : Bool) (s : State) :
    Host.Outcome State Fault Refusal :=
  onUnit (decide (lane < 64)) (s.signalSeen half lane signal lock)

/-- LANE_ADAPTED (R53): the adaptation keeps the CTLE step that it chose, or the written one (R52). DESIGN CHOICE:
notes/assumptions/6.md. -/
def execLaneAdapted (half : Half) (lane ctle eyeV eyeH : Nat) (s : State) : Host.Outcome State Fault Refusal :=
  onUnit (decide (lane < 64 ∧ ctle ≤ 40 ∧ eyeV < 256 ∧ eyeH < 256)) <|
    let x := s.half half
    let l := x.lane lane
    if !x.up || l.adapted || !(l.signal && l.lock) || decide (l.pwrNow = 0) then s
    else
      let step := if x.img.ctleAuto lane then ctle else x.img.ctleStep lane
      (s.modHalf half fun y => y.setLane lane
          { l with adapted := true, searched := true, ctle := step, eyeV, eyeH }).postLevel half 0x0D07 lane
        [(1, half.idx), (1, lane), (1, step), (1, eyeV), (1, eyeH)]

/-- CLIENT_PCS_RESTART_DONE (R49). -/
def execClientPcsRestartDone (half : Half) (lane : Nat) (s : State) : Host.Outcome State Fault Refusal :=
  onUnit (decide (lane < 32)) <|
    s.modHalf half fun x => x.setLane lane { x.lane lane with pcsRestart := false }

/-! ## Slipways (R67) -/

/-- SLIPWAY_SUPPLY (R67): supply 1 or 2 of a slipway is lost or restored; the active half posts it. -/
def execSlipwaySupply (lane : Nat) (dir : Dir) (supply : Nat) (good : Bool) (s : State) :
    Host.Outcome State Fault Refusal :=
  onUnit (decide (lane < 64 ∧ (supply = 1 ∨ supply = 2))) <|
    let v : Slip := tabGet {} s.slips (slipKey lane dir)
    let was := if supply = 1 then v.lost1 else v.lost2
    if was = !good then s
    else
      let v' := if supply = 1 then { v with lost1 := !good } else { v with lost2 := !good }
      let s := { s with slips := tabSet {} s.slips (slipKey lane dir) v' }
      match s.holder with
      | some x => s.postLevel x 0x0D09 (2 * slipKey lane dir + supply)
          [(1, lane), (1, dir.idx), (1, supply), (1, b2n good)]
      | none => s

/-- The input that a slipway selects is sending (R66, R67): of a transmit slipway, the lane of the obeyed half in ACTIVE;
a receive slipway's input is the cage pin. -/
def State.slipFed (s : State) (lane : Nat) (dir : Dir) : Bool :=
  match dir, s.obeyed with
  | .tx, some h => (s.half h).up && decide (((s.half h).lane lane).pwrNow = 2)
  | .tx, none => false
  | .rx, _ => true

/-- SLIPWAY_FAULT (R67): both supplies are lost, or the output activity is missing while the selected input is sending;
the lane stays stopped.  The sense that failed is 0 for the supplies and 1 for the activity. DEDUCED:
notes/assumptions/48.md. DESIGN CHOICE: notes/assumptions/106.md. -/
def execSlipwayFault (lane : Nat) (dir : Dir) (sense : SlipSense) (s : State) : Host.Outcome State Fault Refusal :=
  onUnit (decide (lane < 64)) <|
    let v : Slip := tabGet {} s.slips (slipKey lane dir)
    let dead := match sense with | .supplies => v.lost1 && v.lost2 | .activity => s.slipFed lane dir
    if !dead || v.stopped then s
    else
      let v' := match sense with
        | .supplies => { v with stopped := true }
        | .activity => { v with stopped := true, inactive := true }
      let s := { s with slips := tabSet {} s.slips (slipKey lane dir) v' }
      match s.holder with
      | some x => s.postLevel x 0x0D08 (slipKey lane dir)
          [(1, lane), (1, dir.idx), (1, match sense with | .supplies => 0 | .activity => 1)]
      | none => s

/-! ## The ferry link (R68–R70) -/

/-- Set a ferry receive lane and post FERRY_LANE: half; lane; locked 0 or unlocked 1; lanes in use. -/
def State.ferryEvent (s : State) (h : Half) (lane : Nat) (v : FerryLane) : State :=
  let s := s.modHalf h fun x => { x with ferry := tabSet {} x.ferry lane v }
  s.postLevel h 0x0D0A lane [(1, h.idx), (1, lane), (1, b2n (!v.locked)),
    (1, ((s.half h).ferry.filter (·.2.inUse)).length)]

/-- Headers 0b01 and 0b10 are valid. -/
def headerOk (hd : Nat) : Bool := decide (hd = 1 ∨ hd = 2)

/-- The block boundary slips by one bit and the lane hunts (Table 02.5); a lane that drops lock leaves use (R70). -/
def FerryLane.slip (f : FerryLane) : FerryLane := { slips := (f.slips + 1) % 66 }

/-- One sync header at a ferry receive lane (Table 02.5). -/
def FerryLane.header (f : FerryLane) (hd : Nat) : FerryLane :=
  if f.locked then
    let bad := f.bad + b2n (!headerOk hd)
    if bad = 16 then f.slip
    else if f.count + 1 = 64 then { f with count := 0, bad := 0 }
    else { f with count := f.count + 1, bad }
  else if !headerOk hd then f.slip
  else if f.count + 1 = 64 then { f with locked := true, count := 0, bad := 0 }
  else { f with count := f.count + 1 }

/-- Headers at a ferry receive lane, in order. -/
def FerryLane.headers (f : FerryLane) (hds : List Nat) : FerryLane := hds.foldl FerryLane.header f

/-- Loss of signal or clock lock at a ferry receive lane (Table 02.5). -/
def FerryLane.drop (f : FerryLane) : FerryLane := { slips := f.slips }

/-- A ferry receive lane moves on; the gain and the loss of lock are posted. -/
def State.ferryMove (s : State) (h : Half) (lane : Nat) (v : FerryLane) : State :=
  if (tabGet {} (s.half h).ferry lane : FerryLane).locked = v.locked then
    s.modHalf h fun x => { x with ferry := tabSet {} x.ferry lane v }
  else s.ferryEvent h lane v

/-- FERRY_LANE_LOCK (R68): headers up to the one that declares lock. -/
def execFerryLaneLock (half : Half) (v : FerryHeaders) (s : State) : Host.Outcome State Fault Refusal :=
  onUnit (decide (v.lane < 8)) <|
    let x := s.half half
    if !x.up then s else s.ferryMove half v.lane ((tabGet {} x.ferry v.lane : FerryLane).headers v.headers)

/-- FERRY_LANE_UNLOCK (R68, R70): headers up to the one that drops lock, or a loss of signal after them; the lane leaves
use. -/
def execFerryLaneUnlock (half : Half) (v : FerryHeaders) (s : State) : Host.Outcome State Fault Refusal :=
  onUnit (decide (v.lane < 8)) <|
    let x := s.half half
    let f := (tabGet {} x.ferry v.lane : FerryLane).headers v.headers
    if !x.up then s else s.ferryMove half v.lane (if v.lost then f.drop else f)

/-- FERRY_LANE_ADMIT (R69, R70): a locked lane enters use at an alignment marker of the stripe, with the marker's arrival,
if deskew takes it in with the lanes in use. -/
def execFerryLaneAdmit (half : Half) (v : FerryMark) (s : State) : Host.Outcome State Fault Refusal :=
  onUnit (decide (v.lane < 8)) <|
    let x := s.half half
    let f : FerryLane := tabGet {} x.ferry v.lane
    if !x.up || !f.locked || (ferryDelays (x.ferryArrivals v.lane v.at_)).isNone then s
    else s.modHalf half fun y => { y with ferry := tabSet {} y.ferry v.lane { f with inUse := true, at_ := v.at_ } }

/-! ## Handshake FIFOs (R37, R39) -/

/-- Words that a clocked producer could not write (R38): of a lane, or of a time base inbound; none is lost while
RATE_FLOOR is clear in the half. -/
def State.fifoLost (s : State) (h : Half) (i n : Nat) : State :=
  if !(s.half h).gov.rateFloor || decide (n = 0) then s
  else if i < 64 then
    (s.modHalf h fun x => x.setLane i { x.lane i with overrun := (x.lane i).overrun + n }).count h 1 i 4 n
  else if 168 ≤ i ∧ i < 172 then
    s.modHalf h fun x =>
      let b : TBase := tabGet {} x.tbs (i - 168)
      { x with tbs := tabSet {} x.tbs (i - 168) { b with overrun := b.overrun + n } }
  else s

/-- What a lane's decoder and crossing FIFO did for a frame (R57, R58, R38, Table 17.1): no word is lost while RATE_FLOOR is clear,
and none is released late while PACE_LIMIT is clear as well. -/
def State.laneFec (s : State) (h : Half) (n : Nat) (v : LaneFec) : State :=
  let g := (s.half h).gov
  let late := if g.rateFloor || g.paceLimit then v.late else 0
  let s := ((s.count h 1 n 0 v.corrSym).count h 1 n 1 v.corrCw).count h 1 n 2 v.uncorr
  let s := ((s.happen h 0x10 n v.codewords).happen h 0x11 n v.corrSym).happen h 0x12 n v.uncorr
  let s := (s.modHalf h fun x => x.setLane n { x.lane n with late := (x.lane n).late + late }).count h 1 n 3 late
  s.fifoLost h n v.overrun

/-- The lanes of a port, from its lowest lane index on, for one frame. -/
def State.portFec (s : State) (h : Half) (first : Nat) (vs : List LaneFec) : State :=
  vs.zipIdx.foldl (fun s p => s.laneFec h (first + p.2) p.1) s

/-- One FIFO over a crossing: corrected errors counted, FIFO_LEVEL at a rise above an armed level, the level rearmed
at half of it. DESIGN CHOICE: notes/assumptions/92.md. -/
def State.fifoSeen (h : Half) (s : State) (v : FifoIn) : State :=
  if 640 ≤ v.index then s
  else
    let f : Fifo := tabGet {} (s.half h).fifos v.index
    let fires := decide (f.level ≠ 0) && f.armed && decide (f.occ ≤ f.level ∧ f.level < v.occ)
    let armed := decide (v.occ ≤ f.level / 2) || (f.armed && !fires)
    let f' : Fifo := { f with occ := v.occ, armed, cerr := min 65535 (f.cerr + v.cerr) }
    let s := s.modHalf h fun x => { x with fifos := tabSet {} x.fifos v.index f' }
    let s := (s.happen h 0x01 v.index v.words).fifoLost h v.index v.lost
    if fires then s.postLevel h 0x0D04 v.index [(1, h.idx), (2, v.index), (2, v.occ)] else s

/-! ## The pace governor (R22) -/

/-- The slowest pace and the lowest-numbered group that has it. -/
def slowestOf (pace : List Nat) : Nat × Nat :=
  let m := pace.foldl max 0
  (m, (pace.findIdx? (· = m)).getD 0)

/-- The governor's step of R22, with TARGET_PS and HYST_PS. -/
def Gov.run (g : Gov) (target hyst slowest group : Nat) : Gov :=
  let (low, v) :=
    if target < slowest then (0, if g.vcore < 860 then g.vcore + 5 else g.vcore)
    else if slowest < target - hyst then
      if g.lowRun + 1 = 64 then (0, if 680 < g.vcore then g.vcore - 5 else g.vcore) else (g.lowRun + 1, g.vcore)
    else (0, g.vcore)
  let overs := if v = 860 ∧ 960 < slowest then g.overRun + 1 else 0
  let under := if slowest ≤ 960 then g.underRun + 1 else 0
  let floorRun := if slowest ≤ 1280 then g.floorRun + 1 else 0
  let limit := if g.paceLimit then decide (under < 64) else decide (4 ≤ overs)
  let rate := if 1280 < slowest then true else g.rateFloor && decide (floorRun < 64)
  { lowRun := low, overRun := overs, underRun := under, floorRun, vcore := v, paceLimit := limit, rateFloor := rate,
    slowest, group, paces := g.paces }

/-- PACE_GOVERNOR_RUN (R22–R25): the governor of a half at the end of a crossing, with the paces of its 16 stage
groups, and its FIFOs as the crossing left them.  PACE_LIMIT, PACE_CLEAR and RATE_FLOOR go to the usher as level events
that merge (R36). DESIGN CHOICE: notes/assumptions/6.md, notes/assumptions/103.md. -/
def execPaceGovernorRun (half : Half) (pace : List Nat) (fifos : List FifoIn) (s : State) :
    Host.Outcome State Fault Refusal :=
  onUnit (decide (pace.length = 16)) <|
    let x := s.half half
    if !x.up then s
    else
      let cfg := x.reg 0 0x100
      let (slow, grp) := slowestOf pace
      let g := x.gov.run (bits cfg 25 16) (bits cfg 15 8) slow grp
      let s := s.modHalf half fun y => { y with gov := { g with paces := pace } }
      let s := fifos.foldl (State.fifoSeen half) s
      let s := if g.paceLimit && !x.gov.paceLimit then
          s.postLevel half 0x0D01 0 [(1, half.idx), (2, slow), (1, grp), (2, g.vcore)]
        else if x.gov.paceLimit && !g.paceLimit then s.postLevel half 0x0D02 0 [(1, half.idx), (2, slow)]
        else s
      let s := if g.rateFloor ≠ x.gov.rateFloor then
          s.postLevel half 0x0D03 0 [(1, half.idx), (1, b2n (!g.rateFloor)), (2, slow)]
        else s
      s.offerHelm half (!x.gov.paceLimit) (g.rateFloor && !x.gov.rateFloor)

end Sys2Proof.Machine
end

