-- ==== Sys2Proof/Machine/TimeOps.lean ====
section
/-! DEFINITION. Time bases and their servos (R367–R375). -/

namespace Sys2Proof.Machine

open Sys2Proof

/-- A half with a time base set. -/
def HState.setTb (x : HState) (n : Nat) (b : TBase) : HState := { x with tbs := tabSet {} x.tbs n b }

/-- The time base at a count of units of 2^−16 ns; the seconds are a 64-bit count. -/
def TBase.at (b : TBase) (u : Int) : TBase :=
  let v := timeOf (u % (2 ^ 64 * 1000000000 * 65536)).toNat
  { b with sec := v.seconds, ns := v.nanos, sub := v.subns }

/-- The time base after `n` ticks of the module reference: each adds 1 ns plus the rate correction (R367). -/
def TBase.advance (b : TBase) (n : Nat) : TBase :=
  let total : Int := (65536 * 1000000000 + 65536 * b.rate) * n + b.acc
  { b.at (tvUnits b.value + total / 1000000000) with acc := (total % 1000000000).toNat }

/-- Every time base of a half after `n` ticks. -/
def HState.advanceTbs (x : HState) (n : Nat) : HState :=
  (List.range 4).foldl (fun x k => x.setTb k ((x.tb k).advance n)) x

/-- Code of a servo state. -/
def servoCode : ServoSt → Nat
  | .free => 0
  | .acquiring => 1
  | .locked => 2
  | .holdover => 3

/-- Entries of a time base whose instant a forward step passes over are late (R386). -/
def Image.stepLate (im : Image) (n from_ to_ : Nat) : Image :=
  { im with sched := im.sched.map fun p =>
      match p.2 with
      | some e =>
        if e.tb = n ∧ from_ < tvUnits e.at_ ∧ tvUnits e.at_ ≤ to_ then (p.1, some { e with late := true }) else p
      | none => p }

/-- Step a time base of a half to a count of units; it becomes valid.  Post TIME_STEP: time base; step; servo 0 or
TIME_SET 1. -/
def State.stepTb (s : State) (x : Half) (n : Nat) (to_ : Int) (cause : Nat) : State :=
  let b := (s.half x).tb n
  let b' := { b.at to_ with valid := true, acc := 0 }
  let old := tvUnits b.value
  let new := tvUnits b'.value
  ((s.modHalf x fun y => y.setTb n b').modImg x fun im => im.stepLate n old new).post x .cores 0x0301
    [(1, n), (8, (((new : Int) - old) % 2 ^ 64).toNat), (1, cause)]

/-- A servo enters a state; post SERVO_STATE at a change (R372): time base; new state; last θ. -/
def State.servoSt (s : State) (x : Half) (n : Nat) (st : ServoSt) (theta : Int) : State :=
  let b := (s.half x).tb n
  if b.st = st then s
  else (s.modHalf x fun y => y.setTb n { b with st }).post x .cores 0x0302
    [(1, n), (1, servoCode st), (8, (theta % 2 ^ 64).toNat)]

/-- `TIM_TB_CFG[n]`. -/
def Image.tbCfg (im : Image) (n : Nat) : Word := im.reg 0 (0xC00000 + 0x20 * n)
/-- `TIM_TB_CFG[n].SRC`. -/
def Image.tbSrc (im : Image) (n : Nat) : Nat := bits (im.tbCfg n) 30 28

/-- The rate of R371 in ppb, held within ±200,000; `up` rounds a fraction up. -/
def servoRate (theta integ : Int) (pShift dt : Nat) (up : Bool) : Int :=
  let num : Int := -(theta * 32768 / 2 ^ pShift + integ) * 1000000000
  let den : Int := (max 1 dt : Nat) * 2147483648
  let r := num / den + (if up && decide (num % den ≠ 0) then 1 else 0)
  max (-200000) (min 200000 r)

/-- An offset sample at a time base's servo (R371, R372); θ in 2^−16 ns, `dt` ns since the sample before it. DEDUCED:
notes/assumptions/63.md. DESIGN CHOICE: notes/assumptions/64.md. -/
def State.servo (s : State) (x : Half) (n src : Nat) (theta : Int) (dt : Nat) : State :=
  let im := s.img x
  let cfg := im.tbCfg n
  let b := (s.half x).tb n
  if src = 0 ∨ src ≠ im.tbSrc n then
    s.modHalf x fun y => y.setTb n { b with discards := b.discards + 1 }
  else
    let b := { b with lastAt := s.now + 1 }
    let s := s.modHalf x fun y => y.setTb n b
    let s :=
      if !b.valid || (bit cfg 27 && decide (bits cfg 15 0 * 65536 < theta.natAbs)) then
        s.stepTb x n ((tvUnits b.value : Int) - theta) 0
      else
        let integ := b.integ + theta * 32768 / 2 ^ bits cfg 19 16
        let (c, s) := s.draw
        s.modHalf x fun y => y.setTb n
          { b with integ, rate := servoRate theta integ (bits cfg 23 20) dt (decide (c % 2 = 1)) }
    let near := decide (theta.natAbs ≤ 50 * 65536)
    let good := if !near then 0 else if b.st = .holdover then 1 else min 16 (b.good + 1)
    let s := s.modHalf x fun y => y.setTb n { y.tb n with good }
    s.servoSt x n (if good = 16 then .locked else .acquiring) theta

/-- A write of `TIM_TB_CFG[n]` that sets SRC to 0 leaves the servo FREE (R372). -/
def State.srcWritten (s : State) (x : Half) (n : Nat) : State :=
  if (s.img x).tbSrc n = 0 then
    (s.modHalf x fun y => y.setTb n { y.tb n with good := 0 }).servoSt x n .free 0
  else s

end Sys2Proof.Machine
end

