-- ==== Sys2Proof/Machine/Registers.lean ====
section
/-! DEFINITION. Writes to set-up registers: which function reaches a register (R41, R478), who accepts a paired
write (R50, R106, R480), field ranges (R42), each register's own acceptance rule, and what an accepted write sets
going. -/

namespace Sys2Proof.Machine

open Sys2Proof

/-! ## Acceptance rules -/

/-- Every lane of each client port has the same mode bit (R48). -/
def modesEqual (split mode : Word) : Bool :=
  (List.range 32).all fun n =>
    let w := 2 ^ bits split (2 * (n / 8) + 1) (2 * (n / 8))
    decide (bits mode n n = bits mode (n - n % w) (n - n % w))

/-- A lane counts as in DEEP (R45): `PWR_NOW` reads DEEP and the written PWR is 0. -/
def HState.laneDeep (x : HState) (n : Nat) : Bool := decide ((x.lane n).pwrNow = 0) && decide (x.img.lanePwr n = 0)

/-- An enabled terminating tributary uses a client lane of a cage (R109). -/
def Image.cageUsed (im : Image) (c : Nat) : Bool :=
  (List.range 32).any fun t => im.termTrib t &&
    (List.range (im.tribSlots t)).any fun i => decide ((t + i) / 8 = c)

/-- R45: a changed mode bit needs every lane of its cage in DEEP. -/
def HState.acceptCageMode (x : HState) (old w : Word) : Bool :=
  (List.range 4).all fun k => decide (bits old k k = bits w k k) ||
    (List.range 8).all fun i => x.laneDeep (32 + 8 * k + i)

/-- R48, R49 for the split. -/
def Image.acceptSplit (im : Image) (old w : Word) : Bool :=
  modesEqual w (im.reg 0 0x20000C) &&
  (List.range 8).all fun c => decide (bits old (2 * c + 1) (2 * c) = bits w (2 * c + 1) (2 * c)) ||
    (if c < 4 then !im.cageUsed c
     else im.cageCwy (c - 4) || (List.range 8).all fun i => !im.portEn (8 * (c - 4) + i))

/-- R48, R49 for the client modes: a changed bit belongs to a port whose tributary is disabled. -/
def Image.acceptModes (im : Image) (old w : Word) : Bool :=
  modesEqual (im.reg 0 0x200008) w &&
  (List.range 32).all fun n => decide (bits old n n = bits w n n) ||
    (let p := n - n % im.portWidth (n / 8); !im.tribEn p)

/-- R96: conditions for setting EN of a group. -/
def Image.acceptGroupEn (im : Image) (g : Nat) : Bool :=
  let lanes := im.groupLanes g
  !lanes.isEmpty && (lanes.all fun k => im.cageCwy (k / 8)) &&
    (List.range 16).all fun g' => decide (g' = g) || !im.groupEn g' ||
      lanes.all fun k => !bit (im.groupMask g') k

/-- The configured sets of a tributary as a configuration word would leave them (R118, R119). -/
def Image.configuredSlots (im : Image) (t : Nat) (cfg : Word) : List (Nat × Nat) :=
  let k := 2 ^ bits cfg 29 28
  let set := fun (b : Nat) => (List.range k).map fun i => im.slotCfg t (b + i)
  set 0 ++ (if bit cfg 27 then set 8 else []) ++ (if bit cfg 30 then set 16 else []) ++
    (if bit cfg 30 && bit cfg 26 then set 24 else [])

/-- R119: conditions for setting EN of a tributary. -/
def Image.acceptTribEn (im : Image) (t : Nat) (cfg : Word) : Bool :=
  let k := 2 ^ bits cfg 29 28
  let mine := im.configuredSlots t cfg
  let others := ((List.range 32).filter fun u => decide (u ≠ t) && im.tribEn u).flatMap fun u =>
    im.configuredSlots u (im.reg 0 (tribCfgOff u))
  decide (t % k = 0) &&
  (bit cfg 30 || ((List.range k).all fun i => im.clientCwy (t + i)) && im.isClientPort t &&
    decide (im.portWidth (t / 8) = k)) &&
  (mine.all fun gp => im.groupEn gp.1 && decide (gp.2 < (im.groupLanes gp.1).length)) &&
  decide (mine.Nodup) && (mine.all fun gp => !others.contains gp)

/-- Fields other than EN are unchanged. DEDUCED: notes/assumptions/25.md. -/
def sameButEn (old w : Word) : Bool := decide (old.toNat % 2 ^ 31 = w.toNat % 2 ^ 31)

/-- Cells of the frame pool in use by queues and holds. -/
def HState.poolUsed (x : HState) : Nat :=
  (x.queues.map fun q => (q.2.map fun f => cellsOf f.len).sum).sum + x.heldCells

/-- R237: the partition may change. -/
def HState.partFree (x : HState) : Bool := ((List.range 32).all fun p => !x.img.portEn p) && decide (x.poolUsed = 0)

/-- The sum of RESERVE fits (R240), for a frame pool of so many cells. -/
def poolFits (pool reserves : Nat) : Bool := decide (8192 + reserves ≤ pool)

/-- The codes of Table 17.1, with their objects and the one mode of each. -/
def cntCodes : List (Nat × Nat × Nat) :=
  [(0x01, 640, 0), (0x02, 640, 1), (0x10, 64, 0), (0x11, 64, 0), (0x12, 64, 0), (0x13, 32, 2), (0x20, 528, 0),
   (0x21, 528, 0), (0x22, 528, 1), (0x23, 1, 1), (0x30, 1, 0), (0x31, 1, 0), (0x32, 1, 1), (0x40, 5, 0),
   (0x41, 5, 0), (0x50, 2, 0), (0x51, 1, 0), (0x52, 1, 0), (0x60, 1, 2), (0x61, 16, 1)]

/-- R507: EVENT is listed, OBJECT is in its range and MODE is the one listed for it. -/
def cntSettingOk (w : Word) : Bool :=
  cntCodes.any fun c => decide (c.1 = bits w 23 16 ∧ bits w 9 0 < c.2.1 ∧ c.2.2 = bits w 29 28)

/-- The register's own acceptance rule, by its base offset; `off` is the written offset, `w` the new word. DEDUCED:
notes/assumptions/25.md. -/
def HState.accepts (x : HState) (fn base off : Nat) (old w : Word) : Bool :=
  let im := x.img
  let g := (off - base) / 0x10
  match base with
  | 0x100100 | 0x100104 => !im.ringEn fn ((off - base) / 0x20)
  | 0x100108 =>
    (!bit old 31 || decide (bits old 20 16 = bits w 20 16)) && decide (fn = 0 ∨ bits w 12 10 ≤ 3)
  | 0x200000 => x.acceptCageMode old w
  | 0x200008 => im.acceptSplit old w
  | 0x20000C => im.acceptModes old w
  | 0x201008 => decide (bits w 27 24 + bits w 20 16 + bits w 13 8 + bits w 4 0 ≤ 63)
  | 0x300004 =>
    ((List.range 16).all fun i => !im.groupEn i) &&
      (decide (bits old 10 0 = bits w 10 0) ||
        (x.partFree && poolFits (262144 - 64 * bits w 10 0 - im.ctrlCells) im.reserveSum))
  | 0x300100 => !bit w 31 || bit old 31 || im.acceptGroupEn g
  | 0x300104 => !im.groupEn g
  | 0x400000 =>
    let t := (off - base) / 0x100
    if bit old 31 then decide (bits old 30 26 = bits w 30 26)
    else !bit w 31 || im.acceptTribEn t w
  | 0x400080 => !im.tribEn ((off - base) / 0x100)
  | 0x500000 => !im.tribEn ((off - base) / 0x20)
  | 0x600000 =>
    if bit old 31 then sameButEn old w else !bit w 31 || im.pktLine g
  | 0x800000 =>
    decide (old = w) || (x.partFree &&
      poolFits (262144 - 64 * im.deskewBuffers - bits w 14 0) im.reserveSum)
  | 0x801000 =>
    let q := (off - base) / 4
    decide (bits w 13 0 ≤ bits w 31 14) &&
      poolFits im.framePool (im.reserveSum - im.queueReserve q + bits w 13 0)
  | 0x801800 => decide (bits w 14 0 ≤ im.ctrlCells)
  | 0x700104 => decide (bits old 9 8 = bits w 9 8) || (tabGet {} x.tbs (bits w 9 8) : TBase).valid
  | 0xC00100 | 0xC00104 => decide (bits w 15 0 ≤ 10000 ∨ 55536 ≤ bits w 15 0)
  | 0xC00300 =>
    let p := bits w 29 24
    if p < 32 then im.isClientPort p else im.pktLine (p - 32)
  | 0x1000000 => cntSettingOk w
  | _ => true

/-- Permitted responses of a tamper source (Table 15.2): 2·ERASE + HALT_HALF. -/
def tmpPermitted (src : Nat) : List Nat :=
  if src = 16 ∨ src = 17 then [0, 1, 2, 3] else if src = 18 ∨ src = 19 then [1, 3] else [2]

/-- Acceptance by the tamper and board controllers (R458, R459). -/
def State.acceptsModule (s : State) (base off : Nat) (old w : Word) : Bool :=
  let locked := bit (s.modReg 0xF0000C) 31
  match base with
  | 0xF0000C => !locked || decide (bits old 7 0 = bits w 7 0)
  | 0xF00100 => !locked && (tmpPermitted ((off - base) / 4)).contains (bits w 2 1)
  | _ => true

/-! ## What an accepted write sets going -/

/-- The client PCS of the lanes restarts (R49). -/
def HState.restartPcs (x : HState) (changed : Nat → Bool) : HState :=
  (List.range 32).foldl (fun x n =>
    if changed n then x.setLane n { x.lane n with pcsRestart := true } else x) x

/-- The tributary's state in one half as EN is set (R126, R127). -/
def HState.startTrib (x : HState) (t : Nat) : HState :=
  let v : SideSt := { txNew := 3 }
  ((x.setSide t .A v).setSide t .B v).setTrib t {}

/-- The tributary's state in one half as EN is cleared (R563). -/
def HState.stopTrib (x : HState) (t : Nat) : HState :=
  ((x.setSide t .A {}).setSide t .B {}).setTrib t {}

/-- What an accepted write sets going in the state that crossing copies carry: rings, published latencies, the counters,
sets, forced conditions and associations of a tributary (R114, R118, R138, R563), the XPN threshold (R204). -/
def State.regShared (s : State) (x : Half) (fn base off : Nat) (old w : Word) : State :=
  match base with
  | 0x100108 =>
    let r := (off - base) / 0x20
    if bit w 31 && !bit old 31 then s.ringOn x fn r
    else if bit old 31 && !bit w 31 then s.ringOff x fn r else s
  | 0x300004 => s.noteLatency x 0
  | 0x400000 =>
    let t := (off - base) / 0x100
    if bit w 31 && !bit old 31 then
      let s := s.modImg x fun im =>
        { im with cfc := tabSet 0 im.cfc t 0, alt := tabDel (tabDel im.alt (2 * t)) (2 * t + 1),
                  pubLat := tabSet none im.pubLat t none }
      (s.noteLatency x 0).keyChangeIfBound x t
    else if bit old 31 && !bit w 31 then
      (s.eraseAssoc x t).modImg x fun im => { im with forced := tabDel (tabDel im.forced (2 * t)) (2 * t + 1) }
    else s
  | 0x600204 => s.modImg x fun im => { im with xpnThresh := w.toNat * 2 ^ 32 + (im.reg 0 0x600200).toNat }
  | _ => s

/-- What an accepted write sets going in the lanes, framers, groups, sides, ports and time bases of one half: in the half
that applies it, and in the standby when its copy is applied (R50, R60, R106).  A tributary whose enabling joins groups to
one deskew set rebuilds nothing: each group keeps its reference lane and its release point until the set is next rebuilt
(R120). DESIGN CHOICE: notes/assumptions/128.md. -/
def State.regLocal (s : State) (x : Half) (base off : Nat) (old w : Word) : State :=
  match base with
  | 0x200008 => s.modHalf x fun y => y.restartPcs fun n =>
      decide (bits old (2 * (n / 8) + 1) (2 * (n / 8)) ≠ bits w (2 * (n / 8) + 1) (2 * (n / 8)))
  | 0x20000C => s.modHalf x fun y => y.restartPcs fun n => decide (bits old n n ≠ bits w n n)
  | 0x201000 => s.aimLanes x
  | 0x201004 => s.modHalf x fun y => y.setCtle ((off - base) / 0x10)
  | 0x300100 =>
    let g := (off - base) / 0x10
    if bit w 31 && !bit old 31 then
      (((s.modHalf x fun y => (y.setGrp g { shown := (y.grp g).shown }).updLids).rebuildSet x g true).noteAll x)
    else if bit w 30 && bit w 31 then (s.rebuildSet x g true).noteAll x
    else s.lineChanged x (s.half x)
  | 0x400000 =>
    let t := (off - base) / 0x100
    if bit w 31 && !bit old 31 then (s.modHalf x fun y => y.startTrib t).noteAll x
    else if bit old 31 && !bit w 31 then s.modHalf x fun y => y.stopTrib t
    else s
  | 0x600000 =>
    let p := (off - base) / 0x10
    s.modHalf x fun y => { y with preempt := tabSet 0 y.preempt p (if bit w 31 && bit w 28 then 1 else 0) }
  | 0xC00000 => s.srcWritten x ((off - base) / 0x20)
  | _ => s

/-- What an accepted write sets going in the half that holds the helm. -/
def State.regEffect (s : State) (x : Half) (fn base off : Nat) (old w : Word) : State :=
  (s.regShared x fn base off old w).regLocal x base off old w

/-- The writes that a copy brings take effect on the standby, in their order (R50). -/
def State.regsArrive (s : State) (x : Half) (ws : List (Nat × Nat × Word × Word)) : State :=
  ws.foldl (fun s v =>
    match regSpecOf v.2.1 with
    | some r => s.regLocal x r.base v.2.1 v.2.2.1 v.2.2.2
    | none => s) s

/-! ## A register write -/

/-- The block of a BAR0 offset is HIF. -/
def inHif (off : Nat) : Bool := decide (0x100000 ≤ off ∧ off < 0x200000)

/-- The function reaches the register (R41, R478): HIF registers belong to each function, ring 3 and
`HIF_VF_LIMIT` to the PF alone, and every other block to the PF alone. -/
def reaches (fn off : Nat) : Bool :=
  decide (fn = 0) ||
    (inHif off && decide (off < 0x100400) && !decide (0x100160 ≤ off ∧ off < 0x100180))

/-- Apply a paired write in the half that holds the helm (R50, R106): its word, the count of paired writes,
and what it sets going. -/
def State.applyPaired (s : State) (x : Half) (fn off : Nat) (r : RegSpec) (w : Word) : State :=
  let old := (s.img x).reg fn off
  let new := r.apply old w
  if r.inRange w && (s.half x).accepts fn r.base off old new then
    let s := s.modImg x fun im => { im.setReg fn off new with cfgGen := (im.cfgGen + 1) % 2 ^ 32 }
    let s := s.modHalf x fun y => { y with writes := y.writes ++ [(fn, off, old, w)] }
    s.regEffect x fn r.base off old w
  else s

/-- The FIFO that `GLB_FIFO_SEL` selects, and its level (R39); an index that is not implemented is ignored. DESIGN
CHOICE: notes/assumptions/11.md. -/
def HState.setFifoLevel (x : HState) (w : Word) : HState :=
  let i := bits (x.reg 0 0x300) 9 0
  if i < 640 ∧ bits w 15 0 ≤ Config.fifoCapacity i then
    { x with fifos := tabSet {} x.fifos i { (tabGet {} x.fifos i : Fifo) with level := bits w 15 0 } }
  else x

/-- A post is the CNT_OVERFLOW of counter `i`. -/
def isOverflow (i : Nat) : Post → Bool
  | .ev e => decide (e.code = 0x0601 ∧ e.key = levelKey 0x0601 i)
  | _ => false

/-- A reprogramming write (R510): in one step the value and STICKY clear, the setting is installed, and an overflow
that the usher has not accepted is discarded. -/
def HState.reprogram (x : HState) (i : Nat) (f : Ctr → Ctr) : HState :=
  { x with ctrs := tabSet {} x.ctrs i (f { (tabGet {} x.ctrs i : Ctr) with val := 0, sticky := false }),
           queue := x.queue.filter fun q => !isOverflow i q.2,
           fwd := x.fwd.take x.fwdOut ++ (x.fwd.drop x.fwdOut).filter fun q => !isOverflow i q }

/-- A write to a register of one half that is not paired. -/
def HState.writeOwn (x : HState) (fn off : Nat) (r : RegSpec) (w : Word) : HState :=
  if r.base = 0x304 then x.setFifoLevel w
  else if r.base = 0x1000000 then
    let i := (off - r.base) / 0x10
    let new := r.apply (tabGet {} x.ctrs i : Ctr).cfg w
    if r.inRange w && cntSettingOk new then x.reprogram i fun c => { c with cfg := new } else x
  else if r.base = 0x1000004 then
    if r.inRange w then x.reprogram ((off - r.base) / 0x10) fun c => { c with thresh := bits w 17 0 } else x
  else
    let new := r.apply (x.reg fn off) w
    if r.inRange w && x.accepts fn r.base off (x.reg fn off) new then x.setReg fn off new else x

/-- A write that the tamper or board controller takes from the half that holds the helm (R460, R461). -/
def State.writeModule (s : State) (off : Nat) (r : RegSpec) (w : Word) : State :=
  if r.base = 0xF00008 then
    s.modTam fun t => { t with latched := t.latched.filter fun src => t.inAlarm.contains src || !bit w src }
  else
    let old := s.modReg off
    let new := r.apply old w
    if r.inRange w && s.acceptsModule r.base off old new then
      (s.setModReg off new).modEffect r.base off old new
    else s

/-- A write through a function of a half to a set-up register (R42, R50). -/
def State.writeReg (s : State) (half : Half) (fn off : Nat) (w : Word) : State :=
  match regSpecOf off with
  | none => s
  | some r =>
    if !reaches fn off then s
    else match r.home with
      | .paired => if s.holder = some half then s.applyPaired half fn off r w else s
      | .half => s.modHalf half fun x => x.writeOwn fn off r w
      | .module => if s.holder = some half then s.writeModule off r w else s

/-- REGISTER_WRITE (R42). -/
def execRegisterWrite (half : Half) (fn off : Nat) (w : Word) (s : State) : Host.Outcome State Fault Refusal :=
  onUnit (decide (fn < 16)) (s.writeReg half fn off w)

/-- RING_ENABLE (R480): a write of HIF_RING_CFG with EN 1. -/
def execRingEnable (half : Half) (fn ring : Nat) (w : Word) (s : State) : Host.Outcome State Fault Refusal :=
  onUnit (decide (fn < 16 ∧ ring < 4)) (s.writeReg half fn (ringCfgOff ring) (setBits w 31 31 1))

/-- RING_DISABLE (R486): a write of HIF_RING_CFG with EN 0. DEDUCED: notes/assumptions/25.md. -/
def execRingDisable (half : Half) (fn ring : Nat) (w : Word) (s : State) : Host.Outcome State Fault Refusal :=
  onUnit (decide (fn < 16 ∧ ring < 4)) (s.writeReg half fn (ringCfgOff ring) (setBits w 31 31 0))

/-- LANE_PWR_WRITE (R61): a write of LNE_LANE_CFG. -/
def execLanePwrWrite (half : Half) (fn lane : Nat) (w : Word) (s : State) : Host.Outcome State Fault Refusal :=
  onUnit (decide (fn < 16 ∧ lane < 64)) (s.writeReg half fn (0x201000 + 0x10 * lane) w)

/-- CAGE_MODE_WRITE (R45). -/
def execCageModeWrite (half : Half) (fn : Nat) (w : Word) (s : State) : Host.Outcome State Fault Refusal :=
  onUnit (decide (fn < 16)) (s.writeReg half fn 0x200000 w)

/-- CAGE_SPLIT_WRITE (R49). -/
def execCageSplitWrite (half : Half) (fn : Nat) (w : Word) (s : State) : Host.Outcome State Fault Refusal :=
  onUnit (decide (fn < 16)) (s.writeReg half fn 0x200008 w)

/-- CLIENT_MODE_WRITE (R48). -/
def execClientModeWrite (half : Half) (fn : Nat) (w : Word) (s : State) : Host.Outcome State Fault Refusal :=
  onUnit (decide (fn < 16)) (s.writeReg half fn 0x20000C w)

/-- GROUP_ENABLE_WRITE (R96): a write of CWY_GROUP_CFG. -/
def execGroupEnableWrite (half : Half) (fn g : Nat) (w : Word) (s : State) : Host.Outcome State Fault Refusal :=
  onUnit (decide (fn < 16 ∧ g < 16)) (s.writeReg half fn (0x300100 + 0x10 * g) w)

/-- GROUP_RETIME (R99): a write of CWY_GROUP_CFG with RETIME 1. -/
def execGroupRetime (half : Half) (fn g : Nat) (w : Word) (s : State) : Host.Outcome State Fault Refusal :=
  onUnit (decide (fn < 16 ∧ g < 16)) (s.writeReg half fn (0x300100 + 0x10 * g) (setBits w 30 30 1))

/-- TRIB_ENABLE (R119): a write of TRB_TRIB_CFG with EN 1. -/
def execTribEnable (half : Half) (fn t : Nat) (w : Word) (s : State) : Host.Outcome State Fault Refusal :=
  onUnit (decide (fn < 16 ∧ t < 32)) (s.writeReg half fn (tribCfgOff t) (setBits w 31 31 1))

/-- TRIB_DISABLE (R563): a write of TRB_TRIB_CFG with EN 0. -/
def execTribDisable (half : Half) (fn t : Nat) (w : Word) (s : State) : Host.Outcome State Fault Refusal :=
  onUnit (decide (fn < 16 ∧ t < 32)) (s.writeReg half fn (tribCfgOff t) (setBits w 31 31 0))

/-- PKT_PORT_ENABLE (R203): a write of PKT_PORT_CFG. -/
def execPktPortEnable (half : Half) (fn port : Nat) (w : Word) (s : State) : Host.Outcome State Fault Refusal :=
  onUnit (decide (fn < 16 ∧ port < 32)) (s.writeReg half fn (pktOff port) w)

/-- XPN_THRESH_HI_WRITE (R204). -/
def execXpnThreshHiWrite (half : Half) (fn : Nat) (w : Word) (s : State) : Host.Outcome State Fault Refusal :=
  onUnit (decide (fn < 16)) (s.writeReg half fn 0x600204 w)

/-- CNT_CFG_WRITE (R510). -/
def execCntCfgWrite (half : Half) (fn i : Nat) (w : Word) (s : State) : Host.Outcome State Fault Refusal :=
  onUnit (decide (fn < 16 ∧ i < 256)) (s.writeReg half fn (0x1000000 + 0x10 * i) w)

/-- CNT_THRESH_WRITE (R510). -/
def execCntThreshWrite (half : Half) (fn i : Nat) (w : Word) (s : State) : Host.Outcome State Fault Refusal :=
  onUnit (decide (fn < 16 ∧ i < 256)) (s.writeReg half fn (0x1000004 + 0x10 * i) w)

/-- TMP_LATCH_CLEAR (R461). -/
def execTmpLatchClear (half : Half) (fn : Nat) (w : Word) (s : State) : Host.Outcome State Fault Refusal :=
  onUnit (decide (fn < 16)) (s.writeReg half fn 0xF00008 w)

/-- TMP_LOCK_SET (R459): a write of TMP_CFG with LOCK 1. -/
def execTmpLockSet (half : Half) (fn : Nat) (w : Word) (s : State) : Host.Outcome State Fault Refusal :=
  onUnit (decide (fn < 16)) (s.writeReg half fn 0xF0000C (setBits w 31 31 1))

/-- CAGE_POWER_EN_WRITE (R523, R524). -/
def execCagePowerEnWrite (half : Half) (fn cage : Nat) (w : Word) (s : State) : Host.Outcome State Fault Refusal :=
  onUnit (decide (fn < 16 ∧ cage < 8)) (s.writeReg half fn (0x1100100 + 8 * cage) w)

end Sys2Proof.Machine
end

