-- ==== Sys2Proof/Machine/Messages.lean ====
section
/-! DEFINITION. Peer messages on their way out (Tables 10.1–10.3, R306, R308). -/

namespace Sys2Proof.Machine

open Sys2Proof

/-- Number of a carrier instance. DEDUCED: notes/assumptions/60.md. -/
def carrierKey : Carrier → Nat
  | .lane k => k
  | .trib t => 32 + t
  | .port p => 64 + p

/-- The carrier instance exists. -/
def carrierOk : Carrier → Bool
  | .lane k => decide (k < 32)
  | .trib t => decide (t < 32)
  | .port p => decide (p < 32)

/-- Pieces of a body: at least one, 1,008 bytes each (Table 10.1). -/
def pieceCount (total : Nat) : Nat := max 1 ((total + 1007) / 1008)

/-- A piece as bytes: its header, then its share of the body (Table 10.1). -/
def pieceBytes (ty sender session i : Nat) (body : List Nat) : List Nat :=
  [ty, 1] ++ beBytes 2 (sender % 8192) ++ beBytes 4 session ++ [i, pieceCount body.length] ++ beBytes 2 body.length ++
    [0, 0, 0, 0] ++ (body.drop (1008 * i)).take 1008

/-- The pieces of a message, in index order (R308). -/
def piecesOf (ty sender session : Nat) (body : List Nat) : List (List Nat) :=
  (List.range (pieceCount body.length)).map fun i => pieceBytes ty sender session i body

/-- A piece as its carrier takes it (Table 10.3): with its CRC-32C on a lane or tributary, in a frame from the port's
address on a packet-mode port, padded to 64 bytes. -/
def carried (c : Carrier) (source : List Nat) (piece : List Nat) : List Nat :=
  match c with
  | .lane _ | .trib _ => withCrc piece
  | .port _ =>
    let f := [0x01, 0x80, 0xC2, 0x00, 0x00, 0x03] ++ source ++ [0x88, 0xB5, 0x46, 0x5A] ++ piece
    if f.length < 64 then padTo 64 f else f

/-- EtherType of a hail frame. -/
def hailEtherType : Nat := 0x88B5

/-- The hail frame that carries a piece on a packet-mode port (Table 10.3): `carried`, as the hall takes it. -/
def hailFrame (p : Nat) (piece : List Nat) : FrameIn :=
  { id := 0, dst := 0x0180C2000003, src := Config.portSci p / 2 ^ 16, tags := [], etherType := hailEtherType,
    payload := (carried (.port p) (beBytes 6 (Config.portSci p / 2 ^ 16)) piece).drop 14 }

/-- Lane frames or rows that a carried message takes: one segment in each (R84, R117). -/
def segmentCount : Carrier → Nat → Nat
  | .lane _, n => (n + 31) / 32
  | .trib _, n => (n + 47) / 48
  | .port _, _ => 1

/-- A piece leaves on a carrier instance: into the hail channel of a lane or the message channel of a tributary, segment by
segment (R84, R117), or in a frame of the class of its kind (R241). -/
def State.sendPiece (s : State) (x : Half) (c : Carrier) (piece : List Nat) : State :=
  match c with
  | .lane k => s.modHalf x fun y =>
      { y with hailTx := tabSet [] y.hailTx k (tabGet [] y.hailTx k ++ segmentsOf 32 (withCrc piece)) }
  | .trib t => s.modHalf x fun y => y.setTrib t { y.trib t with tmcTx := (y.trib t).tmcTx ++ segmentsOf 48 (withCrc piece) }
  | .port p => s.originate x (32 + p) 4 (hailFrame p piece)

/-- A peer message leaves, its pieces in index order (R308). -/
def State.sendPeer (s : State) (x : Half) (c : Carrier) (ty session : Nat) (body : List Nat) : State :=
  (piecesOf ty s.member session body).foldl (fun s p => s.sendPiece x c p) s

end Sys2Proof.Machine
end

