-- ==== Sys2Proof/Machine/Roots.lean ====
section
/-! DEFINITION. Landings 1 and 2 of the key staircase: the birth secret, the storage root, the DRAM keys (R266–R268,
R464). -/

namespace Sys2Proof.Machine

open Sys2Proof

/-- B = SHA3-256(F ‖ P) (R266). -/
def birthSecret (fuse puf : Nat) : Nat := leNat (sha3 256 (leBytes 32 fuse ++ leBytes 32 puf))

/-- SR = KMAC256(K = E, X = B, L = 256, S = "FNZ-SR") (R266). -/
def storageRoot (seed birth : Nat) : Nat := leNat (kmac (leBytes 32 seed) (leBytes 32 birth) 256 "FNZ-SR")

/-- SR_E, which stands in for SR while E is absent, for the DRAM keys only (R464). -/
def erasedRoot (birth run : Nat) : Nat := leNat (kmac (leBytes 32 birth) (leBytes 8 run) 256 "FNZ-SR-ERASED")

/-- The DRAM keys of a half in a run, 64 bytes: the first 32 key the inline cipher, the last 32 the line tags (R268). -/
def dramKeyBytes (root run : Nat) (h : Half) : List Nat :=
  kmac (leBytes 32 root) (leBytes 8 run ++ [match h with | .A => 0x0A | .B => 0x0B]) 512 "FNZ-DRAM"

/-- The tamper controller puts P, and E while it is present, into its bus buffers (R266). -/
def Tamper.loadBus (t : Tamper) : Tamper :=
  { t with bus := some (Config.puf, if t.seed then some (Config.envelopeSeed t.seedNo) else none) }

/-- A half takes P and E from the bus and computes B, and SR where E came with it (R266, R540). -/
def KeyRam.derive (k : KeyRam) : Option (Nat × Option Nat) → KeyRam
  | some (p, e) =>
    let b := birthSecret Config.fuse p
    { k with puf := p, birth := b, root := e.map fun e => storageRoot e b }
  | none => k

/-- The roots pass to a half: over the bus, into its key RAM, and the buffers are cleared (R266). -/
def State.passRoots (s : State) (h : Half) : State :=
  let t := s.tam.loadBus
  let s := s.modHalf h fun x => { x with kram := x.kram.derive t.bus }
  { s with tam := { t with bus := none } }

/-- The DRAM keys of a half for the run, from SR, or from SR_E while E is absent (R268, R464). -/
def State.deriveDram (s : State) (h : Half) : State :=
  s.modHalf h fun x =>
    let root := x.kram.root.getD (erasedRoot x.kram.birth s.flash.run)
    { x with kram := { x.kram with dram := leNat (dramKeyBytes root s.flash.run h) } }

/-- The inline key of a half, and the key of its line tags (R268). -/
def HState.inlineKey (x : HState) : List Nat := (leBytes 64 x.kram.dram).take 32
def HState.tagKey (x : HState) : List Nat := (leBytes 64 x.kram.dram).drop 32

end Sys2Proof.Machine
end

