-- ==== Sys2Proof/Machine/Blobs.lean ====
section
/-! DEFINITION. Wrapped blobs (R272–R276) and the wharf (R190, R191, R279). -/

namespace Sys2Proof.Machine

open Sys2Proof

/-! ## Sealing -/

/-- The 64-byte wrapping key of a blob (R274): under SR, for a domain key, or for a blob of a domain with a given key. -/
def State.wrapKey (s : State) (x : Half) (handle : Nat) : List Nat :=
  let sr := leBytes 32 ((s.half x).kram.root.getD 0)
  if hLanding handle = 3 then kmac sr [0xFF] 512 "FNZ-BLOB"
  else
    let d := (s.img x).key (mkHandle 3 (hDomain handle) 0)
    kmac sr ([hDomain handle] ++ leBytes 32 d.key ++ leBytes 8 d.serial) 512 "FNZ-BLOB"

/-- Blob byte 1. -/
def landingKind (handle : Nat) (e : KeyEnt) : Nat := hLanding handle * 32 + e.kind

/-- Direction of a bound SA. -/
def boundDir (rx : Bool) : Dir := if rx then .rx else .tx

/-- Blob bytes 0–63 (Table 09.4), with byte 55 as given. -/
def Image.blobHead (im : Image) (handle : Nat) (e : KeyEnt) (byte55 : Nat) : List Fld :=
  let b : Nat × Nat × Nat × Nat := match e.bound with
    | some (rx, sc, an) => (8 + 16 * b2n rx, (im.sa (boundDir rx) sc an).pn, sc, an)
    | none => (0, 0, 0, 0)
  [(1, 1), (1, landingKind handle e), (1, e.origin),
   (1, b2n e.len256 + 2 * b2n e.xpn + 4 * b2n e.pinned + b.1), (4, handle), (4, e.parent), (8, e.serial),
   (8, e.parSerial), (8, if hLanding handle = 5 then e.run else 0), (8, b.2.1),
   (4, if e.xpn then e.ssci else 0), (4, e.gen), (2, b.2.2.1), (1, b.2.2.2), (1, byte55), (8, e.kcv)]

/-- Blob bytes 64–111 in clear: the key, the salt, zeros (Table 09.4). -/
def blobMaterial (e : KeyEnt) : List Nat := leBytes 32 e.key ++ leBytes 12 e.salt ++ [0, 0, 0, 0]

/-- The 128 bytes of a blob: bytes 0–63, the material sealed with AES-SIV under them, the synthetic IV (R273). -/
def State.blob (s : State) (x : Half) (handle : Nat) (e : KeyEnt) : List Fld :=
  let h := (s.img x).blobHead handle e 0
  let k := s.wrapKey x handle
  let v := sivTag k (h.flatMap fldBytes) (blobMaterial e)
  h ++ [(48, leNat ((sivCrypt k v (blocksOf (blobMaterial e))).flatMap wordBytes)), (16, leNat (wordBytes v))]

/-- A blob as its 128 bytes. -/
def State.blobBytes (s : State) (x : Half) (handle : Nat) (e : KeyEnt) : List Nat := (s.blob x handle e).flatMap fldBytes

/-! ## Opening (R276) -/

/-- A field of a blob. -/
def blobAt (bs : List Nat) (off n : Nat) : Nat := leNat (bytesAt bs off n)

/-- The 48 bytes of material that a blob opens to, and whether its SIV verifies (R273). -/
def State.openBlob (s : State) (x : Half) (handle : Nat) (bs : List Nat) : List Nat × Bool :=
  let k := s.wrapKey x handle
  let v := beNat (bytesAt bs 112 16)
  let m := (sivCrypt k v (blocksOf (bytesAt bs 64 48))).flatMap wordBytes
  (m, decide (sivTag k (bytesAt bs 0 64) m = v))

/-- The checks of R276 in their order: that it fails, its number, and the status that it sets.  The last check of the
table, of the use, is made where the use is asked for. DESIGN CHOICE: notes/assumptions/36.md. -/
def State.blobChecks (s : State) (x : Half) (handle : Nat) (bs : List Nat) : List (Bool × Nat × Nat) :=
  let im := s.img x
  let e := im.key handle
  let p := im.key e.parent
  let run := blobAt bs 28 8
  let m := s.openBlob x handle bs
  [(decide (blobAt bs 0 1 ≠ 1 ∨ (run ≠ 0 ∧ run ≠ s.flash.run)), 0, stKeyInvalid),
   (!m.2, 1, stKeyInvalid),
   (decide (blobAt bs 4 4 ≠ handle ∨ blobAt bs 1 1 ≠ landingKind handle e ∨ blobAt bs 12 8 ≠ e.serial ∨
      blobAt bs 48 4 ≠ e.gen ∨ e.st = 0 ∨ e.st = 3), 2, stKeyInvalid),
   (decide (kcv (decide (blobAt bs 3 1 % 2 = 1)) (leNat (m.1.take 32)) ≠ blobAt bs 56 8), 3, stKeyInvalid),
   (decide (hLanding handle ≠ 3 ∧ ((p.st ≠ 1 ∧ p.st ≠ 2) ∨ p.serial ≠ blobAt bs 20 8)), 4, stOrphaned),
   (decide (e.st ≠ 1 ∧ e.st ≠ 2), 5, stOrphaned)]

/-- The first check that a blob fails (R276). -/
def State.blobFails (s : State) (x : Half) (handle : Nat) (bs : List Nat) : Option (Bool × Nat × Nat) :=
  (s.blobChecks x handle bs).find? (·.1)

/-! ## The wharf (R279) -/

/-- A slot of the wharf written; the write goes out with the next copy (R191). -/
def HState.setWharf (x : HState) (i : Nat) (bs : List Nat) : HState :=
  { x with wharf := tabSet [] x.wharf i bs, wharfNew := x.wharfNew ++ [(i, bs)] }

/-- The slot of a SAK written with its blob, as the key register and its SA stand. -/
def State.toWharf (s : State) (x : Half) (handle : Nat) : State :=
  s.modHalf x fun y => y.setWharf (hIndex handle) (s.blobBytes x handle (y.img.key handle))

/-- The slot of a SAK emptied. -/
def State.clearWharf (s : State) (x : Half) (handle : Nat) : State :=
  s.modHalf x fun y => y.setWharf (hIndex handle) []

/-- The blob of a SAK. -/
def HState.wharfAt (x : HState) (handle : Nat) : List Nat := tabGet [] x.wharf (hIndex handle)

/-- The standby writes what a copy brings (R191). -/
def HState.takeWharf (x : HState) (ws : List (Nat × List Nat)) : HState :=
  { x with wharf := ws.foldl (fun t p => tabSet [] t p.1 p.2) x.wharf }

end Sys2Proof.Machine
end

