-- ==== Sys2Proof/Machine/Tables.lean ====
section
/-! DEFINITION. The channel table, the policy trie and the pairing table (07): lookups, changes, aging and the table ring's
commands. -/

namespace Sys2Proof.Machine

open Sys2Proof

/-! ## Channel entries (Table 07.1, Table 07.2) -/

/-- Bits [hi:lo] of a channel version. -/
def vb (v : BitVec 128) (hi lo : Nat) : Nat := v.toNat / 2 ^ lo % 2 ^ (hi + 1 - lo)

def vInValid (v : BitVec 128) : Bool := decide (vb v 0 0 = 1)
def vInMode (v : BitVec 128) : Nat := vb v 2 1
def vTxSc (v : BitVec 128) : Nat := vb v 14 3
def vClass (v : BitVec 128) : Nat := vb v 17 15
def vPolEn (v : BitVec 128) : Bool := decide (vb v 18 18 = 1)
def vPolicer (v : BitVec 128) : Nat := vb v 32 19
def vDomain (v : BitVec 128) : Nat := vb v 36 33
def vRetValid (v : BitVec 128) : Bool := decide (vb v 64 64 = 1)
def vRetPort (v : BitVec 128) : Nat := vb v 69 65
def vRetClass (v : BitVec 128) : Nat := vb v 72 70
def vLearn (v : BitVec 128) : Bool := decide (vb v 73 73 = 1)
def vStnMax (v : BitVec 128) : Nat := vb v 91 74

/-- A channel entry. -/
def Image.chanAt (im : Image) (i : Nat) : Chan := tabGet {} im.chan i
/-- The image with a channel entry set. -/
def Image.setChan (im : Image) (i : Nat) (c : Chan) : Image := { im with chan := tabSet {} im.chan i c }
/-- The version that SEL names (R208). -/
def Chan.cur (c : Chan) : BitVec 128 := if c.sel then c.v1 else c.v0
/-- IDLE of an entry, saturating at 31 (R212). -/
def Image.chanIdle (im : Image) (c : Chan) : Nat := min 31 ((im.sweeps : Int) + c.idleOff).toNat
/-- The control word of an entry. -/
def Image.chanCtrl (im : Image) (c : Chan) : Nat :=
  b2n c.sel * 2 ^ 31 + b2n c.lock * 2 ^ 30 + b2n c.hit * 2 ^ 29 + im.chanIdle c * 2 ^ 24 + c.stnCount

/-- LOCK clears, and the held change to STN_COUNT applies (R210). -/
def Chan.unlock (c : Chan) : Chan :=
  { c with lock := false, stnCount := ((c.stnCount : Int) + c.pend).toNat, pend := 0 }

/-- A change to STN_COUNT: held while LOCK is 1 (R210). -/
def Chan.addStn (c : Chan) (n : Int) : Chan :=
  if c.lock then { c with pend := c.pend + n } else { c with stnCount := ((c.stnCount : Int) + n).toNat }

/-- A lookup uses the entry: HIT is set. -/
def Image.chanHit (im : Image) (i : Nat) : Image := im.setChan i { im.chanAt i with hit := true }

/-- R211: the module accepts this version for this entry. -/
def Image.acceptVersion (im : Image) (i : Nat) (v : BitVec 128) : Bool :=
  let p := i / 4096
  decide (i < 131072 ∧ vInMode v ≠ 3 ∧ vb v 63 37 = 0 ∧ vb v 127 92 = 0) &&
  (!vInValid v || im.pktClient p) && (!vRetValid v || im.pktLine p) &&
  (match (im.sc .tx (vTxSc v)).args with | some a => decide (a.domain = vDomain v) | none => false) &&
  im.pktClient (vRetPort v)

/-- Write the version that SEL does not name, then flip, lock, unlock and clear as asked (R209, R210). -/
def Image.chanWrite (im : Image) (i : Nat) (flip holdLock unlock clearHw : Bool) (v : BitVec 128) : Image :=
  let c := im.chanAt i
  let c : Chan := if c.sel then { c with v0 := v } else { c with v1 := v }
  let c := if flip then { c with sel := !c.sel } else c
  let c := if clearHw then { c with hit := false, idleOff := -(im.sweeps : Int) } else c
  im.setChan i (if holdLock && !unlock then { c with lock := true } else c.unlock)

/-- The common form of a table command: PF only, reserved bytes 0 (R233). -/
def State.tblCommand (s : State) (h : Hdr) (op : Nat) (badArgs : Half → Bool) (fails : Half → List (Bool × Nat))
    (act : Half → State → State) : State :=
  s.command h op (fun x => decide (h.fn ≠ 0) || !h.clean || badArgs x) fails act

/-- CHAN_WRITE (R209–R211). -/
def execChanWrite (h : Hdr) (index : Nat) (flip holdLock unlock clearHw : Bool) (version : BitVec 128) (s : State) :
    Host.Outcome State Fault Refusal :=
  .next <| s.tblCommand h 0x0201 (fun x => !(s.img x).acceptVersion index version) (fun _ => [])
    (fun x s => (s.modImg x fun im => im.chanWrite index flip holdLock unlock clearHw version).done x h 0x0201)

/-- CHAN_READ: both versions and the control word. -/
def execChanRead (h : Hdr) (index addr : Nat) (s : State) : Host.Outcome State Fault Refusal :=
  .next <| s.tblCommand h 0x0202 (fun _ => decide (131072 ≤ index)) (fun _ => [])
    (fun x s =>
      let im := s.img x
      let c := im.chanAt index
      s.reply x h 0x0202 [] addr [(16, c.v0.toNat), (16, c.v1.toNat), (4, im.chanCtrl c)])

/-- Apply the records of a bulk command in order up to the first that fails (R234): how many were applied, the
status of the one that failed, and the image. -/
def applyRecs {α : Type} (f : Nat → α → Image → Nat ⊕ Image) : Nat → List α → Image → Nat × Option Nat × Image
  | n, [], im => (n, none, im)
  | n, r :: rest, im =>
    match f n r im with
    | .inl st => (n, some st, im)
    | .inr im' => applyRecs f (n + 1) rest im'

/-- A bulk command (R234): records that the DMA did not bring end it with INTEGRITY. -/
def State.bulk {α : Type} (s : State) (x : Half) (h : Hdr) (op count : Nat) (recs : List α)
    (f : Nat → α → Image → Nat ⊕ Image) : State :=
  let r := applyRecs f 0 (recs.take count) (s.img x)
  let s := s.modImg x fun _ => r.2.2
  match r.2.1 with
  | some st => s.postCpl x (cmdOf h op) st 0 [(4, r.1), (4, r.1), (1, st)]
  | none =>
    if recs.length < count then s.postCpl x (cmdOf h op) stIntegrity 0 [(4, r.1), (4, r.1), (1, stIntegrity)]
    else s.done x h op [(4, r.1), (4, 0), (1, 0)]

/-- CHAN_BULK: one CHAN_WRITE per record on consecutive entries. -/
def execChanBulk (h : Hdr) (first count addr : Nat) (flip : Bool) (recs : List (BitVec 128)) (s : State) :
    Host.Outcome State Fault Refusal :=
  .next <| s.tblCommand h 0x0203 (fun _ => decide (2 ^ 64 ≤ addr ∨ 2 ^ 32 ≤ count)) (fun _ => [])
    (fun x s => s.bulk x h 0x0203 count recs fun n v im =>
      if im.acceptVersion (first + n) v then .inr (im.chanWrite (first + n) flip false false false v)
      else .inl stArgs)

/-- An unlocked entry at a sweep that makes `n` of them: HIT goes into IDLE (R212). -/
def Chan.sweep (c : Chan) (n : Int) : Chan :=
  if c.lock then { c with idleOff := c.idleOff - 1 }
  else if c.hit then { c with hit := false, idleOff := -n } else c

/-- The channel table after one sweep more. -/
def Image.chanSweep (im : Image) (now : Nat) : Image :=
  { im with sweeps := im.sweeps + 1, sweptAt := now,
            chan := im.chan.foldl (fun t p => tabSet {} t p.1 (p.2.sweep (im.sweeps + 1))) [] }

/-- CHANNEL_AGING_SWEEP (R212), every SWEEP_S: entries that no table lists have HIT 0 and gain 1 with the count of
sweeps. -/
def execChannelAgingSweep (s : State) : Host.Outcome State Fault Refusal :=
  .next <| match s.holder with
    | none => s
    | some x =>
      if s.now < (s.img x).sweptAt + (s.img x).sweepS * 1000000000 then s
      else s.modImg x fun im => im.chanSweep s.now

/-! ## The policy trie (R213–R220) -/

/-- Address bits of a family that the trie uses: 32 for IPv4, 64 for IPv6. -/
def famWidth (fam : Nat) : Nat := if fam = 4 then 32 else 64

/-- A prefix set lists a prefix under its family, length and address. -/
def pKey (fam len bits : Nat) : Nat :=
  fam * 2 ^ 80 + len * 2 ^ 64 + bits / 2 ^ (famWidth fam - len) * 2 ^ (famWidth fam - len)
def keyFam (k : Nat) : Nat := k / 2 ^ 80
def keyLen (k : Nat) : Nat := k / 2 ^ 64 % 2 ^ 16
/-- The first `b` address bits of a prefix key. -/
def keyTop (k b : Nat) : Nat := k % 2 ^ 64 / 2 ^ (famWidth (keyFam k) - b)

/-- A prefix set. -/
abbrev Bank := Tab (Option (BitVec 32))

/-- Nodes that gallery g needs, `b` being its B_g (R213). -/
def nodesAt (t : Bank) (b : Nat) : Nat :=
  (((t.filter fun p => decide (b < keyLen p.1)).map fun p => (keyFam p.1, keyTop p.1 b)).eraseDups).length

/-- Prefixes of a family. -/
def famCount (t : Bank) (fam : Nat) : Nat := (t.filter fun p => decide (keyFam p.1 = fam)).length

/-- B_1 to B_6. -/
def galleryBits : List Nat := [16, 24, 32, 40, 48, 56]

/-- Use of the pools: nodes of galleries 1–6, IPv4 results, IPv6 results. DEDUCED: notes/assumptions/94.md. -/
def trieUse (t : Bank) : List Nat := galleryBits.map (nodesAt t) ++ [famCount t 4, famCount t 6]

/-- Sizes of the pools (Table 07.3). -/
def triePools : List Nat := [32768, 16384, 8192, 8192, 8192, 8192, 262144, 131072]

/-- Each part at most its pool. -/
def fitsPools (use : List Nat) : Bool := (use.zip triePools).all fun p => decide (p.1 ≤ p.2)

/-- Sum of two uses, part by part. -/
def addUse (a b : List Nat) : List Nat := (a.zip b).map fun p => p.1 + p.2

/-- The one existing node that a change of prefix `k` copies (R216): the deepest node of `t` on its path. DEDUCED:
notes/assumptions/94.md. -/
def copiedNode (t : Bank) (k : Nat) : List Nat :=
  let on := galleryBits.map fun b => decide (b < keyLen k) &&
    t.any fun p => decide (keyFam p.1 = keyFam k ∧ b < keyLen p.1) && decide (keyTop p.1 b = keyTop k b)
  let depth := (on.takeWhile (· = true)).length
  ((List.range 6).map fun i => b2n (decide (i + 1 = depth))) ++ [0, 0]

/-- The bank in service and the other. -/
def Trie.serve (t : Trie) : Bank := if t.serving then t.bank1 else t.bank0
def Trie.idle (t : Trie) : Bank := if t.serving then t.bank0 else t.bank1
def Trie.setServe (t : Trie) (b : Bank) : Trie := if t.serving then { t with bank1 := b } else { t with bank0 := b }
def Trie.setIdle (t : Trie) (b : Bank) : Trie := if t.serving then { t with bank0 := b } else { t with bank1 := b }

/-- A prefix record in range. -/
def prefixOk (p : PrefixRec) : Bool :=
  (decide (p.family = 4 ∧ p.len ≤ 32 ∧ p.bits < 2 ^ 32) || decide (p.family = 6 ∧ p.len ≤ 64 ∧ p.bits < 2 ^ 64))

/-- Reserved result bits are 0. -/
def resultOk (r : BitVec 32) : Bool := decide (r.toNat < 2 ^ 17)

/-- What one change uses beside the new prefix set: the node that it copies, and the result that it replaces. -/
def changeUse (t : Bank) (k : Nat) (replaced : Bool) : List Nat :=
  addUse (copiedNode t k)
    ([0, 0, 0, 0, 0, 0] ++ [b2n (replaced && decide (keyFam k = 4)), b2n (replaced && decide (keyFam k = 6))])

/-- Change the serving bank by copy-then-switch (R216, R217): the replaced nodes and results wait for their release.
DEDUCED: notes/assumptions/94.md. -/
def Trie.switchTo (t : Trie) (k : Nat) (new : Bank) : Trie :=
  let old := t.serve
  let replaced := (tabGet none old k).isSome && (tabGet none new k).isSome
  let copy := changeUse (if (tabGet none new k).isSome then old else new) k replaced
  let back := addUse copy ((trieUse old).zip (trieUse new) |>.map fun p => p.1 - p.2)
  { t.setServe new with pending := t.pending ++ [(back, 3)] }

/-- Nodes and results that wait for their release. -/
def Trie.waiting (t : Trie) : List Nat := t.pending.foldl (fun u p => addUse u p.1) [0, 0, 0, 0, 0, 0, 0, 0]

/-- The pools hold the change once everything that waits has returned; and they hold it now. -/
def Trie.couldFit (t : Trie) (k : Nat) (new : Bank) : Bool :=
  fitsPools (addUse (trieUse new) (changeUse t.serve k (tabGet none t.serve k).isSome))
def Trie.roomFor (t : Trie) (k : Nat) (new : Bank) : Bool :=
  fitsPools (addUse t.waiting (addUse (trieUse new) (changeUse t.serve k (tabGet none t.serve k).isSome)))

/-- A prefix with its result in the serving bank, and during a rebuild in the idle bank too (R216, R219). -/
def Trie.add (t : Trie) (k : Nat) (r : BitVec 32) : Trie :=
  let t' := t.switchTo k (tabSet none t.serve k (some r))
  if t.rebuild then t'.setIdle (tabSet none t.idle k (some r)) else t'

/-- Neither bank can ever hold the prefix (R213, R219). -/
def Trie.tooFull (t : Trie) (k : Nat) (r : BitVec 32) : Bool :=
  !t.couldFit k (tabSet none t.serve k (some r)) ||
    (t.rebuild && !fitsPools (trieUse (tabSet none t.idle k (some r))))

/-- The key of a prefix record. -/
def recKey (p : PrefixRec) : Nat := pKey p.family p.len p.bits

/-- TRIE_ADD (R216–R219): during a rebuild the change applies to both banks or to neither; it waits up to 2 crossings for
nodes and results on their way back. DEDUCED: notes/assumptions/94.md. -/
def execTrieAdd (h : Hdr) (p : PrefixRec) (s : State) : Host.Outcome State Fault Refusal :=
  .next <| s.tblCommand h 0x0211 (fun _ => !(prefixOk p && resultOk p.result))
    (fun x => [((s.img x).trie.tooFull (recKey p) p.result, stNoRes)])
    (fun x s =>
      let t := (s.img x).trie
      if t.roomFor (recKey p) (tabSet none t.serve (recKey p) (some p.result)) then
        (s.modImg x fun im => { im with trie := im.trie.add (recKey p) p.result }).done x h 0x0211
      else s.wait x { cmd := cmdOf h 0x0211, on := .pool, status := stDone, cflags := 0, result := [], area := none,
                      cont := .trie p 3 })

/-- A TRIE_ADD that waits for the pools runs if there is room, and fails if its time is over or there never will be
(R217). -/
def State.retryAdd (x : Half) (s : State) (j : Job) : State :=
  let t := (s.img x).trie
  let gone : State → State := fun s => s.modImg x fun im => { im with jobs := im.jobs.filter fun k => decide (k ≠ j) }
  match j.cont with
  | .trie p left =>
    if t.tooFull (recKey p) p.result then (gone s).postCpl x j.cmd stNoRes 0 []
    else if t.roomFor (recKey p) (tabSet none t.serve (recKey p) (some p.result)) then
      ((gone s).modImg x fun im => { im with trie := im.trie.add (recKey p) p.result }).postCpl x j.cmd stDone 0 []
    else if left = 0 then (gone s).postCpl x j.cmd stNoRes 0 [] else s
  | _ => s

/-- Every TRIE_ADD that waits is tried again, in the order in which they came. -/
def State.retryAdds (s : State) (x : Half) : State :=
  ((s.img x).jobs.filter fun j => decide (j.on = .pool)).foldl (State.retryAdd x) s

/-- TRIE_DEL (R218, R219). -/
def execTrieDel (h : Hdr) (p : PrefixRec) (s : State) : Host.Outcome State Fault Refusal :=
  let k := pKey p.family p.len p.bits
  .next <| s.tblCommand h 0x0212 (fun _ => !prefixOk p) (fun _ => [])
    (fun x s =>
      let t := (s.img x).trie
      let absent := (tabGet none t.serve k).isNone
      let s := s.modImg x fun im =>
        let t' := if absent then t else t.switchTo k (tabSet none t.serve k none)
        { im with trie := if t.rebuild then t'.setIdle (tabSet none t.idle k none) else t' }
      s.postCpl x (cmdOf h 0x0212) stDone (if absent then cfAbsent else 0) [])

/-- TRIE_BULK (R219): into the idle bank. -/
def execTrieBulk (h : Hdr) (count addr : Nat) (recs : List PrefixRec) (s : State) :
    Host.Outcome State Fault Refusal :=
  .next <| s.tblCommand h 0x0213
    (fun x => !(s.img x).trie.rebuild || decide (2 ^ 64 ≤ addr ∨ 2 ^ 32 ≤ count)) (fun _ => [])
    (fun x s => s.bulk x h 0x0213 count recs fun _ p im =>
      let b := tabSet none im.trie.idle (pKey p.family p.len p.bits) (some p.result)
      if !(prefixOk p && resultOk p.result) then .inl stArgs
      else if fitsPools (trieUse b) then .inr { im with trie := im.trie.setIdle b } else .inl stNoRes)

/-- TRIE_REBUILD_BEGIN (R219, R220): the idle bank is emptied. -/
def execTrieRebuildBegin (h : Hdr) (s : State) : Host.Outcome State Fault Refusal :=
  .next <| s.tblCommand h 0x0214 (fun x => (s.img x).trie.rebuild) (fun _ => [])
    (fun x s => (s.modImg x fun im =>
      { im with trie := { im.trie.setIdle [] with rebuild := true, oldBank := none } }).done x h 0x0214)

/-- Post TRIE_COMMITTED: bank now serving; IPv4 and IPv6 prefixes; free nodes of galleries 1–6. -/
def State.postTrie (s : State) (x : Half) : State :=
  let t := (s.img x).trie
  let u := trieUse t.serve
  s.post x .cores 0x0206 ([(1, b2n t.serving), (4, famCount t.serve 4), (4, famCount t.serve 6)] ++
    (((triePools.zip u).take 6).map fun p => (2, p.1 - p.2)))

/-- TRIE_REBUILD_COMMIT (R220): one write, after which every lookup reads the other bank. -/
def execTrieRebuildCommit (h : Hdr) (s : State) : Host.Outcome State Fault Refusal :=
  .next <| s.tblCommand h 0x0215 (fun x => !(s.img x).trie.rebuild) (fun _ => [])
    (fun x s => ((s.modImg x fun im =>
      { im with trie := { im.trie with serving := !im.trie.serving, rebuild := false, pending := [],
                                       oldBank := some 2 } }).postTrie x).done x h 0x0215)

/-- TRIE_REBUILD_ABORT (R220). -/
def execTrieRebuildAbort (h : Hdr) (s : State) : Host.Outcome State Fault Refusal :=
  .next <| s.tblCommand h 0x0216 (fun x => !(s.img x).trie.rebuild) (fun _ => [])
    (fun x s => (s.modImg x fun im =>
      { im with trie := { im.trie.setIdle [] with rebuild := false } }).done x h 0x0216)

/-- The longest prefix that matches the address bits of a family, with its result (R214). -/
def trieFind (t : Bank) (fam bits : Nat) : Option (Nat × BitVec 32) :=
  ((List.range (famWidth fam + 1)).reverse).findSome? fun len =>
    (tabGet none t (pKey fam len bits)).map fun r => (len, r)

/-- TRIE_LOOKUP: matched length and result, or ABSENT on a miss. -/
def execTrieLookup (h : Hdr) (family addr : Nat) (s : State) : Host.Outcome State Fault Refusal :=
  .next <| s.tblCommand h 0x0217
    (fun _ => !(decide (family = 4 ∧ addr < 2 ^ 32) || decide (family = 6 ∧ addr < 2 ^ 128))) (fun _ => [])
    (fun x s =>
      match trieFind (s.img x).trie.serve family (if family = 4 then addr else addr / 2 ^ 64) with
      | some (len, w) => s.done x h 0x0217 [(1, len), (4, w.toNat)]
      | none => s.postCpl x (cmdOf h 0x0217) stDone cfAbsent [(1, 0), (4, 0)])

/-- What 2 whole crossings have passed over returns to its pool (R217). -/
def Trie.release (t : Trie) : Trie := { t with pending := t.pending.filter fun p => decide (p.2 ≠ 0) }

/-- TRIE_NODE_RELEASE (R217): and what waits for room goes on. -/
def execTrieNodeRelease (s : State) : Host.Outcome State Fault Refusal :=
  .next <| match s.holder with
    | none => s
    | some x => (s.modImg x fun im => { im with trie := im.trie.release }).retryAdds x

/-- TRIE_BANK_RELEASE (R220). -/
def execTrieBankRelease (s : State) : Host.Outcome State Fault Refusal :=
  .next <| match s.holder with
    | none => s
    | some x =>
      if (s.img x).trie.oldBank = some 0 then
        s.modImg x fun im => { im with trie := { im.trie.setIdle [] with oldBank := none } }
      else s

/-- A crossing ends: the waits of R217 and R220 shorten. -/
def Trie.crossing (t : Trie) : Trie :=
  { t with pending := t.pending.map fun p => (p.1, p.2 - 1), oldBank := t.oldBank.map (· - 1) }

/-- A TRIE_ADD that waits has one crossing end less to wait for. -/
def Job.crossing (j : Job) : Job :=
  match j.cont with
  | .trie p n => { j with cont := .trie p (n - 1) }
  | _ => j

/-- A crossing ends for the trie: where a wait ends with it, what is due returns to its pool first (R217). -/
def State.trieCrossing (s : State) (x : Half) : State :=
  let s := s.modImg x fun im => { im with trie := im.trie.crossing, jobs := im.jobs.map Job.crossing }
  if (s.img x).jobs.any fun j => match j.cont with | .trie _ n => decide (n = 0) | _ => false then
    (s.modImg x fun im => { im with trie := im.trie.release }).retryAdds x
  else s

/-! ## Pairing table (R221) -/

/-- The transmit SC that a pairing entry gives, if it is valid and lies in the key domain. -/
def Image.pairedSc (im : Image) (rxSc domain : Nat) : Option Nat :=
  let e := (tabGet 0 im.pairTab rxSc).toNat
  if e / 2 ^ 15 % 2 = 1 then
    match (im.sc .tx (e % 4096)).args with
    | some a => if a.domain = domain then some (e % 4096) else none
    | none => none
  else none

/-- PAIR_WRITE (R221). -/
def execPairWrite (h : Hdr) (sc : Nat) (entry : BitVec 16) (s : State) : Host.Outcome State Fault Refusal :=
  .next <| s.tblCommand h 0x0231 (fun _ => decide (8192 ≤ sc ∨ entry.toNat / 4096 % 8 ≠ 0))
    (fun x => [(((s.img x).sc .rx sc).args.any (·.mka), stLocked)])
    (fun x s => (s.modImg x fun im => { im with pairTab := tabSet 0 im.pairTab sc entry }).done x h 0x0231)

end Sys2Proof.Machine
end

