-- ==== Sys2Proof/Machine/Secy.lean ====
section
/-! DEFINITION. Secure channels and associations of packet mode (06): residency, packet numbers, changes of AN, and
the SecY commands. -/

namespace Sys2Proof.Machine

open Sys2Proof

/-! ## Residency (R190–R195) -/

/-- SAs of a direction by 4·SC + AN. -/
def Image.saTab (im : Image) : Dir → Tab Sa
  | .tx => im.saTx
  | .rx => im.saRx

/-- Resident SAs of a direction. -/
def Image.saResident (im : Image) (d : Dir) : Nat := ((im.saTab d).filter (·.2.resident)).length
/-- Pinned SAs of a direction. -/
def Image.saPinned (im : Image) (d : Dir) : Nat := ((im.saTab d).filter (·.2.pinned)).length
/-- Parked SAs of both directions. -/
def Image.saParked (im : Image) : Nat :=
  (((im.saTab .tx) ++ (im.saTab .rx)).filter fun p => p.2.inst && !p.2.resident).length
/-- Loads running. -/
def Image.saLoads (im : Image) : Nat := (((im.saTab .tx) ++ (im.saTab .rx)).filter (·.2.loading)).length

/-- An SA has a frame in the cipher stage or held for it (R190). -/
def HState.saBusy (x : HState) (d : Dir) (k : Nat) : Bool :=
  (x.held.any fun h => decide (h.dir = d ∧ 4 * h.sc + h.an = k)) ||
    match d with
    | .rx => x.rxFrames.any fun r => decide (4 * r.sc + r.an = k)
    | .tx => (x.sending ++ x.paused).any fun p => match p.2 with
        | some v => !v.frame.clear && decide (4 * v.frame.sc + v.frame.an = k)
        | none => false

/-- The resident SA that the module parks to make room (R190): unpinned, not busy, unused longest, to 1.024 µs. -/
def HState.victim (x : HState) (d : Dir) : Option Nat :=
  ((x.img.saTab d).filter fun p => p.2.resident && !p.2.pinned && !x.saBusy d p.1).foldl (fun m p =>
    match m with
    | none => some p.1
    | some k => if p.2.lastUse / 1024 < (tabGet {} (x.img.saTab d) k : Sa).lastUse / 1024 then some p.1 else some k) none

/-- Park a resident SA: its blob goes to the wharf with its PN (R190). -/
def State.park (s : State) (x : Half) (d : Dir) (k : Nat) : State :=
  let v := (s.img x).sa d (k / 4) (k % 4)
  (s.modImg x fun im => im.setSa d (k / 4) (k % 4) { v with resident := false }).toWharf x v.handle

/-- Room for one more resident SA of a direction, with a victim parked where that makes it. -/
def State.saRoom (s : State) (x : Half) (d : Dir) : Bool × State :=
  if (s.img x).saResident d < 16384 then (true, s)
  else match (s.half x).victim d with
    | some k => (true, s.park x d k)
    | none => (false, s)

/-- An SA is resident. -/
def State.makeResident (s : State) (x : Half) (d : Dir) (sc an : Nat) : State :=
  s.modImg x fun im => im.setSa d sc an
    { im.sa d sc an with resident := true, loading := false, wanted := false, lastUse := s.now }

/-- Start a load of a parked SA (R192); where as many run as may, it waits for one of them (R193). DEDUCED:
notes/assumptions/52.md. -/
def State.startLoad (s : State) (x : Half) (d : Dir) (sc an : Nat) : State :=
  let v := (s.img x).sa d sc an
  if v.loading then s
  else if (s.img x).maxLoads ≤ (s.img x).saLoads then s.modImg x fun im => im.setSa d sc an { v with wanted := true }
  else (s.modImg x fun im => im.setSa d sc an { v with loading := true, wanted := false }).happen x 0x50 d.idx 1

/-- The first SA of a direction whose load waits. -/
def Image.firstWanted (im : Image) (d : Dir) : Option Nat := ((im.saTab d).find? (·.2.wanted)).map (·.1)

/-- A load has ended: one that waits starts. -/
def State.nextLoad (s : State) (x : Half) : State :=
  match (s.img x).firstWanted .tx, (s.img x).firstWanted .rx with
  | some k, _ => s.startLoad x .tx (k / 4) (k % 4)
  | none, some k => s.startLoad x .rx (k / 4) (k % 4)
  | none, none => s

/-- The domain of an SC, 0 while it does not exist. -/
def Image.scDomain (im : Image) (d : Dir) (i : Nat) : Nat := match (im.sc d i).args with | some a => a.domain | none => 0

/-- Post an event about an SC. -/
def State.postSc (s : State) (x : Half) (d : Dir) (sc code : Nat) (payload : List Fld) : State :=
  s.post x .cores code payload (.dom ((s.img x).scDomain d sc))

/-! ## Packet numbers (R181–R184) -/

/-- The suite of an SC. -/
def Image.scSuite (im : Image) (d : Dir) (i : Nat) : Suite :=
  match (im.sc d i).args with | some a => a.suite | none => .gcm128

/-- The last PN of a suite (R183). -/
def lastPn (u : Suite) : Nat := if suiteXpn u then 2 ^ 64 - 1 else 2 ^ 32 - 1

/-- The threshold of a suite (R182). -/
def Image.pnThresh (im : Image) (u : Suite) : Nat := if suiteXpn u then im.xpnThresh else im.thresh32

/-- The advance of R184. -/
def pnAdvance (u : Suite) : Nat := if suiteXpn u then 2 ^ 24 else 2 ^ 20

/-! ## Changes of AN (R187) -/

/-- An SA becomes the current AN of a transmit SC.  Post SECY_SA_ACTIVE: SC; new AN; first PN used. -/
def State.activateNow (s : State) (x : Half) (sc an : Nat) : State :=
  let c := (s.img x).sc .tx sc
  (s.modImg x fun im => im.setSc .tx sc { c with cur := some an, next := none }).postSc x .tx sc 0x0B03
    [(2, sc), (1, an), (8, ((s.img x).sa .tx sc an).pn)]

/-- An activation (R187, R199): at once when the SA is resident, after a load when it is parked. -/
def State.activate (s : State) (x : Half) (sc an : Nat) : State :=
  if ((s.img x).sa .tx sc an).resident then s.activateNow x sc an
  else (s.modImg x fun im => im.setSc .tx sc { im.sc .tx sc with next := some an }).startLoad x .tx sc an

/-- The next PN of a transmit SA has reached its threshold (R182): reported once, MKA is asked, and an automatic advance
may start (R187, R199). -/
def State.pnReached (s : State) (x : Half) (sc an : Nat) : State :=
  let im := s.img x
  let c := im.sc .tx sc
  let v := im.sa .tx sc an
  match c.args with
  | none => s
  | some a =>
    if !v.inst || v.thrPosted || decide (v.pn < im.pnThresh a.suite) then s
    else
      let s := (s.modImg x fun im => { im.setSa .tx sc an { v with thrPosted := true } with
          wantSak := if a.mka && !im.wantSak.contains sc then im.wantSak ++ [sc] else im.wantSak }).postSc x .tx sc
        0x0B01 [(2, sc), (1, an), (8, v.pn)]
      let nx := (an + 1) % 4
      if a.autoAdvance && decide (c.cur = some an) && c.next.isNone && ((s.img x).sa .tx sc nx).inst then
        s.activate x sc nx
      else s

/-- The thresholds of every transmit SA (R182), as after the advance of a takeover. -/
def State.pnReachedAll (s : State) (x : Half) : State :=
  ((s.img x).saTx.map Prod.fst).foldl (fun s k => s.pnReached x (k / 4) (k % 4)) s

/-! ## Creating, installing, retiring -/

/-- Create an SC at an index. -/
def Image.createSc (im : Image) (i : Nat) (a : ScArgs) : Image := im.setSc a.dir i { args := some a }

/-- A SAK is free to be bound to an SA of this SC (R276, R283): it is no SA's already, its material is there, and its
kind, length and XPN suit the suite. -/
def sakSuits (e : KeyEnt) (u : Suite) : Bool :=
  decide (e.kind = 8) && e.bound.isNone && decide (e.len256 = suite256 u) && decide (e.xpn = suiteXpn u)

/-- Install an SA (R186, R190): its wharf slot records the binding (R279); it is resident while key RAM has room, and a
pinned one is loaded where there is none. -/
def State.installSa (s : State) (x : Half) (a : SaArgs) : State :=
  let im := s.img x
  let pin := a.pin || (im.sc a.dir a.sc).args.any (·.express)
  let v : Sa := { inst := true, handle := a.handle, pn := a.pn, ssci := a.ssci, pinned := pin, lastUse := s.now }
  let s := (s.modImg x fun im =>
    (im.setSa a.dir a.sc a.an v).setKey a.handle
      { im.key a.handle with bound := some (decide (a.dir = .rx), a.sc, a.an), ssci := a.ssci, pinned := pin }).toWharf x
    a.handle
  let s := if im.saResident a.dir < 16384 then s.makeResident x a.dir a.sc a.an
    else if pin then s.startLoad x a.dir a.sc a.an else s
  if a.dir = .tx then s.pnReached x a.sc a.an else s

/-- Drop the frames held for an SA, counted (R199): how many, and the state. -/
def State.dropHeld (s : State) (x : Half) (d : Dir) (sc an idx : Nat) : Nat × State :=
  let mine := (s.half x).held.filter fun h => decide (h.dir = d ∧ h.sc = sc ∧ h.an = an)
  let s := s.modHalf x fun y => { y with held := y.held.filter fun h => !decide (h.dir = d ∧ h.sc = sc ∧ h.an = an) }
  (mine.length, if mine.isEmpty then s else s.count x (match d with | .rx => 6 | .tx => 7) sc idx mine.length)

/-- Complete the commands that wait for a load of an SA: with a status, or with their own. -/
def State.endSaWait (s : State) (x : Half) (d : Dir) (sc an : Nat) (status : Option Nat) : State :=
  let mine : Job → Bool := fun j => decide (j.on = .sa d sc an)
  let js := (s.img x).jobs.filter mine
  js.foldl (fun s j => s.postCpl x j.cmd (status.getD j.status) j.cflags j.result)
    (s.modImg x fun im => { im with jobs := im.jobs.filter fun j => !mine j })

/-- A change of AN that waits for an SA ends (R199). -/
def Image.dropNext (im : Image) (d : Dir) (sc an : Nat) : Image :=
  let c := im.sc d sc
  im.setSc d sc { c with next := if c.next = some an then none else c.next }

/-- Statistics index of held frames that an SA's end drops: InPktsNotUsingSA on receive, orphaned drops on transmit. -/
def retireIdx : Dir → Nat
  | .rx => 6
  | .tx => 3

/-- Retire an SA (R199): erased from key RAM and wharf, a pending load abandoned, held frames dropped, its SAK's
material gone. -/
def State.retireSa (s : State) (x : Half) (d : Dir) (sc an : Nat) : State :=
  let v := (s.img x).sa d sc an
  if !v.inst then s
  else
    let s := (s.dropHeld x d sc an (retireIdx d)).2
    let s := s.endSaWait x d sc an (some stKeyInvalid)
    let s := (s.modImg x fun im =>
      let im := (im.setSa d sc an {}).dropNext d sc an
      let c := im.sc d sc
      (im.setSc d sc { c with cur := if c.cur = some an then none else c.cur }).setKey v.handle
        { im.key v.handle with bound := none, pinned := false, gone := true }).clearWharf x v.handle
    if v.loading then s.nextLoad x else s

/-- An SA enters ORPHANED (R201): a pending load is abandoned, its held frames dropped and counted (R199). -/
def State.orphanSa (s : State) (x : Half) (d : Dir) (sc an : Nat) : State :=
  let v := (s.img x).sa d sc an
  let s := (s.dropHeld x d sc an (match d with | .rx => 12 | .tx => 3)).2
  let s := s.endSaWait x d sc an (some stOrphaned)
  let s := s.modImg x fun im =>
    (im.setSa d sc an { im.sa d sc an with orphaned := true, loading := false, wanted := false }).dropNext d sc an
  if v.loading then s.nextLoad x else s

/-- MKA's pairing entry of a receive SC toward the same peer (R221); deleting the SC clears it. -/
def pairEntry (tx : Nat) : BitVec 16 := BitVec.ofNat 16 (2 ^ 15 + tx % 4096)

/-- The frames of an SC leave the queues: they have no SC any more. -/
def HState.purgeSc (x : HState) (sc : Nat) : HState :=
  { x with queues := x.queues.foldl (fun t p =>
      tabSet [] t p.1 (if p.1 < 256 then p.2 else p.2.filter fun f => decide (f.sc ≠ sc))) [] }

/-- Delete an SC with its SAs; an MKA-managed receive SC takes its pairing entry with it (R221). -/
def State.deleteSc (s : State) (x : Half) (d : Dir) (sc : Nat) : State :=
  let s := [0, 1, 2, 3].foldl (fun s an => s.retireSa x d sc an) s
  let s := if d = .tx then s.modHalf x fun y => y.purgeSc sc else s
  s.modImg x fun im => { im.setSc d sc {} with
    wantSak := if d = .tx then im.wantSak.filter (· ≠ sc) else im.wantSak,
    pairTab := if d = .rx ∧ (im.sc d sc).args.any (·.mka) then tabDel im.pairTab sc else im.pairTab }

/-! ## Commands (Table 06.4) -/

/-- The SC exists, and the function may command it (R202). -/
def Image.scOpen (im : Image) (fn : Nat) (d : Dir) (i : Nat) : Bool :=
  decide (i < scCount d) && (match (im.sc d i).args with | some a => serves fn a.domain | none => false)

/-- The SC is MKA-managed. -/
def Image.scMka (im : Image) (d : Dir) (i : Nat) : Bool := (im.sc d i).args.any (·.mka)

/-- The fields of SECY_SC_CREATE lie in range, and its port is one under the split (R47). -/
def Image.scArgsOk (im : Image) (a : ScArgs) : Bool :=
  decide (a.sci < 2 ^ 64 ∧ a.domain < 16 ∧ a.clearTags ≤ 2 ∧ a.replayWindow ≤ 2 ^ 30) &&
    [0, 30, 50].contains a.confOffset && im.isLinePort a.port

/-- SECY_SC_CREATE (R202). DESIGN CHOICE: notes/assumptions/8.md. -/
def execSecyScCreate (h : Hdr) (a : ScArgs) (s : State) : Host.Outcome State Fault Refusal :=
  .next <| s.command h 0x0B01
    (fun x => !(s.img x).scArgsOk a || !serves h.fn a.domain)
    (fun x => [(decide (scCount a.dir ≤
      (match a.dir with | .tx => (s.img x).scTx | .rx => (s.img x).scRx).length), stNoRes)])
    (fun x s =>
      let (c, s) := s.draw
      match pickFree (fun i => ((s.img x).sc a.dir i).args.isSome) (scCount a.dir) c with
      | some i => (s.modImg x fun im => im.createSc i a).done x h 0x0B01 [(2, i)]
      | none => s.postCpl x (cmdOf h 0x0B01) stNoRes 0 [])

/-- SECY_SC_DELETE (R202). -/
def execSecyScDelete (h : Hdr) (dir : Dir) (sc : Nat) (s : State) : Host.Outcome State Fault Refusal :=
  .next <| s.command h 0x0B02
    (fun x => !(s.img x).scOpen h.fn dir sc)
    (fun x => [((s.img x).scMka dir sc, stLocked)])
    (fun x s => (s.deleteSc x dir sc).done x h 0x0B02)

/-- SECY_SA_INSTALL (R186, R195): the SAK's blob in the wharf passes R276. -/
def execSecySaInstall (h : Hdr) (a : SaArgs) (s : State) : Host.Outcome State Fault Refusal :=
  .next <| s.command h 0x0B03
    (fun x =>
      let im := s.img x
      let u := im.scSuite a.dir a.sc
      let e := im.key a.handle
      !im.scOpen h.fn a.dir a.sc || decide (4 ≤ a.an) || (im.sa a.dir a.sc a.an).inst ||
        decide (hLanding a.handle ≠ 5) || decide (hDomain a.handle ≠ im.scDomain a.dir a.sc) ||
        decide (lastPn u < a.pn ∨ 2 ^ 32 ≤ a.ssci) || (decide (e.st = 1 ∨ e.st = 2) && !sakSuits e u))
    (fun x =>
      let im := s.img x
      let e := im.key a.handle
      let pin := a.pin || (im.sc a.dir a.sc).args.any (·.express)
      [(pin && decide (15360 ≤ im.saPinned a.dir), stNoRes),
       (!pin && decide (16384 ≤ im.saResident a.dir) && decide (1048576 ≤ im.saParked), stNoRes),
       (decide (e.st = 0 ∨ e.st = 3) || e.gone, stKeyInvalid), (im.scMka a.dir a.sc, stLocked),
       (decide (e.st = 4), stOrphaned),
       ((s.blobFails x a.handle ((s.half x).wharfAt a.handle)).isSome,
        ((s.blobFails x a.handle ((s.half x).wharfAt a.handle)).map (·.2.2)).getD stKeyInvalid)])
    (fun x s => (s.installSa x a).done x h 0x0B03)

/-- The status that an SA's key and its parent give to an activation or a load (R199, R201). -/
def Image.saFails (im : Image) (d : Dir) (sc an : Nat) : List (Bool × Nat) :=
  let v := im.sa d sc an
  let e := im.key v.handle
  let p := im.key e.parent
  [(decide (e.st = 0 ∨ e.st = 3), stKeyInvalid),
   (v.orphaned || decide (e.st = 4 ∨ (p.st ≠ 1 ∧ p.st ≠ 2) ∨ p.serial ≠ e.parSerial), stOrphaned)]

/-- SECY_SA_ACTIVATE (R187). -/
def execSecySaActivate (h : Hdr) (sc an : Nat) (w : When) (s : State) : Host.Outcome State Fault Refusal :=
  .next <| s.command h 0x0B04
    (fun x => !(s.img x).scOpen h.fn .tx sc || decide (4 ≤ an) || !((s.img x).sa .tx sc an).inst ||
      (s.half x).badWhen w)
    (fun x =>
      [(decide (w ≠ .immediate) && (s.img x).schedFull h.fn 1, stNoRes), ((s.img x).scMka .tx sc, stLocked)] ++
        (if w = .immediate then (s.img x).saFails .tx sc an else []))
    (fun x s => match w with
      | .scheduled tb i => s.arm x h.fn 0x0B04 (some (cmdOf h 0x0B04)) tb i.time 0 (.activate sc an)
      | .immediate =>
        let was := ((s.img x).sa .tx sc an).resident
        let s := s.activate x sc an
        if was then s.done x h 0x0B04
        else s.wait x { cmd := cmdOf h 0x0B04, on := .sa .tx sc an, status := stDone, cflags := 0, result := [],
                        area := none, cont := .activate sc an })

/-- SECY_SA_RETIRE (R199). -/
def execSecySaRetire (h : Hdr) (dir : Dir) (sc an : Nat) (s : State) : Host.Outcome State Fault Refusal :=
  .next <| s.command h 0x0B05
    (fun x => !(s.img x).scOpen h.fn dir sc || decide (4 ≤ an) || !((s.img x).sa dir sc an).inst ||
      decide (dir = .tx ∧ ((s.img x).sc .tx sc).cur = some an))
    (fun x => [((s.img x).scMka dir sc, stLocked)])
    (fun x s => (s.retireSa x dir sc an).done x h 0x0B05)

/-- SECY_SA_PIN (R195): a parked SA that is pinned is loaded. DEDUCED: notes/assumptions/52.md. -/
def execSecySaPin (h : Hdr) (dir : Dir) (sc an : Nat) (pin : Bool) (s : State) : Host.Outcome State Fault Refusal :=
  .next <| s.command h 0x0B06
    (fun x => !(s.img x).scOpen h.fn dir sc || decide (4 ≤ an) || !((s.img x).sa dir sc an).inst ||
      (!pin && ((s.img x).sc dir sc).args.any (·.express)))
    (fun x => [(pin && !((s.img x).sa dir sc an).pinned && decide (15360 ≤ (s.img x).saPinned dir), stNoRes)])
    (fun x s =>
      let v := (s.img x).sa dir sc an
      let s := s.modImg x fun im =>
        (im.setSa dir sc an { v with pinned := pin }).setKey v.handle { im.key v.handle with pinned := pin }
      (if pin && !v.resident then s.startLoad x dir sc an else s).done x h 0x0B06)

/-- SECY_SA_READ: PN; resident 0 or parked 1; pinned; state of its key. -/
def execSecySaRead (h : Hdr) (dir : Dir) (sc an : Nat) (s : State) : Host.Outcome State Fault Refusal :=
  .next <| s.command h 0x0B07
    (fun x => !(s.img x).scOpen h.fn dir sc || decide (4 ≤ an) || !((s.img x).sa dir sc an).inst)
    (fun _ => [])
    (fun x s =>
      let v := (s.img x).sa dir sc an
      s.done x h 0x0B07 [(8, v.pn), (1, b2n (!v.resident)), (1, b2n v.pinned),
        (1, if v.orphaned then 4 else ((s.img x).key v.handle).st)])

/-! ## Taking the helm (R184) -/

/-- Advance the next PN of a transmit SA: a resident one at once, a parked one at its next load. -/
def Sa.advanceBy (v : Sa) (n : Nat) : Sa :=
  if !v.inst then v else if v.resident then { v with pn := v.pn + n } else { v with advance := v.advance + n }

/-- R184, for every transmit SA; an SA past its last PN is exhausted. -/
def Image.advancePns (im : Image) : Image :=
  { im with saTx := im.saTx.foldl (fun t p =>
      let u := im.scSuite .tx (p.1 / 4)
      let v := p.2.advanceBy (pnAdvance u)
      tabSet {} t p.1 { v with exhausted := v.exhausted || (v.inst && decide (lastPn u < v.pn)) }) [] }

end Sys2Proof.Machine
end

