-- ==== Sys2Proof/Machine/PeerOps.lean ====
section
/-! DEFINITION. Peers: carriers, pairings, the end of ZKA sessions, and what a change of helm does to them (10). -/

namespace Sys2Proof.Machine

open Sys2Proof

/-- A pairing. -/
def Image.pairing (im : Image) (i : Nat) : Option Pairing := tabGet none im.pairings i

/-- Key domain of a pairing. -/
def Image.pairDomain (im : Image) (i : Nat) : Nat := match im.pairing i with | some p => p.domain | none => 0

/-- The same session. -/
def Zka.same (a b : Zka) : Bool := decide (a.session = b.session ∧ a.initiator = b.initiator ∧ a.peer = b.peer)

/-- The session can still end without a key: it is neither CLOSED nor installing. -/
def Zka.open (z : Zka) : Bool := decide (z.st ≠ .closed ∧ z.st ≠ .installing)

/-- Open sessions (R326). -/
def Image.openSessions (im : Image) : List Zka := im.sessions.filter fun z => decide (z.st ≠ .closed)

/-- The image without a session: what exists only in key RAM is erased with it (R321). -/
def Image.dropSession (im : Image) (z : Zka) : Image := { im with sessions := im.sessions.filter fun v => !v.same z }

/-- The image with a session replaced. -/
def Image.putSession (im : Image) (z : Zka) : Image :=
  { im with sessions := im.sessions.map fun v => if v.same z then z else v }

/-- An exchange fails (Table 10.9): ABORT goes out when `abort`; post ZKA_FAILED: session; pairing; initiator 0 or
responder 1; cause; sent 0 or received 1; replacing session. -/
def State.zkaFail (s : State) (x : Half) (z : Zka) (cause : Nat) (abort received : Bool) (replacing : Nat) : State :=
  let s := s.modImg x fun im =>
    { im.dropSession z with autoAt := tabSet 0 im.autoAt z.pairing (s.now + 1) }
  let s := if abort then s.sendPeer x z.carrier 0x34 z.session [cause, 0, 0, 0] else s
  s.post x .cores 0x0408
    [(4, z.session), (2, z.pairing), (1, b2n (!z.initiator)), (1, cause), (1, b2n received), (4, replacing)]
    (.dom ((s.img x).pairDomain z.pairing))

/-- A half that takes the helm raises every MKA member number by 256 and ends every open session (R340). -/
def State.peersTakeover (s : State) (h : Half) : State :=
  let s := s.modImg h fun im => { im with cas := im.cas.map fun p => (p.1, p.2.map fun c => { c with mn := c.mn + 256 }) }
  ((s.img h).sessions.filter fun z => decide (z.st ≠ .closed)).foldl (fun s z => s.zkaFail h z 10 true false 0) s

end Sys2Proof.Machine
end

