-- ==== Sys2Proof/Machine/TakeHelm.lean ====
section
/-! DEFINITION. Taking the helm (R409, Table 13.5, R415, R493), and the shared parts of the helm's comings and goings:
losing it, entering ACTIVE_SOLO, a handover that does not take place. -/

namespace Sys2Proof.Machine

open Sys2Proof

/-! ## Reservations in the shared flash partition -/

/-- The half points at the serial block and the HSS index block that follow the last journalled ones, with nothing of
them reserved yet (Table 13.5). -/
def State.skipBlocks (s : State) (h : Half) : State :=
  let b := s.flash.serialBlk
  let c := min s.flash.hssBlk (2 ^ 28)
  s.modImg h fun im =>
    { im with serial := 4096 * b + 1, serialEnd := 4096 * b + 1, hssNext := 4096 * c, hssEnd := 4096 * c }

/-- Reserve the serial block that follows the last journalled one (R271); the flash bridge takes the record only from the
half whose claim it obeys (R19). DEDUCED: notes/assumptions/37.md. -/
def State.freshSerials (s : State) (h : Half) : State :=
  let b := s.flash.serialBlk
  if s.obeyed ≠ some h then s
  else { s with flash := { s.flash.journal 4 with serialBlk := b + 1 } }.modImg h fun im =>
    { im with serial := 4096 * b + 1, serialEnd := 4096 * b + 4097 }

/-- The next key serial; a spent block is followed by a fresh one. -/
def State.nextSerial (s : State) (h : Half) : Nat × State :=
  let s := if (s.img h).serial < (s.img h).serialEnd then s else s.freshSerials h
  ((s.img h).serial, s.modImg h fun im => { im with serial := im.serial + 1 })

/-- Reserve the HSS index block that follows the last journalled one, if any is left (R356, R357), where the flash bridge
takes the record (R19). DEDUCED: notes/assumptions/37.md. -/
def State.freshHss (s : State) (h : Half) : State :=
  let b := s.flash.hssBlk
  if s.obeyed ≠ some h then s
  else if b < 2 ^ 28 then
    { s with flash := { s.flash.journal 6 with hssBlk := b + 1 } }.modImg h fun im =>
      { im with hssNext := 4096 * b, hssEnd := 4096 * b + 4096 }
  else s.modImg h fun im => { im with hssNext := 2 ^ 40, hssEnd := 2 ^ 40 }

/-- A key register entry as the journal has it, with what the half holds of the key beside it (R292, R299). -/
def mergeKey (im dur : KeyEnt) : KeyEnt :=
  if im.serial = dur.serial then
    { dur with st := if dur.st = 1 ∧ (im.st = 2 ∨ im.st = 4) then im.st else dur.st,
               resident := im.resident && decide (im.gen = dur.gen), pinned := im.pinned, bound := im.bound,
               lastUse := im.lastUse, gone := im.gone }
  else dur

/-- The journal tail is read: entries of landings 3 and 4 are those that are durable; gangways are discarded. DEDUCED:
notes/assumptions/38.md. -/
def State.readJournal (s : State) (h : Half) : State :=
  s.modImg h fun im =>
    let own := im.keys.filter fun p => decide (hLanding p.1 = 5)
    { im with gangways := [],
              keys := s.flash.keys.foldl (fun t p => tabSet {} t p.1 (mergeKey (im.key p.1) p.2)) own }

/-! ## Ceasing to be active -/

/-- The events among posts, and the posts that no source holds any longer when the usher stops numbering: the commands of
completions not numbered are aborted by the half that takes the helm (R415). -/
def eventsOf (l : List (Src × Post)) : List Post := (l.map (·.2)).filter fun p => match p with | .ev _ => true | _ => false

/-- The usher stops numbering (R35): events that it has not accepted wait to be forwarded (R33). -/
def HState.stopUsher (x : HState) : HState := { x with queue := [], fwd := x.fwd ++ eventsOf x.queue }

/-- The hall of a half that loses the helm is lost with it (R200, R262): frames queued, held, in the cipher stage or on
their way out, and what they would have taught. -/
def HState.loseHall (x : HState) : HState :=
  { x with queues := [], held := [], rxFrames := [], sending := [], paused := [], learnReqs := [] }

/-- Loads in flight are abandoned (R200). -/
def Sa.abandon (v : Sa) : Sa := { v with loading := false, wanted := false }

/-- The loads of a half are abandoned. -/
def Image.abandonLoads (im : Image) : Image :=
  { im with loads := [], saTx := im.saTx.map fun p => (p.1, p.2.abandon), saRx := im.saRx.map fun p => (p.1, p.2.abandon) }

/-- A half that no longer holds the helm: its engine aborts what it runs (R363), nothing it has numbered and not
seen acknowledged is written (R399), and its hall is lost (R200, R262). -/
def HState.loseHelm (x : HState) : HState :=
  { x.stopUsher.loseHall with
    pke := { x.pke with lanes := [], queue := [] }, unsent := [], kept := [], img := x.img.abandonLoads }

/-- MAC Merge verification starts on every line port that has it enabled (R196): a half that sends idle cannot have
verified. PRESUMED: notes/assumptions/50.md. -/
def HState.startVerify (x : HState) : HState :=
  { x with preempt := ((List.range 32).filter fun p => x.img.portEn p && x.img.preemptEn p).map fun p => (p, 1) }

/-- The commands that wait for a handover. -/
def Image.handoverJobs (im : Image) : List Job := im.jobs.filter fun j => decide (j.on = .handover)

/-- A handover that does not take place (R560): its command completes with NO_RESOURCE, and commands are taken again. -/
def State.endHandover (s : State) (h : Half) : State :=
  let js := (s.img h).handoverJobs
  let s := (s.modImg h fun im => { im with jobs := im.jobs.filter fun j => decide (j.on ≠ .handover) }).modHelm h
    fun m => { m with handover := none, offered := false }
  let s := js.foldl (fun s j => s.postCpl h j.cmd stNoRes 0 []) s
  (List.range 16).foldl (fun s fn => s.takeAll h fn) s

/-- Write the entries of the copies that follow crossing `from_`, up to crossing `to_`. -/
def State.writeCopies (s : State) (h : Half) (from_ to_ : Nat) : State :=
  (((s.half h).kept.filter fun c => decide (from_ < c.n ∧ c.n ≤ to_)).flatMap (·.entries)).foldl (State.writeEntry h) s

/-- The health word of a half (Table 13.2); a slowest pace above 4,095 ps is shown modulo 4,096. DESIGN CHOICE:
notes/assumptions/127.md. -/
def HState.health (x : HState) (h : Half) : Nat :=
  let m := x.helm
  b2n (m.st.active || decide (m.st = .inStep)) * 2 ^ 63 + h.idx * 2 ^ 62 + b2n x.pke.ok * 2 ^ 61 +
    b2n x.gov.paceLimit * 2 ^ 60 + b2n x.gov.rateFloor * 2 ^ 59 + b2n m.katBad.isEmpty * 2 ^ 58 +
    b2n (m.regionFails.all fun p => decide (p.2 < 3)) * 2 ^ 57 + b2n m.rejoining * 2 ^ 56 +
    min 255 m.lanesLow.length * 2 ^ 48 + x.gov.group % 16 * 2 ^ 44 + x.gov.slowest % 4096 * 2 ^ 32 +
    min 65535 x.dram.corrNew * 2 ^ 16 + x.img.cfgGen % 65536

/-- A health word has been sent: its count of corrected errors starts again (Table 13.2). -/
def HState.healthSent (x : HState) : HState := { x with dram := { x.dram with corrNew := 0 } }

/-- Post STANDBY_STATE: half; in step 0 or out 1; cause (self-test, missed copy, ferry link, halt, rejoin begun, rejoin
complete); health word. DEDUCED: notes/assumptions/71.md. -/
def State.standbyState (s : State) (h : Half) (standby : Half) (out cause : Nat) : State :=
  s.post h .cores 0x0703 [(1, standby.idx), (1, out), (1, cause), (8, (s.half standby).health standby)]

/-- ACTIVE_PAIRED becomes ACTIVE_SOLO (Table 13.4): what waited for ACKs is written, a handover not yet sealed ends. -/
def State.enterSolo (s : State) (h : Half) (cause : Nat) : State :=
  if (s.half h).helm.st ≠ .activePaired then s
  else
    let s := s.writeCopies h (s.half h).helm.acked (s.half h).helm.crossing
    let s := s.modHelm h fun m => { m with st := .activeSolo, noAck := 0, acked := m.crossing }
    let s := s.flushSolo h
    let s := if (s.half h).helm.handover.isSome then s.endHandover h else s
    (s.standbyState h h.other 1 cause).noteState

/-- `GLB_HALT_CAUSE`. -/
def HState.haltWord (x : HState) : Nat := x.haltCause * 2 ^ 28 + x.haltFifo

/-- Post INTEGRITY_HALT for the other half once (R40); before BOOT is numbered it waits for step 6 of R542. -/
def State.integrityHalt (s : State) (h : Half) : State :=
  let o := s.half h.other
  if o.haltCause ≠ 0 ∧ !(s.half h).helm.haltNotice ∧ (s.img h).seq ≠ 0 then
    (s.modHelm h fun m => { m with haltNotice := true }).post h .cores 0x0D05 [(1, h.other.idx), (4, o.haltWord)]
  else s

/-! ## The counters of Table 13.5 -/

/-- CFC of the terminating transmit sides: 2^16 past the copied value; the span in progress is broken (R152). -/
def Image.advanceCfc (im : Image) : Image :=
  ((List.range 32).filter im.termTrib).foldl (fun im t =>
    { im with cfc := tabSet 0 im.cfc t ((tabGet 0 im.cfc t + 65536) % 2 ^ 64) }.setTx t
      { im.txA t with brk := decide ((im.txA t).st ≠ TxSt.noKey) }) im

/-- Every counter of Table 13.5 but the usher's, which GAP takes, advances past what the last copies show. -/
def State.advanceCounters (s : State) (h : Half) : State :=
  let s := s.modImg h fun im => im.advancePns.advanceCfc
  let s := (List.range 32).foldl (fun s t => s.freshEpochs h t) s
  let s := s.skipBlocks h
  s.modHelm h fun m => { m with crossing := m.acked + 16, acked := m.acked + 16, noAck := 0 }

/-! ## Rings at a change of helm (R415, R493) -/

/-- Host memory reads as zeros over a result area (R558). DEDUCED: notes/assumptions/34.md. -/
def State.zeroArea (s : State) (a : Option (Nat × List Fld)) : State :=
  match a with
  | some (addr, bytes) => { s with host := tabSet [] s.host addr (bytes.map fun f => (f.1, 0)) }
  | none => s

/-- A command armed in the scheduled action table. -/
def Image.isArmed (im : Image) (c : Cmd) : Bool :=
  im.sched.any fun p => match p.2 with | some e => decide (e.cmd = some c) | none => false

/-- Commands taken and not completed. -/
def Image.openCmds (im : Image) : List Cmd :=
  let onRings : Nat → List Cmd := fun fn =>
    (im.fnSt fn).taken.map fun t => { op := t.op, fn, table := t.table, pos := t.pos, tag := t.tag }
  (im.jobs.map (fun j => j.cmd) ++ (List.range 16).flatMap onRings).eraseDups

/-- Status of a command that a change of helm leaves taken and not completed (R415): ABORTED but for the HELM_HANDOVER
that caused the handover and the HELM_HALF_HALT that halted the former active half. -/
def abortStatus (ho : Option Handover) (haltedBy : Bool) (c : Cmd) : Nat :=
  let me : Taken := { table := c.table, pos := c.pos, tag := c.tag, op := c.op }
  match ho with
  | some v => if c.op = 0x0701 ∧ v.by_ = some me then (if v.late then stLate else stDone)
              else if c.op = 0x0702 ∧ haltedBy then stDone else stAborted
  | none => if c.op = 0x0702 ∧ haltedBy then stDone else stAborted

/-- Complete every command taken and not completed, its result area zeroed first. DEDUCED: notes/assumptions/70.md. -/
def State.abortCmds (s : State) (h : Half) (ho : Option Handover) : State :=
  let im := s.img h
  let haltedBy := decide ((s.half h.other).haltCause = 5)
  let cs := im.openCmds.filter fun c => !im.isArmed c
  let s := im.jobs.foldl (fun s j => s.zeroArea j.area) s
  let s := s.modImg h fun im => { im with jobs := [] }
  cs.foldl (fun s c => s.postCpl h c (abortStatus ho haltedBy c) 0 []) s

/-- The descriptors from a position on whose PHASE matches in host memory. -/
def State.probe (s : State) (fn ring size : Nat) : Nat → Nat → List Desc
  | 0, _ => []
  | n + 1, pos =>
    match tabGet none s.descs (slotKey fn ring (pos % size)) with
    | some d => if d.phase = phaseOf pos size then d :: s.probe fn ring size n (pos + 1) else []
    | none => []

/-- Continue the rings of a function from their copied indices (R415, R493). DEDUCED: notes/assumptions/34.md. -/
def State.takeRings (s : State) (h : Half) (fn : Nat) : State :=
  let one : State → Nat → State := fun s r =>
    let im := s.img h
    let g := (im.fnSt fn).ring r
    if im.ringEn fn r then
      let n := tabGet 0 s.descEnd (4 * fn + r) - g.count
      s.modImg h fun im => im.modRing fn r fun g =>
        { g with waiting := s.probe fn r (im.ringSize fn r) n g.count, retryAt := none }
    else s
  (one (one s 0) 3).takeAll h fn

/-! ## The change of helm -/

/-- Number MODULE_STATE at once when the module state changes. DEDUCED: notes/assumptions/31.md. -/
def State.noteStateNow (s : State) (h : Half) : State :=
  if s.modState = s.lastState then s
  else
    let e := mkEv s h 0x0D0E [(1, s.lastState), (1, s.modState), (1, b2n (s.img h).service), (1, h.idx)] .all
    { s with lastState := s.modState }.numberNow h (.ev e)

/-- A second handover that hands the helm back (R424). DEDUCED: notes/assumptions/70.md. -/
def State.armReturn (s : State) (h : Half) (ho : Option Handover) : State :=
  match ho with
  | some v =>
    if v.returnMs = 0 then s
    else
      let (c, s) := s.draw
      let tb := v.tb.getD (c % 4)
      let at_ := timeOf (tvUnits ((s.half h).tb tb).value + v.returnMs * 1000000 * 65536)
      s.arm h 0 0x0701 none tb at_ 0 .return_
  | none => s

/-- A half takes the helm (R409; R34, R200, R403, R408, R410, R417, R418): `kind` announced 0, halt notice 1, silent
2, reclaim 3; `ho` the handover that an announced change completes.  The counters advance before the claim; the records
that reserve the new blocks are written once the flash bridge obeys it (R19). DEDUCED: notes/assumptions/31.md,
notes/assumptions/70.md. -/
def State.takeHelm (s : State) (h : Half) (kind : Nat) (ho : Option Handover) : State :=
  let o := h.other
  let n := (s.img h).seq
  let silence := (s.half h).helm.silence
  let again := decide (kind = 3) || (s.half h).helm.sealed.isSome
  let seen := max (s.half h).helm.maxSeen (max (s.half h).helm.gen (if (s.half o).helm.claim then (s.half o).helm.gen else 0))
  -- 1: counters, then the claim
  let s := s.advanceCounters h
  let s := s.modHalf h fun x => { x with
    queue := [], unsent := [], kept := [], acks := [], pnUsed := [],
    img := x.img.abandonLoads,
    helm := { x.helm with
      claim := true, gen := seen + 1, maxSeen := seen + 1, renewed := true, silence := 0, handover := none,
      sealed := none, offered := false, fwdCount := if again then x.helm.fwdCount else 0, rejoining := false,
      st := if kind = 0 then .activePaired else .activeSolo } }
  let s := { s with flash := { s.flash with recs := s.flash.recs.filter fun r => decide (r.by_ = h) } }
  let s := (s.freshSerials h).freshHss h
  -- 3: GAP, HELM_CHANGED, MODULE_STATE, forwarded events
  let s := s.modImg h fun im => { im with seq := n + 65535 }
  let s := s.numberNow h (.ev (mkEv s h 0x0701 [(8, n), (1, h.idx), (1, b2n (kind ≠ 0))] .all))
  let s := s.numberNow h (.ev (mkEv s h 0x0702
    [(1, h.idx), (4, seen + 1), (1, kind), (4, silence), (1, (s.half o).haltCause)] .all))
  let s := s.noteStateNow h
  let fwd := (s.half h).fwd
  let s := fwd.foldl (fun s p => s.numberNow h p) (s.modHalf h fun x => { x with fwd := [], fwdSent := 0, fwdOut := 0 })
  -- 4: the rings
  let s := ((s.half h).recent.flatMap (·.2)).foldl (State.writeEntry h) s
  let s := s.modHalf h fun x => { x with recent := [], dbFwd := [] }
  let s := (s.readJournal h).abortCmds h ho
  let s := (List.range 16).foldl (fun s fn => s.takeRings h fn) s
  let s := (s.armReturn h ho).peersTakeover h
  -- 5: level events, the halted half, the alarm log
  ((((s.noteAll h).pnReachedAll h).modHalf h HState.startVerify).integrityHalt h).postLog h

end Sys2Proof.Machine
end

