-- ==== Sys2Proof/Machine/Helm.lean ====
section
/-! DEFINITION. Crossings, claims, the helm states of Table 13.4, handovers, rejoin, self-test and the helm commands
(13). -/

namespace Sys2Proof.Machine

open Sys2Proof

/-! ## STATS_SNAPSHOT (R516, R517) -/

/-- Counts of each group of Table 17.3, and its objects. -/
def statShape (group : Nat) : Nat × Nat :=
  [(0, 0), (10, 64), (6, 512), (7, 32), (7, 32), (12, 32), (13, 8192), (5, 4096), (6, 528), (4, 16384), (4, 96),
   (2, 4)].getD group (0, 0)

/-- The object of a group lies in a key domain, for the groups that VFs read. -/
def Image.statDomain (im : Image) (group obj : Nat) : Option Nat :=
  match group with
  | 2 => some (im.tribDomain (obj / 16))
  | 3 => some (im.tribDomain obj)
  | 6 => (im.sc .rx obj).args.map (·.domain)
  | 7 => (im.sc .tx obj).args.map (·.domain)
  | _ => none

/-- The record of an object as a function may see it. -/
def HState.statRecord (x : HState) (fn group obj : Nat) : List Fld :=
  (List.range (statShape group).1).map fun i =>
    (8, if fn = 0 ∨ x.img.statDomain group obj = some fn then tabGet 0 x.stats (statKey group obj i) else 0)

/-- The records of a run of objects. -/
def HState.statRun (x : HState) (fn group first count : Nat) : List Fld :=
  (List.range count).flatMap fun i => x.statRecord fn group (first + i)

/-- A job that waits for the crossing end takes its values there. -/
def HState.latchJob (x : HState) (j : Job) : Job :=
  match j.on, j.cont with
  | .crossing, .stats group first count addr =>
    { j with on := .dma, result := [(4, count), (8, x.helm.crossing)], cont := .finish,
             area := some (addr, x.statRun j.cmd.fn group first count) }
  | _, _ => j

/-- A job waits for the crossing end with a snapshot. -/
def Job.isStats (j : Job) : Bool :=
  match j.on, j.cont with
  | .crossing, .stats _ _ _ _ => true
  | _, _ => false

/-- Latch the snapshots asked for since the last crossing end; from there on their completions keep their places (R29).
DEDUCED: notes/assumptions/72.md. -/
def HState.latchStats (x : HState) : HState :=
  { x with queue := x.queue ++ (x.img.jobs.filter Job.isStats).map fun j => (Src.command, Post.due j.cmd),
           img := { x.img with jobs := x.img.jobs.map x.latchJob } }

/-- STATS_SNAPSHOT: group 1–11; first object; count; host address. DEDUCED: notes/assumptions/72.md. -/
def execStatsSnapshot (h : Hdr) (group first count addr : Nat) (s : State) : Host.Outcome State Fault Refusal :=
  .next <| s.command h 0x0601
    (fun _ => decide (group = 0 ∨ 11 < group ∨ count = 0 ∨ (statShape group).2 < first + count) ||
      (decide (h.fn ≠ 0) && !([2, 3, 6, 7].contains group)))
    (fun _ => [])
    (fun x s => s.wait x { cmd := cmdOf h 0x0601, on := .crossing, status := stDone, cflags := 0, result := [],
                           area := some (addr, [(8 * (statShape group).1 * count, 0)]),
                           cont := .stats group first count addr })

/-! ## Crossings (R394–R399) -/

/-- A completion that waits for the crossing that carries its command's last CHANGE record (R399). -/
def heldBack (p : Placed) : Option Cpl :=
  match p.entry with
  | .main _ _ ⟨_, .cpl c⟩ => some c
  | _ => none

/-- The rings as a copy shows them when completions are held back: their commands are still taken. -/
def withHeld (fns : Tab FnSt) (ps : List Placed) : Tab FnSt :=
  (ps.filterMap heldBack).foldl (fun t c =>
    let f := tabGet {} t c.fn
    tabSet {} t c.fn { f with taken := f.taken ++ [{ table := c.table, pos := c.pos, tag := c.tag, op := c.op }],
                              cpl := { f.cpl with count := f.cpl.count - 1 } }) fns

/-- The copy of crossing `n` (Table 13.1); CHANGE and STATS go with it when the deferrable records `drained`. DESIGN
CHOICE: notes/assumptions/68.md. -/
def HState.copy (x : HState) (h : Half) (n now : Nat) (drained final : Bool) : Copy :=
  let m := x.helm
  let held := x.unsent.filter fun p => (heldBack p).isSome
  { n, gen := m.gen, renew := decide (m.st = .activePaired), relinq := decide (m.st = .relinquished),
    offer := (match m.handover with | some v => !v.accepted && decide (v.age = 0) | none => false), final,
    wharf := if drained then x.wharfNew else [],
    health := x.health h, fwdCount := m.fwdCount, seq := x.img.seq,
    pns := x.pnUsed,
    cfc := x.img.cfc,
    mfas := x.mfas,
    pend := x.sides.map fun p => (p.1, p.2.txPtr, p.2.txNew, p.2.pend),
    fns := if drained then x.img.fns else withHeld x.img.fns held,
    entries := if drained then x.unsent else x.unsent.filter fun p => (heldBack p).isNone,
    hssNext := x.img.hssNext, tbs := x.tbs, at_ := now,
    stats := if drained then some x.stats else none,
    ho := if final then m.handover else none,
    img := if drained then some x.img else none,
    writes := if drained then x.writes else [] }

/-- The end of a crossing on a half that sends copies (R395): samples, the trie's release counts, the copy,
which the counters of a half that is active may count (Table 17.1). DEDUCED: notes/assumptions/124.md. -/
def State.endCrossing (s : State) (h : Half) (drained final : Bool) : State :=
  let s := if s.isActive h then s.happen h 0x31 0 1 else s
  (s.trieCrossing h).modHalf h fun x =>
    let x := x.sampleAll s.now
    let n := x.helm.crossing + 1
    let c := x.copy h n s.now drained final
    let kept := x.kept ++ [c]
    HState.latchStats { x.healthSent with
      kept := kept.drop (kept.length - 8), pnUsed := [], writes := if drained then [] else x.writes,
      wharfNew := if drained then [] else x.wharfNew,
      unsent := if drained then [] else x.unsent.filter fun p => (heldBack p).isSome,
      helm := { x.helm with
        crossing := n, renewed := false,
        noAck := if x.helm.st = .activeSolo ∨ x.helm.renewed then 0 else x.helm.noAck + 1,
        acked := if x.helm.st = .activeSolo then n else x.helm.acked,
        offered := x.helm.offered || c.offer,
        handover := x.helm.handover.map fun v => { v with age := v.age + 1 } } }

/-- No command is executing: every one taken is armed, or is the one that asked for the handover (R413). -/
def Image.quiet (im : Image) : Bool :=
  im.openCmds.all fun c => im.isArmed c || (im.handoverJobs.any fun j => decide (j.cmd = c))

/-- FINAL can be sealed at this crossing end (R413). DESIGN CHOICE: notes/assumptions/68.md. -/
def HState.sealable (x : HState) (drained : Bool) : Bool :=
  match x.helm.handover with
  | some v => decide (x.helm.st = .activePaired) && v.accepted && ((drained && x.img.quiet) || decide (256 ≤ v.age))
  | none => false

/-- Seal FINAL: from here the half reports STANDBY_IN_STEP and numbers nothing; its claim stands.  Its events not numbered
wait to be forwarded (R33). -/
def State.sealFinal (s : State) (h : Half) : State :=
  (s.endCrossing h true true).modHalf h fun x =>
    { x.stopUsher with
      pke := { x.pke with lanes := [], queue := [] },
      helm := { x.helm with st := .inStep, sealed := some 0, silence := 0, handover := none, offered := false } }

/-- The deferrable backlog after a crossing, and the share of the copy's room used: free beyond that a drained backlog
is empty. DESIGN CHOICE: notes/assumptions/67.md. -/
def State.noteBacklog (s : State) (h : Half) (drained : Bool) : State :=
  let (c, s) := s.draw
  let (f, s) := s.draw
  s.modHelm h fun m => { m with backlogKib := if drained then 0 else 1 + c % 4096, fillPct := f % 101 }

/-- CROSSING_END (R395): on the active or relinquished half a copy goes out; on the standby the silence counts
(R406). DESIGN CHOICE: notes/assumptions/68.md. -/
def execCrossingEnd (half : Half) (drained : Bool) (s : State) : Host.Outcome State Fault Refusal :=
  .next <|
    let x := s.half half
    if !x.up then s
    else match x.helm.st with
      | .activePaired | .activeSolo | .relinquished =>
        let s := s.noteBacklog half drained
        if x.sealable drained then s.sealFinal half else s.endCrossing half drained false
      | .inStep | .out =>
        s.modHalf half fun x =>
          let x := x.sampleAll s.now
          { x with helm := { x.helm with silence := if x.helm.renewed then 0 else x.helm.silence + 1, renewed := false,
                                         sealed := x.helm.sealed.map (· + 1) } }
      | .halted => s

/-- FINAL_SEAL (R413). -/
def execFinalSeal (half : Half) (s : State) : Host.Outcome State Fault Refusal :=
  .next <| if (s.half half).up && (s.half half).sealable true then s.sealFinal half else s

/-- The standby reads in a copy's header how many of its events have been received (R397). -/
def HState.counted (x : HState) (n : Nat) : HState :=
  { x with fwd := x.fwd.drop (n - x.fwdSent), fwdOut := x.fwdOut - (n - x.fwdSent), fwdSent := max x.fwdSent n }

/-- The transmit SAs once their PN records are applied: each SA that the standby knows moves on by the PNs used, whichever
key stands there, so that no copied mark ever falls (R5, Table 13.1). -/
def Image.usePns (im : Image) (pns : Tab Nat) : Image :=
  { im with saTx := pns.foldl (fun t p => let v := tabGet {} t p.1
                                          tabSet {} t p.1 (if v.inst then { v with pn := v.pn + p.2 } else v)) im.saTx }

/-- A standby's outgoing side takes a pointer decision that a copy brings (R132): with the frame in which it executes, while
that is still ahead; and what the active half has set afresh (R131), while no frame has started since the copy. DEDUCED:
notes/assumptions/69.md. -/
def SideSt.follow (v : SideSt) (mfas at_ : Nat) (p : Nat × Nat × Option (Bool × Nat)) : SideSt :=
  let v := if mfas = at_ then { v with txPtr := p.1, txNew := p.2.1, recentre := v.recentre && decide (v.txPtr = p.1) } else v
  match p.2.2 with
  | some e => if (e.2 + 256 - (mfas + 1)) % 256 < 128 then { v with pend := some e } else v
  | none => v

/-- Apply a copy to the standby's image (R397), the time bases corrected for the copy's age (R374). DEDUCED:
notes/assumptions/69.md. -/
def HState.apply (x : HState) (c : Copy) (now : Nat) : HState :=
  let im := match c.img with
    | some im => im
    | none => x.img.usePns c.pns
  let im := { im with seq := c.seq, cfc := c.cfc, fns := c.fns, hssNext := c.hssNext }
  let x := { x with img := im }
  let side : Tab SideSt → Nat × Nat × Nat × Option (Bool × Nat) → Tab SideSt := fun t p =>
    let v : SideSt := tabGet {} t p.1
    tabSet {} t p.1 (v.follow x.mfas c.mfas p.2)
  let base : Tab TBase → Nat × TBase → Tab TBase := fun t p =>
    let b : TBase := tabGet {} x.tbs p.1
    tabSet {} t p.1 { p.2.advance (now - c.at_) with latSec := b.latSec, latSub := b.latSub }
  let x := { x with
    sides := c.pend.foldl side x.sides,
    tbs := c.tbs.foldl base [],
    stats := c.stats.getD x.stats,
    recent := (x.recent ++ [(c.n, c.entries)]).drop ((x.recent.length + 1) - 2) }
  { (x.counted c.fwdCount).takeWharf c.wharf with helm := { x.helm with crossing := c.n, acked := c.n, copyGen := c.gen, maxSeen := max x.helm.maxSeen c.gen } }

/-- The standby sends an ACK (R397). DEDUCED: notes/assumptions/69.md. -/
def HState.ack (x : HState) (h : Half) (c : Copy) : HState :=
  let a : Ack := { n := c.n, renew := c.renew, health := x.health h, base := x.fwdSent, fwd := x.fwd.take 32,
                   dbs := x.dbFwd, answer := if c.offer then some (decide (x.helm.st = .inStep)) else none }
  { x.healthSent with
           acks := (x.acks ++ [a]).drop ((x.acks.length + 1) - 8), dbFwd := [], fwdOut := max x.fwdOut a.fwd.length,
           helm := { x.helm with peerHealth := c.health, renewed := x.helm.renewed || c.renew,
                                 silence := if c.renew then 0 else x.helm.silence } }

/-- The standby acknowledges a copy (R397), which its counters may count (Table 17.1). -/
def State.sendAck (s : State) (h : Half) (c : Copy) : State :=
  (s.modHalf h fun x => x.ack h c).happen h 0x31 0 1

/-- The half leaves step (R425). -/
def State.leaveStep (s : State) (h : Half) : State :=
  s.modHelm h fun m => if m.st = .inStep then { m with st := .out, sealed := none } else { m with rejoining := false }

/-- CROSSING_COPY_RX (R397, R398, R413).  A gap is answered by NAK; a copy older than the 8 kept that is lacking makes
the standby leave step; FINAL makes it take the helm. DEDUCED: notes/assumptions/69.md. -/
def execCrossingCopyRx (half : Half) (n : Nat) (s : State) : Host.Outcome State Fault Refusal :=
  .next <|
    let x := s.half half
    let o := s.half half.other
    if !x.up || !o.up || !x.ferryUp || !(decide (x.helm.st = .inStep ∨ x.helm.st = .out)) then s
    else match o.kept.find? fun c => decide (c.n = n) with
      | none => s
      | some c =>
        let keep := decide (x.helm.st = .inStep) || x.helm.rejoining
        if !keep then (s.modHalf half fun x => x.counted c.fwdCount).sendAck half c
        else if c.gen = x.helm.copyGen ∧ n ≤ x.helm.crossing then s
        else if c.gen = x.helm.copyGen ∧ n ≠ x.helm.crossing + 1 then
          if o.kept.any fun k => decide (k.n = x.helm.crossing + 1) then s.emit (.nak (x.helm.crossing + 1))
          else (s.leaveStep half).sendAck half c
        else
          let s := ((s.modHalf half fun x => x.apply c s.now).regsArrive half c.writes).sendAck half c
          if c.final && decide (x.helm.st = .inStep) then s.takeHelm half 0 c.ho else s

/-- COPY_NAK_RX (R398): the copies from `first` on go out again. -/
def execCopyNakRx (half : Half) (first : Nat) (s : State) : Host.Outcome State Fault Refusal :=
  .next <|
    let x := s.half half
    if x.up && x.helm.st.active then
      s.modHelm half fun m =>
        { m with resent := min 4095 (m.resent + (x.kept.filter fun c => decide (first ≤ c.n)).length) }
    else s

/-- Take the doorbells that an ACK brings (R492): producer doorbells cover descriptors that complete with FORWARDED,
consumer doorbells count. -/
def State.takeFwdDb (s : State) (h : Half) (d : FwdDb) : State :=
  if d.ring = 0 ∨ d.ring = 3 then s.producerDoorbell h d.fn d.ring d.value d.descs
  else s.consumerDoorbell h d.fn d.ring d.value

/-- The answer to OFFER (R413, R560). -/
def State.takeAnswer (s : State) (h : Half) (answer : Option Bool) : State :=
  let m := (s.half h).helm
  match m.handover with
  | some v =>
    if v.accepted || !m.offered then s
    else if answer = some true then
      s.modHelm h fun m => { m with handover := some { v with accepted := true, age := 0 }, offered := false }
    else if answer = some false then s.endHandover h
    else s
  | none => s

/-- CROSSING_ACK_RX (R397, R399, R405): entries up to the crossing are written, the lease renewed, forwarded events
numbered, forwarded doorbells taken, the offer answered.  A half that no longer drives posts nothing (R35): the ACK stays
with what it would have numbered, and only renews the lease.  A ferry link that is down brings nothing (R70). -/
def execCrossingAckRx (half : Half) (n : Nat) (s : State) : Host.Outcome State Fault Refusal :=
  .next <|
    let x := s.half half
    let o := s.half half.other
    match (if x.up && x.helm.st.active && x.ferryUp then o.acks.find? fun a => decide (a.n = n) else none) with
    | none => s
    | some a =>
      let offered := x.kept.any fun c => decide (c.n = n) && c.offer
      if s.holder ≠ some half then
        s.modHelm half fun m =>
          { m with peerHealth := a.health, noAck := if a.renew then 0 else m.noAck, renewed := m.renewed || a.renew }
      else
      let s := s.modHalf half.other fun y => { y with acks := y.acks.filter fun b => decide (b.n ≠ n) }
      let s := if x.helm.st = .activePaired then s.writeCopies half x.helm.acked n else s
      let s := s.modHelm half fun m =>
        { m with acked := max m.acked n, peerHealth := a.health,
                 noAck := if a.renew then 0 else m.noAck, renewed := m.renewed || a.renew }
      let new := a.fwd.drop (x.helm.fwdCount - a.base)
      let s := new.foldl (fun s p => s.numberNow half p) s
      let s := s.modHelm half fun m => { m with fwdCount := max m.fwdCount (a.base + a.fwd.length) }
      let s := a.dbs.foldl (fun s d => s.takeFwdDb half d) s
      let s := s.takeAnswer half (if offered then some (a.answer = some true) else none)
      let s := if hwBits a.health 63 63 = 0 then
          s.enterSolo half (if hwBits a.health 58 57 = 3 then 1 else 0) else s
      s.offerHelm half true false

/-- The frame that a framer's bit count falls in, by its MFAS (R73, Table 03.2): even and odd frames alternate. -/
def mfasOf (bits : Nat) : Nat := (2 * (bits / 277440) + (if 138570 ≤ bits % 277440 then 1 else 0)) % 256

/-- FRAME_MARK (R412, R76): once per multiframe the active half sends its framer's bit count, and the standby's framers
take the frame and the bit that the mark implies, while the ferry link is up. -/
def execFrameMark (half : Half) (bits : Nat) (s : State) : Host.Outcome State Fault Refusal :=
  .next <|
    let o := s.half half.other
    if (s.half half).up && s.isActive half && decide (mfasOf bits = (s.half half).mfas) then
      let s := if o.up && o.ferryUp && !o.helm.st.active then
          s.modHalf half.other fun y => { y with mfas := mfasOf bits, helm := { y.helm with frameBits := bits } } else s
      s.emit (.frameMark bits)
    else s

/-! ## The lease (Table 13.4) -/

/-- RELINQUISH (R405, R406): the 6th crossing without an ACK. -/
def execRelinquish (half : Half) (s : State) : Host.Outcome State Fault Refusal :=
  .next <|
    let x := s.half half
    if x.up ∧ x.helm.st = .activePaired ∧ 6 ≤ x.helm.noAck then
      s.modHalf half fun x =>
        let x := x.loseHelm
        { x with helm := { x.helm with st := .relinquished, claim := false, handover := none, offered := false } }
    else s

/-- TAKEOVER_SILENT (R406, R407): the 10th crossing without a renewal. -/
def execTakeoverSilent (half : Half) (s : State) : Host.Outcome State Fault Refusal :=
  .next <|
    let x := s.half half
    if x.up ∧ x.helm.st = .inStep ∧ x.helm.sealed = none ∧ 10 ≤ x.helm.silence then s.takeHelm half 2 none else s

/-- RECLAIM (R406, R407): the 12th crossing since the last ACK, and no valid claim from the other half. -/
def execReclaim (half : Half) (s : State) : Host.Outcome State Fault Refusal :=
  .next <|
    let x := s.half half
    if x.up ∧ x.helm.st = .relinquished ∧ 12 ≤ x.helm.noAck ∧ !(s.half half.other).helm.claim then
      s.takeHelm half 3 none
    else s

/-- HANDOVER_RECLAIM (R413): 10 crossings after the seal no preferred claim has been seen. -/
def execHandoverReclaim (half : Half) (s : State) : Host.Outcome State Fault Refusal :=
  .next <|
    let x := s.half half
    match x.helm.sealed with
    | some n => if x.up ∧ 10 ≤ n ∧ s.obeyed ≠ some half.other then s.takeHelm half 2 none else s
    | none => s

/-- HALT_RX (R406, R40): the standby in step takes the helm at once; the active half goes on alone.  The remaining half
posts INTEGRITY_HALT once, and completes the HELM_HALF_HALT that named the standby. -/
def execHaltRx (half : Half) (s : State) : Host.Outcome State Fault Refusal :=
  .next <|
    let x := s.half half
    if !x.up || !x.ferryUp || decide ((s.half half.other).haltCause = 0) then s
    else match x.helm.st with
      | .inStep => s.takeHelm half 1 none
      | .activePaired => (s.enterSolo half 3).integrityHalt half
      | .activeSolo => s.integrityHalt half
      | _ => s

/-- CLAIM_PREFERRED_SEEN (R404, Table 13.4): the half withdraws.  After sealing FINAL it is the standby in step of the
half that has taken the helm; otherwise it is out of step, and the half that keeps the helm posts HELM_CONFLICT.
DEDUCED: notes/assumptions/71.md. -/
def execClaimPreferredSeen (half : Half) (s : State) : Host.Outcome State Fault Refusal :=
  .next <|
    let x := s.half half
    let o := s.half half.other
    if !x.up || !o.helm.claim || decide (s.obeyed = some half) then s
    else
      let seen := max x.helm.maxSeen o.helm.gen
      match x.helm.st with
      | .inStep =>
        if x.helm.sealed.isSome then
          s.modHalf half fun x =>
            let x := x.loseHelm
            { x with helm := { x.helm with claim := false, sealed := none, silence := 0, maxSeen := seen } }
        else s
      | .activePaired | .activeSolo =>
        let s := s.modHalf half fun x =>
          let x := x.loseHelm
          { x with helm := { x.helm with st := .out, claim := false, handover := none, offered := false,
                                         maxSeen := seen } }
        if x.helm.claim && s.isActive half.other then
          s.post half.other .cores 0x0704 [(4, x.helm.gen), (4, o.helm.gen), (1, half.other.idx)]
        else s
      | .relinquished => s.modHelm half fun m => { m with st := .out, maxSeen := seen }
      | _ => s

/-- CLAIM_LOSS (R401): the half's claim is absent at every receiver. -/
def execClaimLoss (half : Half) (s : State) : Host.Outcome State Fault Refusal :=
  .next <| s.modHelm half fun m => { m with claim := false }

/-! ## Rejoin and self-test (R400, R419, R425, R426) -/

/-- The image that a half runs. -/
def State.fwOf (s : State) (h : Half) : Option Fw :=
  if (s.half h).boot.slot = 0 then s.flash.fw0 else s.flash.fw1

/-- Two images interwork (R552). -/
def interwork (p q : Fw) : Bool := decide (q.ferryMin ≤ p.ferryVer ∧ p.ferryMin ≤ q.ferryVer)

/-- The images of the two halves interwork. -/
def State.halvesInterwork (s : State) : Bool :=
  match s.fwOf .A, s.fwOf .B with
  | some p, some q => interwork p q
  | _, _ => false

/-- Key of a register's function and block. -/
def lneKey (k : Nat) : Bool := decide (0x200000 ≤ k ∧ k < 0x300000)

/-- A half that joins takes the whole paired LNE state of the active half, and its count of paired writes (R51): its lanes
move toward the power states given, run with the written CTLE steps, and restart their PCS where it changed. -/
def State.joinSetup (s : State) (h : Half) : State :=
  let old := s.img h
  let o := s.img h.other
  let s := s.modImg h fun im =>
    { im with regs := o.regs.filter (fun p => lneKey p.1) ++ im.regs.filter (fun p => !lneKey p.1), cfgGen := o.cfgGen }
  let s := s.modHalf h fun x => (List.range 64).foldl HState.setCtle x
  let s := s.modHalf h fun x => x.restartPcs fun n => decide (old.portWidth (n / 8) ≠ x.img.portWidth (n / 8) ∨
    old.clientCwy n ≠ x.img.clientCwy n)
  s.aimLanes h

/-- A half that has rejoined runs its framers, outgoing pointers and groups as the active half does (R76, R132), with the
image that it now holds. -/
def State.joinLine (s : State) (h : Half) (before : HState) : State :=
  let o := s.half h.other
  let s := s.modHalf h fun x =>
    let side : HState → Nat × Side → HState := fun x ts =>
      let v := o.side ts.1 ts.2
      x.setSide ts.1 ts.2 { x.side ts.1 ts.2 with txPtr := v.txPtr, txNew := v.txNew, sinceAdj := v.sinceAdj, pend := v.pend }
    x.img.allSides.foldl side { x with mfas := o.mfas }
  (s.aimLanes h).lineChanged h before

/-- REJOIN_REQUEST (R419): ferry link up, KAT_OK 1, no half halted, the module not in BOOTING. -/
def execRejoinRequest (half : Half) (s : State) : Host.Outcome State Fault Refusal :=
  .next <|
    let x := s.half half
    if x.up ∧ x.helm.st = .out ∧ !x.helm.rejoining ∧ x.ferryUp ∧ x.helm.katBad = [] ∧
        (s.half half.other).haltCause = 0 ∧ s.serving = some half.other ∧ s.halvesInterwork then
      (((s.modHalf half fun x => { x with
          acks := [], recent := [],
          helm := { x.helm with rejoining := true, copyGen := 0, regionFails := [] } }).emit (.rejoin half)).joinSetup
        half).standbyState half.other half 1 4
    else s

/-- REJOIN_COMPLETE (R419, R420, R426): every item has been applied, R51 has run, a round of Table 13.3 has passed. -/
def execRejoinComplete (half : Half) (s : State) : Host.Outcome State Fault Refusal :=
  .next <|
    let x := s.half half
    let o := s.half half.other
    if x.up ∧ x.helm.st = .out ∧ x.helm.rejoining ∧ x.ferryUp ∧ x.helm.katBad = [] ∧
        (x.helm.regionFails.all fun p => decide (p.2 < 3)) ∧ o.helm.st = .activeSolo ∧ s.serving = some half.other ∧
        s.halvesInterwork then
      let s := s.modHalf half fun x => { x with
        img := o.img, tbs := o.tbs, stats := o.stats, recent := [], acks := [], kept := [], unsent := [],
        wharf := o.wharf, wharfNew := [],
        helm := { x.helm with st := .inStep, rejoining := false, silence := 0, renewed := true, sealed := none,
                              crossing := o.helm.crossing, acked := o.helm.crossing, copyGen := o.helm.gen,
                              maxSeen := max x.helm.maxSeen o.helm.gen } }
      let s := (s.modHalf half fun x => x.counted o.helm.fwdCount).joinLine half x
      let s := s.modHalf half.other fun o => { o with
        kept := [],
        helm := { o.helm with st := .activePaired, noAck := 0, renewed := true, acked := o.helm.crossing } }
      (s.standbyState half.other half 0 5).noteState
    else s

/-- Code of a test of Table 13.3. -/
def testCode : SelfTest → Nat
  | .gcm _ => 0
  | .engine => 1
  | .eye _ _ _ => 2
  | .scrub => 3
  | .table _ => 4
  | .pace => 5

/-- The cipher lane, lane or region of a test. -/
def testIndex : SelfTest → Nat
  | .gcm l => l
  | .eye l _ _ => l
  | .table r => r
  | _ => 0

/-- Post SELFTEST_FAIL: half; test; index. -/
def State.selftestFail (s : State) (h : Half) (t : SelfTest) : State :=
  s.postLevel h 0x0705 (16384 * testCode t + testIndex t) [(1, h.idx), (1, testCode t), (2, testIndex t)]

/-- An eye margin scan of a lane in use (R54): counted in LANES_LOW below `HLM_CFG`. -/
def HState.eyeScan (x : HState) (lane mv ui : Nat) : HState :=
  let cfg := x.img.reg 0 0xD00020
  let low := decide (mv < bits cfg 7 0 ∨ ui < bits cfg 15 8)
  let x := x.setLane lane { x.lane lane with eyeV := mv, eyeH := ui }
  { x with helm := { x.helm with
      lanesLow := if low then (if x.helm.lanesLow.contains lane then x.helm.lanesLow else x.helm.lanesLow ++ [lane])
                  else x.helm.lanesLow.filter (· ≠ lane) } }

/-- SELFTEST_RUN (R400, Table 13.3). -/
def execSelftestRun (half : Half) (test : SelfTest) (ok : Bool) (s : State) : Host.Outcome State Fault Refusal :=
  onUnit (decide (testIndex test < (match test with | .eye _ _ _ => 64 | .table _ => 2432 | _ => 16384))) <|
    let x := s.half half
    let standby := decide (x.helm.st = .inStep ∨ x.helm.st = .out)
    if !x.up then s
    else match test with
      | .eye l mv ui =>
        if (x.lane l).pwrNow = 2 then
          let s := s.modHalf half fun x => x.eyeScan l mv ui
          if ok then s else s.selftestFail half test
        else s
      | .pace => s
      | .gcm l =>
        if !standby then s
        else if ok then s.modHelm half fun m => { m with katBad := m.katBad.filter (· ≠ l) }
        else
          ((s.modHelm half fun m => { m with katBad := if m.katBad.contains l then m.katBad else m.katBad ++ [l] }).leaveStep
            half).selftestFail half test
      | .engine =>
        if !standby then s
        else if ok then s
        else ((s.modHalf half fun x => { x with pke := { x.pke with ok := false } }).selftestFail half test).post half
          .cores 0x0901 [(1, half.idx), (2, 0), (1, 1), (1, 1)]
      | .scrub =>
        if !standby || ok then s
        else (s.selftestFail half test).haltHalf half 2 0
      | .table r =>
        if !standby then s
        else
          let n := if ok then 0 else tabGet 0 x.helm.regionFails r + 1
          let s := s.modHelm half fun m => { m with regionFails := tabSet 0 m.regionFails r n }
          if ok then s
          else (if 3 ≤ n then s.leaveStep half else s).selftestFail half test

/-! ## Commands (Table 13.10) -/

/-- NO_RESOURCE of HELM_HANDOVER: no half in step, or a handover decided and not complete (R560). -/
def State.handoverBlocked (s : State) (x : Half) : Bool :=
  decide ((s.half x.other).helm.st ≠ .inStep ∨ (s.half x).helm.st ≠ .activePaired) ||
    (s.half x).helm.handover.isSome

/-- Decide the handover that a command asks for; the command waits. -/
def State.startHandover (s : State) (x : Half) (c : Cmd) (late : Bool) (returnMs : Nat) (tb : Option Nat) : State :=
  (s.decideHandover x (some { table := c.table, pos := c.pos, tag := c.tag, op := c.op }) late returnMs tb).wait x
    { cmd := c, on := .handover, status := stDone, cflags := 0, result := [], area := none, cont := .finish }

/-- HELM_HANDOVER (R413, R424, R560) (R423). -/
def execHelmHandover (h : Hdr) (w : When) (returnMs : Nat) (s : State) : Host.Outcome State Fault Refusal :=
  .next <| s.command h 0x0701
    (fun x => decide (h.fn ≠ 0 ∨ 65535 < returnMs) || (s.half x).badWhen w)
    (fun x =>
      let more := (if w = .immediate then 0 else 1) + (if returnMs = 0 then 0 else 1)
      [((decide (w = .immediate) && s.handoverBlocked x) || (s.img x).schedFull 0 more, stNoRes)])
    (fun x s =>
      let c := cmdOf h 0x0701
      match w with
      | .immediate => s.startHandover x c false returnMs none
      | .scheduled tb i => s.arm x h.fn 0x0701 (some c) tb i.time 0 (.drill returnMs))

/-- HELM_HALF_HALT (R40): naming the standby it completes once that has halted; naming the active half, the new active
half completes it after its GAP (R415). -/
def execHelmHalfHalt (h : Hdr) (target : Half) (s : State) : Host.Outcome State Fault Refusal :=
  .next <| s.command h 0x0702 (fun _ => decide (h.fn ≠ 0)) (fun _ => [])
    (fun x s =>
      if target = x then s.haltHalf x 5 0
      else (s.haltHalf target 5 0).done x h 0x0702)

/-- A half goes through COLD into BOOTING alone, with its restart count raised (R421); what it was as standby ends.
DEDUCED: notes/assumptions/71.md. -/
def State.restartHalf (s : State) (x target : Half) (named : Option Nat) : State :=
  let n := (s.half target).restarts + 1
  let s := (s.enterSolo x 3).modHelm x fun m => { m with haltNotice := false, fwdCount := 0 }
  let s := { s with flash := s.flash.setPriv target { s.flash.priv target with restarts := n } }
  s.setHalf target { boot := { powered := true, named }, restarts := n }

/-- HELM_HALF_RESTART (R421). -/
def execHelmHalfRestart (h : Hdr) (target : Half) (s : State) : Host.Outcome State Fault Refusal :=
  .next <| s.command h 0x0703
    (fun x => decide (h.fn ≠ 0 ∨ target = x))
    (fun _ => [(decide (65535 ≤ (s.half target).restarts), stExhausted)])
    (fun x s => (s.restartHalf x target none).done x h 0x0703)

end Sys2Proof.Machine
end

