-- ==== Sys2Proof/Machine/Boot.lean ====
section
/-! DEFINITION. Bring-up (19): the boot program of a half, the first claim, BOOT with its six steps, the standing
configuration at boot (R498), the end of BOOTING. -/

namespace Sys2Proof.Machine

open Sys2Proof

/-! ## The boot program (R540) -/

/-- An image slot. -/
def Flash.slot (f : Flash) (n : Nat) : Option Fw := if n = 0 then f.fw0 else f.fw1

/-- The anti-rollback counter V (R362). -/
def Flash.rollback (f : Flash) : Nat := max f.rollA f.rollB

/-- A half burns its thermometer to match the other's (R362). DEDUCED: notes/assumptions/88.md. -/
def Flash.matchRoll (f : Flash) (h : Half) : Flash :=
  match h with
  | .A => { f with rollA := f.rollback }
  | .B => { f with rollB := f.rollback }

/-- A half loads the image of a slot only when its checks pass and SVN ≥ V (R361). -/
def Flash.loads (f : Flash) (n : Nat) : Option Fw :=
  (f.slot n).filter fun w => w.loads && decide (f.rollback ≤ w.svn)

/-- Post FW_BOOT_FAIL: half; slot refused; slot loaded instead. -/
def State.bootFail (s : State) (x h : Half) : State :=
  match (s.half h).boot.refused with
  | some r => (s.modHalf h fun y => { y with boot := { y.boot with refused := none } }).post x .cores 0x0805
      [(1, h.idx), (1, r), (1, (s.half h).boot.slot)]
  | none => s

/-- BOOT_START (R540): thermometer, image, keys; the sealed HSS traversal state serves where the private partition holds
that of the present IDGEN (R355). DESIGN CHOICE: notes/assumptions/73.md. -/
def execBootStart (half : Half) (s : State) : Host.Outcome State Fault Refusal :=
  .next <|
    let x := s.half half
    if s.phase = .cold ∨ !x.boot.powered ∨ x.boot.started then s
    else
      let fl := s.flash.matchRoll half
      let s := { s with flash := fl.setPriv half { fl.priv half with restarts := x.restarts } }
      let first := x.boot.named.getD s.flash.bootSlot
      let second := if x.boot.named.isSome then s.flash.bootSlot else 1 - s.flash.bootSlot
      let kept := decide ((s.flash.priv half).hss = some s.flash.idgen)
      let start : Nat → Option Nat → Nat → State → State := fun slot refused svn s =>
        (s.passRoots half).modHalf half fun x => { x with
          boot := { x.boot with started := true, slot, svn, refused, named := none, hssReady := kept },
          pke := { x.pke with ok := true } }
      match s.flash.loads first, s.flash.loads second with
      | some w, _ => start first none w.svn s
      | none, some w =>
        let s := start second (some first) w.svn s
        match s.holder with | some h => s.bootFail h half | none => s
      | none, none =>
        (s.modHalf half fun x => { x with boot := { x.boot with started := true } }).haltHalf half 6 0

/-- HSS_STATE_REBUILT (R355): the state is sealed in the half's private partition. -/
def execHssStateRebuilt (half : Half) (s : State) : Host.Outcome State Fault Refusal :=
  .next <|
    if (s.half half).up then
      { s with flash := s.flash.setPriv half { s.flash.priv half with hss := some s.flash.idgen } }.modHalf half fun x =>
        { x with boot := { x.boot with hssReady := true } }
    else s

/-! ## Claims of BOOTING (R541) -/

/-- The first claim after COLD, with generation 1; a half that is ready becomes standby. -/
def State.firstClaim (s : State) (h : Half) : State :=
  let s := s.modHelm h fun m =>
    { m with st := .activeSolo, claim := true, gen := 1, maxSeen := max 1 m.maxSeen, renewed := true }
  if (s.half h.other).up && (s.half h.other).boot.ready then
    s.modHelm h.other fun m => { m with st := .out, maxSeen := max 1 m.maxSeen }
  else s

/-- HALF_READY (R541). -/
def execHalfReady (half : Half) (s : State) : Host.Outcome State Fault Refusal :=
  .next <|
    let x := s.half half
    if !x.up || x.boot.ready then s
    else
      let s := s.modHalf half fun x => { x with boot := { x.boot with ready := true, readyAt := s.now } }
      let o := s.half half.other
      if o.helm.claim || decide (s.phase = .running) then
        s.modHelm half fun m => { m with st := .out, maxSeen := max m.maxSeen o.helm.gen }
      else if half = .A then s.firstClaim .A else s

/-- HALF_B_CLAIM_TIMEOUT (R541): ready for 2 s without a valid claim from half A, which has numbered no event of this run
(R32). DEDUCED: notes/assumptions/105.md. -/
def execHalfBClaimTimeout (s : State) : Host.Outcome State Fault Refusal :=
  .next <|
    if s.phase = .booting ∧ s.b.up ∧ s.b.boot.ready ∧ s.b.boot.readyAt + 2000000000 ≤ s.now ∧ !s.a.helm.claim ∧
        !s.b.helm.claim ∧ s.a.img.seq = 0 then s.firstClaim .B
    else s

/-! ## The standing configuration (R498) -/

/-- A record's function and offset (Table 16.13). -/
def recFn (loc : Nat) : Nat := loc / 0x10000000
def recOff (loc : Nat) : Nat := loc % 0x2000000

/-- A record is accepted under R42 and the register's own rule. DEDUCED: notes/assumptions/24.md. -/
def State.recordOk (s : State) (x : Half) (loc : Nat) (w : Word) : Bool :=
  let fn := recFn loc
  let off := recOff loc
  match regSpecOf off with
  | none => false
  | some r =>
    decide (fn < 16 ∧ loc = regKey fn off) && reaches fn off && !isRingReg off && r.inRange w &&
      (match r.home with
       | .paired => (s.half x).accepts fn r.base off ((s.img x).reg fn off) (r.apply ((s.img x).reg fn off) w)
       | .module => s.acceptsModule r.base off (s.modReg off) (r.apply (s.modReg off) w)
       | .half => false)

/-- Apply a record as a paired write, counting it applied or refused. -/
def State.applyRecord (x : Half) (p : (Nat × Nat) × State) (rec_ : Nat × Word) : (Nat × Nat) × State :=
  if p.2.recordOk x rec_.1 rec_.2 then
    ((p.1.1 + 1, p.1.2), p.2.writeReg x (recFn rec_.1) (recOff rec_.1) rec_.2)
  else ((p.1.1, p.1.2 + 1), p.2)

/-- The factory defaults: `LNE_LANE_CFG[n].PWR` at 2 for the client lanes. -/
def State.factoryDefaults (s : State) (x : Half) : State :=
  (List.range 32).foldl (fun s n =>
    let off := 0x201000 + 0x10 * n
    s.writeReg x 0 off (setBits (resetWord off) 1 0 2)) s

/-- The current image of the standing configuration. -/
def Flash.config (f : Flash) : Option CfgImg :=
  match f.cfgCur with
  | some b => if b then f.cfg1 else f.cfg0
  | none => none

/-- CONFIG_LOAD (R498, R499): the configuration applied, and the event that says so. DEDUCED: notes/assumptions/24.md. -/
def State.loadConfig (s : State) (x : Half) : State × (Nat × List Fld) :=
  match s.flash.config with
  | some img =>
    if img.valid then
      let r := img.records.foldl (State.applyRecord x) ((0, 0), { s with cfgDefaulted := false })
      (r.2, (0x0821, [(8, img.saveCount), (2, r.1.1), (2, r.1.2)]))
    else
      let (c, s) := s.draw
      ({ s with cfgDefaulted := true }.factoryDefaults x, (0x0820, [(1, c % 2)]))
  | none => ({ s with cfgDefaulted := true }.factoryDefaults x, (0x0820, [(1, 2)]))

/-! ## BOOT (R542) -/

/-- The key register as the journal rebuilds it: descendants of landing 4 of an INVALID domain key are ORPHANED (R292);
an erased run journals every entry FREE (R464). -/
def rebuildKeys (dur : Tab KeyEnt) : Tab KeyEnt :=
  dur.map fun p =>
    let par : KeyEnt := tabGet {} dur p.2.parent
    if hLanding p.1 = 4 ∧ p.2.st = 1 ∧ (par.st = 3 ∨ par.serial ≠ p.2.parSerial) then (p.1, { p.2 with st := 4 })
    else p

/-- Number an event at once. DEDUCED: notes/assumptions/31.md. -/
def State.sayNow (s : State) (h : Half) (code : Nat) (payload : List Fld) (route : Route := .pf) : State :=
  s.numberNow h (.ev (mkEv s h code payload route))

/-- Step 6 of R542. -/
def State.bootEvents (s : State) (h : Half) (cause : Nat) (cfg : Nat × List Fld) : State :=
  let t := s.tam
  let s := (t.log.filter (!·.posted)).foldl (fun s e => s.sayNow h 0x0C01 e.payload) s
  let s := if cause = 3 then
      s.sayNow h 0x0C02 [(1, t.evidence), (1, b2n t.saturated), (4, t.erasedMask)] else s
  let s := match t.committed with
    | some c => s.sayNow h 0x0C03 [(1, c.old), (1, c.new), (1, b2n t.saturated), (4, c.mask), (4, c.seconds)]
    | none => s
  let s := if t.lostNow then s.sayNow h 0x0C04 [(1, t.evidence)] else s
  let s := s.modTam fun t => { t with committed := none, lostNow := false }
  s.sayNow h cfg.1 cfg.2

/-- INTEGRITY_HALT for a half halted during BOOTING, directly after the events of step 6 (R40, R533, R540). -/
def State.bootHalted (s : State) (h : Half) : State :=
  let o := s.half h.other
  if o.haltCause ≠ 0 ∧ !(s.half h).helm.haltNotice then
    (s.modHelm h fun m => { m with haltNotice := true }).sayNow h 0x0D05 [(1, h.other.idx), (4, o.haltWord)]
  else s

/-- BOOT (R542): the half that makes the first claim. DEDUCED: notes/assumptions/29.md, notes/assumptions/74.md. -/
def execBoot (half : Half) (s : State) : Host.Outcome State Fault Refusal :=
  .next <|
    if s.phase ≠ .booting ∨ s.holder ≠ some half ∨ (s.img half).seq ≠ 0 then s
    else
      let cause := s.tam.endCause
      let b := (s.half half).boot
      let erased := !s.tam.seed
      let s := s.sayNow half 0x0801
        [(8, s.flash.run + 1), (1, cause), (1, half.idx), (1, b.slot), (1, b.svn), (1, s.tam.evidence),
         (1, b2n s.tam.saturated), (1, b2n erased), (1, b2n s.flash.charter.isSome)] .every
      let s := s.modTam fun t => { t with endCause := 1 }
      let fl := if erased then { s.flash.journal 8 with keys := [] } else s.flash
      let s := { s with flash := { fl.journal 7 with run := fl.run + 1 } }
      let s := s.modImg half fun im => { im with keys := rebuildKeys s.flash.keys }
      let s := (s.freshSerials half).freshHss half
      let (s, cfg) := s.loadConfig half
      let s := { (s.bootEvents half cause cfg).bootHalted half with lastState := s.modState }
      (s.bootFail half .A).bootFail half .B

/-- BOOTING_END (R542, R546): step 6 done, the DRAM initialised, the HSS traversal state ready; the descriptors that
doorbells have covered are taken. DESIGN CHOICE: notes/assumptions/73.md. DEDUCED: notes/assumptions/90.md. -/
def execBootingEnd (s : State) : Host.Outcome State Fault Refusal :=
  .next <|
    match s.holder with
    | some x =>
      let y := s.half x
      if s.phase = .booting ∧ y.img.seq ≠ 0 ∧ y.boot.hssReady ∧ y.boot.dramDone then
        let s := { s with phase := .running }.noteStateNow x
        (List.range 16).foldl (fun s fn => s.takeAll x fn) s
      else s
    | none => s

end Sys2Proof.Machine
end

