-- ==== Sys2Proof/Machine/Pke.lean ====
section
/-! DEFINITION. The public-key engine (11): its queue and lanes, HSS indices, and the commands of Table 11.9 up to the
release of their results (`Machine/Finish.lean`). -/

namespace Sys2Proof.Machine

open Sys2Proof

/-! ## Lanes and queue (R344, R345) -/

/-- A lane starts the front operation of the queue; its deadline is doubled while PACE_LIMIT is raised. -/
def Pke.startOn (p : Pke) (now : Nat) (doubled : Bool) (lane : Nat) : Pke :=
  match tabGet none p.lanes lane, p.queue with
  | none, o :: r =>
    { p with lanes := tabSet none p.lanes lane (some { op := o, at_ := now + (if doubled then 2 else 1) * o.ns }),
             queue := r }
  | _, _ => p

/-- Free lanes take from the queue, unless known-answer tests run (R351). -/
def Pke.start (p : Pke) (now : Nat) (doubled : Bool) : Pke :=
  if p.testing || !p.ok then p else [0, 1, 2, 3].foldl (fun p l => p.startOn now doubled l) p

/-- The engine of a half starts what it can. -/
def State.pkeRun (s : State) (x : Half) : State :=
  s.modHalf x fun y => { y with pke := y.pke.start s.now y.gov.paceLimit }

/-- Public-key operations of a function queued or running (R494). -/
def Image.pkeOf (im : Image) (fn : Nat) : Nat :=
  (im.jobs.filter fun j => decide (j.cmd.fn = fn) && (match j.on with | .pke _ => true | _ => false)).length

/-- The queue is full, or the VF is at its PKE_MAX (R365, R494). -/
def State.pkeFull (s : State) (x : Half) (fn : Nat) : Bool :=
  decide (256 ≤ (s.half x).pke.queue.length) || (decide (fn ≠ 0) && decide ((s.img x).vfPke fn ≤ (s.img x).pkeOf fn))

/-- An operation for a command, which waits for its deadline with the status that it will show; a failed engine gives
INTEGRITY (R351). -/
def State.pkeOp (s : State) (x : Half) (h : Hdr) (op ns status : Nat) (result : List Fld)
    (area : Option (Nat × List Fld)) (cont : Cont) : State :=
  if !(s.half x).pke.ok then s.postCpl x (cmdOf h op) stIntegrity 0 []
  else
    let id := (s.half x).pke.nextId
    let s := s.wait x { cmd := cmdOf h op, on := .pke id, status, cflags := 0, result, area, cont }
    (s.modHalf x fun y => { y with pke := { y.pke with queue := y.pke.queue ++ [{ id, ns }], nextId := id + 1 } }).pkeRun x

/-! ## HSS indices (R356–R358) -/

/-- No HSS index remains. -/
def State.hssSpent (s : State) (x : Half) : Bool :=
  decide ((s.img x).hssEnd ≤ (s.img x).hssNext ∧ 2 ^ 28 ≤ s.flash.hssBlk)

/-- Indices that remain. -/
def State.hssLeft (s : State) (x : Half) : Nat := if s.hssSpent x then 0 else 2 ^ 40 - (s.img x).hssNext

/-- Post HSS_LOW and HSS_EXHAUSTED, each once in the run (R358). DEDUCED: notes/assumptions/78.md. -/
def State.hssNote (s : State) (x : Half) : State :=
  let s :=
    if !(s.img x).hssLow && decide (s.hssLeft x < 2 ^ bits ((s.img x).reg 0 0xB00010) 5 0) then
      (s.modImg x fun im => { im with hssLow := true }).post x .cores 0x0903 [(8, s.hssLeft x)]
    else s
  if !(s.img x).hssExh && s.hssSpent x then
    (s.modImg x fun im => { im with hssExh := true }).post x .cores 0x0904 [(1, s.flash.idgen)]
  else s

/-- Assign an HSS index; its block is journalled before its first use. -/
def State.takeHss (s : State) (x : Half) : Nat × State :=
  let s := if (s.img x).hssNext < (s.img x).hssEnd then s else s.freshHss x
  let i := (s.img x).hssNext
  (i, (s.modImg x fun im => { im with hssNext := im.hssNext + 1 }).hssNote x)

/-- A signature block of 3,700 bytes over a message with the identity keys: the ECDSA nonce is hedged with random bytes
(R349, R351, R353). -/
def State.signature (s : State) (x : Half) (index : Nat) (msg : List Nat) : List Nat × State :=
  let (c, s) := s.draw
  (dualSign (s.half x).kram.birth s.flash.idgen index c msg, s)

/-- A block of bytes as one field. -/
def blockFld (bs : List Nat) : Fld := (bs.length, leNat bs)

/-! ## Curves (R347) -/

/-- The curve of an identifier (R347): P-256, P-384, P-521, or a loaded curve. -/
def Image.curve (im : Image) (id : Nat) : Option Curve :=
  if id = 1 then some p256 else if id = 2 then some p384 else if id = 3 then some p521
  else if 0x10 ≤ id ∧ id < 0x18 then tabGet none im.curves (id - 0x10)
  else none

/-- The slot holds a curve. -/
def Image.curveAt (im : Image) (slot : Nat) : Bool := (tabGet none im.curves slot).isSome

/-- Column of Table 11.2 for a bit length, as a factor of 1, 2 or 4. -/
def curveFactor (bits : Nat) : Nat := if bits ≤ 256 then 1 else if bits ≤ 384 then 2 else 4

/-- PKE_CURVE_LOAD (R347). -/
def execPkeCurveLoad (h : Hdr) (slot _ : Nat) (c : Curve) (s : State) : Host.Outcome State Fault Refusal :=
  .next <| s.command h 0x0901
    (fun x => decide (h.fn ≠ 0 ∨ 8 ≤ slot ∨ c.bits < 192 ∨ 521 < c.bits) || (s.img x).curveAt slot)
    (fun x => [(s.pkeFull x h.fn, stNoRes)])
    (fun x s => s.pkeOp x h 0x0901 20000000 (if curveOk c then stDone else stPke) [] none (.curve slot c))

/-- PKE_CURVE_CLEAR (R364). -/
def execPkeCurveClear (h : Hdr) (slot : Nat) (s : State) : Host.Outcome State Fault Refusal :=
  .next <| s.command h 0x0902
    (fun x => decide (h.fn ≠ 0) || !(s.img x).curveAt slot) (fun _ => [])
    (fun x s => (s.modImg x fun im => { im with curves := tabDel im.curves slot }).done x h 0x0902)

/-! ## Verifying and hashing -/

/-- Deadline of a verification in ns (Table 11.2); none for an unknown curve or hash. -/
def Image.verifyNs (im : Image) : VerifyAlg → Option Nat
  | .ecdsa curve hash => if 1 ≤ hash ∧ hash ≤ 6 then (im.curve curve).map fun c => 64000 * curveFactor c.bits else none
  | .hss => some 560000
  | .dual => some 704000

/-- The verdict on a signature, its input checks included (R346, R353): r ‖ s under a point; an HSS signature; a dual
signature block under a key record as Table 19.6 has it. DEDUCED: notes/assumptions/78.md. -/
def Image.verifyOk (im : Image) (a : VerifyArgs) : Bool :=
  match a.alg with
  | .ecdsa curve hash => (im.curve curve).any fun c => ecdsaOk c a.key (digestOf hash a.msg) a.sig
  | .hss => hssOk a.key a.msg a.sig
  | .dual => decide (a.key.length = 160) && dualOk (a.key.take 97) (a.key.drop 100) a.msg a.sig

/-- PKE_VERIFY (R346, R353). -/
def execPkeVerify (h : Hdr) (a : VerifyArgs) (s : State) : Host.Outcome State Fault Refusal :=
  .next <| s.command h 0x0903
    (fun x => ((s.img x).verifyNs a.alg).isNone || decide (16777216 < a.msg.length))
    (fun x => [(s.pkeFull x h.fn, stNoRes)])
    (fun x s => s.pkeOp x h 0x0903 (((s.img x).verifyNs a.alg).getD 0)
      (if (s.img x).verifyOk a then stDone else stPke) [] none .finish)

/-- PKE_DIGEST (R342): without a deadline (Table 11.2). -/
def execPkeDigest (h : Hdr) (hash len addr : Nat) (message : List Nat) (s : State) :
    Host.Outcome State Fault Refusal :=
  .next <| s.command h 0x0904
    (fun _ => decide (hash = 0 ∨ 6 < hash ∨ 16777216 < len))
    (fun x => [(s.pkeFull x h.fn, stNoRes)])
    (fun x s => s.reply x h 0x0904 [] addr [blockFld (digestOf hash message)])

/-! ## Identity, attestation, charter -/

/-- PKE_IDENTITY (R354). -/
def execPkeIdentity (h : Hdr) (addr : Nat) (s : State) : Host.Outcome State Fault Refusal :=
  .next <| s.command h 0x0905 (fun _ => false) (fun _ => [])
    (fun x s =>
      let g := s.flash.idgen
      s.reply x h 0x0905 [(1, g), (8, (s.img x).hssNext)] addr
        [blockFld (idEcdsa (s.half x).kram.birth g), (3, 0), blockFld (idHss (s.half x).kram.birth g)])

/-- A half counts as healthy: active, or a standby in step (Table 00.4). -/
def HState.healthy (x : HState) : Bool := x.up && (x.helm.st.active || decide (x.helm.st = .inStep))

/-- The image slot that a half runs. -/
def State.runs (s : State) (h : Half) : Option Fw :=
  if (s.half h).up then (if (s.half h).boot.slot = 0 then s.flash.fw0 else s.flash.fw1) else none

/-- The attestation report (Table 11.7), fields in order of their bytes. DEDUCED: notes/assumptions/78.md. -/
def State.report (s : State) (x : Half) (challenge index : Nat) : List Fld :=
  let fw : Half → Fld := fun h => (48, match s.runs h with | some w => w.digest | none => 0)
  let svn : Half → Fld := fun h => (1, match s.runs h with | some w => w.svn | none => 0)
  [(4, 0x54544146), (1, 1), (1, s.modState),
   (1, b2n s.a.healthy + 2 * b2n s.b.healthy + 4 * x.idx), (1, s.flash.idgen), (8, s.flash.run),
   (8, (s.img x).seq), (32, challenge), (48, match s.flash.charter with | some c => c.digest | none => 0),
   fw .A, fw .B, svn .A, svn .B, (1, max s.flash.rollA s.flash.rollB), (1, 0),
   (2, s.tam.evidence + 32768 * b2n s.tam.saturated),
   (2, b2n s.flash.charter.isSome + 2 * b2n (!s.tam.seed) + 4 + 8 * b2n s.cfgDefaulted + 16 * b2n s.tam.evidenceLost),
   (8, index), (8, ((s.half x).tb 0).sec), (32, 0)]

/-- The bytes of fields in their order. -/
def fldsBytes (fs : List Fld) : List Nat := fs.flatMap fldBytes

/-- PKE_ATTEST (R360): the report latched after the index is assigned, released with its signature at the dual
signature deadline. -/
def execPkeAttest (h : Hdr) (challenge addr : Nat) (s : State) : Host.Outcome State Fault Refusal :=
  .next <| s.command h 0x0906 (fun _ => false)
    (fun x => [(s.pkeFull x h.fn, stNoRes), (s.hssSpent x, stExhausted)])
    (fun x s =>
      let (i, s) := s.takeHss x
      let r := s.report x challenge i
      let (g, s) := s.signature x i (fldsBytes r)
      s.pkeOp x h 0x0906 1920000 stDone [] (some (addr, r ++ [blockFld g])) .sign)

/-- PKE_CHARTER_READ (R359). -/
def execPkeCharterRead (h : Hdr) (addr capacity : Nat) (s : State) : Host.Outcome State Fault Refusal :=
  .next <| s.command h 0x0907
    (fun _ => s.flash.charter.isNone || decide (capacity < 3972)) (fun _ => [])
    (fun x s => match s.flash.charter with
      | some c => s.reply x h 0x0907 [(2, 3972)] addr [blockFld c.bytes]
      | none => s)

/-! ## Known-answer tests (R351) -/

/-- Complete every queued operation with INTEGRITY. -/
def State.failQueue (s : State) (x : Half) : State :=
  let ids := (s.half x).pke.queue.map (·.id)
  let mine : Job → Bool := fun j => match j.on with | .pke i => ids.contains i | _ => false
  let js := (s.img x).jobs.filter mine
  let s := s.modHalf x fun y => { y with pke := { y.pke with queue := [] },
                                         img := { y.img with jobs := y.img.jobs.filter fun j => !mine j } }
  js.foldl (fun s j => (s.zeroArea j.area).postCpl x j.cmd stIntegrity 0 []) s

/-- Post PKE_FAULT: half; operation; self-verification 0 or known-answer test 1; engine healthy 0 or failed 1.
DEDUCED: notes/assumptions/78.md. -/
def State.pkeFault (s : State) (x : Half) (op kat failed : Nat) : State :=
  s.post x .cores 0x0901 [(1, x.idx), (2, op), (1, kat), (1, failed)]

/-- PKE_KAT_DONE (R351): a failed engine completes its queue with INTEGRITY, and an active half offers the helm to a
standby whose engine is healthy. -/
def execPkeKatDone (half : Half) (ok : Bool) (s : State) : Host.Outcome State Fault Refusal :=
  .next <|
    let x := s.half half
    if !x.up || !x.pke.testing then s
    else
      let s := s.modHalf half fun x => { x with pke := { x.pke with testing := false, ok } }
      if ok then s.pkeRun half
      else
        let s := (s.failQueue half).pkeFault half 0 1 1
        if s.isActive half && decide (hwBits x.helm.peerHealth 61 61 = 1) then s.decideHandover half none false 0 none
        else s

end Sys2Proof.Machine
end

