-- ==== Sys2Proof/Machine/Keys.lean ====
section
/-! DEFINITION. The key staircase (09): host blob areas, creation, residency, gangways, invalidation and its cascade, freeing,
queries and provenance statements, the key journal. -/

namespace Sys2Proof.Machine

open Sys2Proof

/-! ## Host blob areas (R277) -/

/-- Host address of the entry of a landing-3 or landing-4 key (R277), if its domain has an area. -/
def Image.entryAddr (im : Image) (handle : Nat) : Option Nat :=
  (tabGet none im.areas (hDomain handle)).map fun a =>
    a.1 + 256 * (if hLanding handle = 3 then 0 else 1 + hIndex handle)

/-- Write a blob into its copy of the entry. -/
def State.writeBlob (s : State) (x : Half) (handle : Nat) (e : KeyEnt) : State :=
  match (s.img x).entryAddr handle with
  | some a => { s with host := tabSet [] s.host (a + 128 * (e.gen % 2)) (s.blob x handle e) }
  | none => s

/-- An event about a key. -/
def State.postKey (s : State) (x : Half) (handle code : Nat) (payload : List Fld) : State :=
  s.post x .cores code payload (.dom (hDomain handle))

/-- Post KEY_LOAD_FAIL: handle; failed check of R276, 0 to 6 in its order, or 7 for the DMA; the count is absorbed at the
usher, one source a handle (Table 09.11). -/
def State.postLoadFail (s : State) (x : Half) (handle check : Nat) : State :=
  s.postLevel x 0x0103 handle [(4, handle), (1, check)] (.dom (hDomain handle))

/-! ## Residency (R280–R282) -/

/-- Resident landing-4 keys. -/
def Image.resident4 (im : Image) : Nat := (im.keys.filter fun p => decide (hLanding p.1 = 4) && p.2.resident).length

/-- The resident unpinned landing-4 key unused longest. -/
def Image.oldest4 (im : Image) : Option Nat :=
  (im.keys.filter fun p => decide (hLanding p.1 = 4) && p.2.resident && !p.2.pinned).foldl (fun m p =>
    match m with
    | none => some p.1
    | some k => if p.2.lastUse < (im.key k).lastUse then some p.1 else some k) none

/-- Make a landing-4 key resident, evicting one when 2,048 are. DEDUCED: notes/assumptions/39.md. -/
def Image.makeKeyResident (im : Image) (handle now : Nat) : Image :=
  let im := if 2048 ≤ im.resident4 ∧ !(im.key handle).resident then
      match im.oldest4 with
      | some k => im.setKey k { im.key k with resident := false }
      | none => im
    else im
  im.setKey handle { im.key handle with resident := true, lastUse := now }

/-- Pin or unpin a key. -/
def Image.pinKey (im : Image) (handle : Nat) (pin : Bool) : Image :=
  im.setKey handle { im.key handle with pinned := pin }

/-! ## Creating keys (R283, R561) -/

/-- A key of this run under a parent, with what its entry records of its ancestors (R270). -/
def State.childOf (s : State) (x : Half) (parent serial kind origin : Nat) (len256 xpn : Bool) (key salt : Nat) :
    KeyEnt :=
  let p := (s.img x).key parent
  { st := 1, serial, parent, parSerial := p.serial, parOrigin := p.origin, gpHandle := p.parent,
    gpOrigin := p.parOrigin, gpSerial := p.parSerial, kind, origin, clear := p.clear || decide (origin = 4), len256,
    xpn, kcv := kcv len256 key, key, salt, run := s.flash.run }

/-- A domain key. DEDUCED: notes/assumptions/39.md. -/
def State.domainKey (s : State) (serial key : Nat) : KeyEnt :=
  { st := 1, serial, kind := 1, origin := 1, len256 := true, kcv := kcv true key, key, run := s.flash.run,
    resident := true }

/-- A creation of this handle is under way. -/
def Image.creating (im : Image) (handle : Nat) : Bool :=
  im.jobs.any fun j => match j.cont with | .create hd _ => decide (hd = handle) | _ => false

/-- An index of landing 4 of a domain is taken. -/
def Image.used4 (im : Image) (d i : Nat) : Bool :=
  decide ((im.key (mkHandle 4 d i)).st ≠ 0) || im.creating (mkHandle 4 d i)

/-- An index of landing 5, one space for all domains, is taken. -/
def Image.used5 (im : Image) (i : Nat) : Bool :=
  im.keys.any fun p => decide (hLanding p.1 = 5 ∧ hIndex p.1 = i ∧ p.2.st ≠ 0)

/-- Landing-4 keys of a domain, those under way included; landing-5 keys of a domain. -/
def Image.count4 (im : Image) (d : Nat) : Nat :=
  (im.keys.filter fun p => decide (hLanding p.1 = 4 ∧ hDomain p.1 = d ∧ p.2.st ≠ 0)).length +
    (im.jobs.filter fun j => match j.cont with
      | .create hd _ => decide (hLanding hd = 4 ∧ hDomain hd = d)
      | _ => false).length
def Image.count5 (im : Image) (d : Nat) : Nat :=
  (im.keys.filter fun p => decide (hLanding p.1 = 5 ∧ hDomain p.1 = d ∧ p.2.st ≠ 0)).length
/-- Landing-5 keys of the module. -/
def Image.all5 (im : Image) : Nat := (im.keys.filter fun p => decide (hLanding p.1 = 5 ∧ p.2.st ≠ 0)).length

/-- No index or quota remains for a SAK of a domain. -/
def Image.noSak (im : Image) (d : Nat) : Bool := decide (im.sakQuota d ≤ im.count5 d ∨ 1048576 ≤ im.all5)

/-- A SAK enters the key register at once: its blob lies in the wharf (R279).  Called only while one is left. -/
def State.makeSak (s : State) (x : Half) (parent origin : Nat) (len256 xpn mka : Bool) (key salt : Nat) :
    Nat × State :=
  let (c, s) := s.draw
  let (serial, s) := s.nextSerial x
  let e := { s.childOf x parent serial 8 origin len256 xpn key (if xpn then salt else 0) with mka }
  match pickFree (s.img x).used5 1048576 c with
  | some i =>
    let hd := mkHandle 5 (hDomain parent) i
    (hd, (s.modImg x fun im => im.setKey hd e).toWharf x hd)
  | none => (0, s)

/-- A creation or replacement whose blob could not be written and read back (R561). -/
def State.createFailed (s : State) (x : Half) (c : Cmd) (handle check : Nat) : State :=
  (s.postLoadFail x handle check).postCpl x c stKeyInvalid 0 []

/-- The parent takes new children (R283); a domain key has none. DEDUCED: notes/assumptions/39.md. -/
def Image.parentLive (im : Image) (handle : Nat) (e : KeyEnt) : Bool :=
  decide (hLanding handle = 3) || decide ((im.key e.parent).st = 1 ∧ (im.key e.parent).serial = e.parSerial)

/-- The blob of a new key goes out by DMA; without an area the write fails at once. -/
def State.startCreate (s : State) (x : Half) (c : Cmd) (handle : Nat) (e : KeyEnt) (result : List Fld) : State :=
  if ((s.img x).entryAddr handle).isSome then
    s.wait x { cmd := c, on := .dma, status := stDone, cflags := 0, result, area := none, cont := .create handle e }
  else s.createFailed x c handle 7

/-- The blob of a new key has been written and read back: the key exists, and its record is journalled (R298).
DEDUCED: notes/assumptions/39.md. -/
def State.finishCreate (s : State) (x : Half) (j : Job) (handle : Nat) (e : KeyEnt) : State :=
  if !(s.img x).parentLive handle e then s.postCpl x j.cmd stOrphaned 0 []
  else
    let s := (s.writeBlob x handle e).modImg x fun im => im.setKey handle e
    let r := s.record x (.key handle e)
    r.2.wait x { j with on := .flash r.1, cont := .finish }

/-- KEY_AREA_SET (R277). -/
def execKeyAreaSet (h : Hdr) (domain addr len : Nat) (s : State) : Host.Outcome State Fault Refusal :=
  .next <| s.command h 0x0101
    (fun _ => decide (16 ≤ domain ∨ len < 1048832 ∨ addr % 256 ≠ 0) || !serves h.fn domain)
    (fun _ => [])
    (fun x s => (s.modImg x fun im => { im with areas := tabSet none im.areas domain (some (addr, len)) }).done x h
      0x0101)

/-- DOMAIN_CREATE (R283, R464). DESIGN CHOICE: notes/assumptions/8.md. -/
def execDomainCreate (h : Hdr) (domain : Nat) (s : State) : Host.Outcome State Fault Refusal :=
  .next <| s.command h 0x0102
    (fun x => let hd := mkHandle 3 domain 0
      decide (h.fn ≠ 0 ∨ 16 ≤ domain) || decide (((s.img x).key hd).st ≠ 0) || (s.img x).creating hd ||
        (tabGet none (s.img x).areas domain).isNone)
    (fun _ => [(!s.tam.seed, stLocked)])
    (fun x s =>
      let (key, s) := s.draw
      let (serial, s) := s.nextSerial x
      let hd := mkHandle 3 domain 0
      s.startCreate x (cmdOf h 0x0102) hd (s.domainKey serial key) [(4, hd), (8, serial)])

/-- The material of KEY_IMPORT: a 128-bit key in the first 16 of its 32 bytes. -/
def importKey (a : ImportArgs) : Nat := a.material % (if a.len256 then 2 ^ 256 else 2 ^ 128)

/-- The fields of KEY_IMPORT agree (Table 09.5): the kind suits the parent's landing. -/
def importOk (a : ImportArgs) : Bool :=
  decide (a.salt < 2 ^ 96) &&
    (if hLanding a.parent = 3 then (decide (a.kind = 4) || decide (a.kind = 5 ∧ a.len256)) && !a.xpn
     else decide (hLanding a.parent = 4 ∧ a.kind = 8))

/-- What the parent shows to KEY_IMPORT, with the quotas and the KCV. DEDUCED: notes/assumptions/40.md. -/
def Image.importFails (im : Image) (a : ImportArgs) : List (Bool × Nat) :=
  let p := im.key a.parent
  let d := hDomain a.parent
  [(decide (p.st ≠ 0 ∧ hLanding a.parent = 4 ∧ p.kind ≠ 4), stArgs),
   (if hLanding a.parent = 3 then decide (4096 ≤ im.count4 d) else im.noSak d, stNoRes),
   (decide (p.st = 0), stKeyInvalid),
   (match a.kcv with | some k => decide (kcv a.len256 (importKey a) ≠ k) | none => false, stKeyInvalid),
   (decide (p.st ≠ 0 ∧ p.st ≠ 1), stOrphaned)]

/-- A SAK is imported under a resident CAK. DEDUCED: notes/assumptions/40.md. -/
def State.importSak (s : State) (x : Half) (c : Cmd) (a : ImportArgs) : State :=
  match lowest ((s.img x).importFails a) with
  | some st => s.postCpl x c st 0 []
  | none =>
    let (hd, s) := s.makeSak x a.parent 4 a.len256 a.xpn false (importKey a) a.salt
    let e := (s.img x).key hd
    s.postCpl x c stDone 0 [(4, hd), (8, e.serial), (8, e.kcv)]

/-- KEY_IMPORT (R283). DEDUCED: notes/assumptions/40.md. -/
def execKeyImport (h : Hdr) (a : ImportArgs) (s : State) : Host.Outcome State Fault Refusal :=
  .next <| s.command h 0x0103
    (fun _ => !importOk a || !serves h.fn (hDomain a.parent))
    (fun x => (s.img x).importFails a)
    (fun x s =>
      let c := cmdOf h 0x0103
      if hLanding a.parent = 4 then
        if ((s.img x).key a.parent).resident then s.importSak x c a
        else s.loadFor x a.parent { cmd := c, on := .load a.parent, status := stDone, cflags := 0, result := [],
                                    area := none, cont := .import_ a }
      else
        let (n, s) := s.draw
        let d := hDomain a.parent
        match pickFree ((s.img x).used4 d) 4096 n with
        | some i =>
          let (serial, s) := s.nextSerial x
          let hd := mkHandle 4 d i
          let e := s.childOf x a.parent serial a.kind 4 a.len256 false (importKey a) 0
          s.startCreate x c hd e [(4, hd), (8, serial), (8, e.kcv)]
        | none => s.postCpl x c stNoRes 0 [])

/-! ## Replacement (R285–R288) -/

/-- The gangway of a key. -/
def Image.gangway (im : Image) (handle : Nat) : Option Gangway := im.gangways.find? fun g => decide (g.handle = handle)

/-- Discard the gangway of a key. -/
def Image.dropGangway (im : Image) (handle : Nat) : Image :=
  { im with gangways := im.gangways.filter fun g => decide (g.handle ≠ handle) }

/-- Failures of KEY_REPLACE for a repeat (R287), and for a generation equal to the current one (R288). -/
def Image.replaceFails (im : Image) (handle g : Nat) (kcv : Option Nat) : List (Bool × Nat) :=
  let e := im.key handle
  if e.st = 0 then [(true, stKeyInvalid)]
  else if g + 1 = e.gen then
    [(decide (kcv ≠ some e.kcv), stArgs), (decide (e.st = 3), stKeyInvalid), (decide (e.st = 2 ∨ e.st = 4), stOrphaned)]
  else
    [(decide (g ≠ e.gen), stArgs), (decide (64 ≤ im.gangways.length), stNoRes), (decide (e.st = 3), stKeyInvalid),
     ((im.gangway handle).isSome, stLocked), (decide (e.st = 2 ∨ e.st = 4), stOrphaned)]

/-- Place new material of a key in a gangway (R285, steps 2 and 3). -/
def State.openGangway (s : State) (x : Half) (handle key : Nat) : State :=
  s.modImg x fun im => { im with gangways := im.gangways ++
    [{ handle, gen := (im.key handle).gen + 1, key, kcv := kcv ((s.img x).key handle).len256 key, rec_ := none }] }

/-- KEY_REPLACE (R285): the blob of the new generation goes out by DMA. -/
def execKeyReplace (h : Hdr) (handle g _ : Nat) (material : Nat) (kcv : Option Nat) (s : State) :
    Host.Outcome State Fault Refusal :=
  .next <| s.command h 0x0104
    (fun _ => decide (hLanding handle ≠ 4) || !serves h.fn (hDomain handle))
    (fun x => (s.img x).replaceFails handle g kcv)
    (fun x s =>
      let e := (s.img x).key handle
      let c := cmdOf h 0x0104
      if g + 1 = e.gen then s.postCpl x c stDone cfAlready [(4, e.gen)]
      else
        let key := material % (if e.len256 then 2 ^ 256 else 2 ^ 128)
        let ok := decide (e.origin = 4) && (match kcv with | some k => decide (Machine.kcv e.len256 key = k) | none => true)
        if ((s.img x).entryAddr handle).isNone then s.createFailed x c handle 7
        else (s.openGangway x handle key).wait x
          { cmd := c, on := .dma, status := stDone, cflags := 0, result := [(4, e.gen + 1)], area := none,
            cont := .replace handle ok })

/-- Step 5 of R285: the commit record is written while the key is LIVE; otherwise the status that R288 gives. -/
def State.commitGangway (s : State) (x : Half) (handle : Nat) : Except Nat (Nat × State) :=
  let im := s.img x
  let e := im.key handle
  match im.gangway handle with
  | none => .error stKeyInvalid
  | some g =>
    if e.st ≠ 1 then .error (if e.st = 2 ∨ e.st = 4 then stOrphaned else stKeyInvalid)
    else
      let s := s.writeBlob x handle { e with gen := g.gen, key := g.key, kcv := g.kcv }
      let r := s.record x (.commit handle g.gen g.kcv g.key)
      .ok (r.1, r.2.modImg x fun im => { im with gangways := im.gangways.map fun v =>
        if v.handle = handle then { v with rec_ := some r.1 } else v })

/-- The blob of the new generation has been read back (R285, steps 4 and 5). -/
def State.finishReplace (s : State) (x : Half) (j : Job) (handle : Nat) (ok : Bool) : State :=
  let drop := s.modImg x fun im => im.dropGangway handle
  if !ok then drop.postCpl x j.cmd stKeyInvalid 0 []
  else match s.commitGangway x handle with
    | .error st => drop.postCpl x j.cmd st 0 []
    | .ok (id, s) => s.wait x { j with on := .flash id, cont := .finish }

/-! ## Invalidation and cascade (R289–R292) -/

/-- The key with an entry is a descendant of the key `r` that has a serial (R290). -/
def descends (r serial : Nat) (e : KeyEnt) : Bool :=
  decide ((e.parent = r ∧ e.parSerial = serial) ∨ (e.gpHandle = r ∧ e.gpSerial = serial)) && decide (e.st ≠ 0)

/-- Handles of the descendants of a key. -/
def Image.descendants (im : Image) (r : Nat) : List Nat :=
  (im.keys.map (·.1)).filter fun k => descends r (im.key r).serial (im.key k)

/-- A descendant is marked ORPHANED; the SA of a SAK stops (R201). -/
def State.orphanKey (x : Half) (s : State) (handle : Nat) : State :=
  let e := (s.img x).key handle
  let s := s.modImg x fun im => im.setKey handle { e with st := 4 }
  match e.bound with
  | some (rx, sc, an) => s.orphanSa x (boundDir rx) sc an
  | none => s

/-- The slots of a tributary enter ORPHANED (R165): no key serves it. -/
def State.orphanTrib (s : State) (x : Half) (t : Nat) : State :=
  (s.eraseAssoc x t).modImg x fun im =>
    (im.setTx t { im.txA t with orphaned := true }).setRx t { im.rxA t with orphaned := true }

/-- Tributaries bound to a key. -/
def Image.boundTribs (im : Image) (handle : Nat) : List Nat :=
  (List.range 32).filter fun t => decide ((im.txA t).bound = some handle)

/-- The cascade of a key reaches its descendants (R290, steps 3 to 6). -/
def State.cascadeReach (s : State) (x : Half) (root grace : Nat) : State :=
  let im := s.img x
  let ds := (im.descendants root).filter fun d => decide ((im.key d).st = 1 ∨ (im.key d).st = 2)
  let s := (ds.foldl (State.orphanKey x) s).modImg x fun im =>
    { im with cascades := im.cascades.filter fun c => decide (c.root ≠ root) }
  let s := ((root :: ds).flatMap im.boundTribs).foldl (fun s t => s.orphanTrib x t) s
  s.postKey x root 0x0101 [(4, root), (1, 1), (1, grace), (4, ds.length)]

/-- A key of landing 3 or 4 is invalidated and its cascade starts (R290, R291). -/
def State.invalidate (s : State) (x : Half) (handle : Nat) : State :=
  let im := s.img x
  let grace := im.graceS (hDomain handle)
  let ds := (im.descendants handle).filter fun d => decide ((im.key d).st = 1)
  let s := s.modImg x fun im =>
    let im := ds.foldl (fun im d => im.setKey d { im.key d with st := 2 }) im
    im.setKey handle { im.key handle with st := 3 }
  let s := s.postKey x handle 0x0101 [(4, handle), (1, 0), (1, grace), (4, 0)]
  if grace = 0 then s.cascadeReach x handle 0
  else s.modImg x fun im =>
    { im with cascades := im.cascades ++ [{ root := handle, endsAt := s.now + grace * 1000000000, grace }] }

/-- The handle names a key that host software may name (R15), of a domain that the function serves (R300). -/
def handleOk (fn handle : Nat) : Bool :=
  decide (handle < 2 ^ 32 ∧ 3 ≤ hLanding handle ∧ hLanding handle ≤ 5) && serves fn (hDomain handle)

/-- KEY_INVALIDATE (R289, R298). -/
def execKeyInvalidate (h : Hdr) (handle : Nat) (s : State) : Host.Outcome State Fault Refusal :=
  .next <| s.command h 0x0105
    (fun x => !handleOk h.fn handle || ((s.img x).key handle).bound.isSome)
    (fun x =>
      let e := (s.img x).key handle
      [(decide (e.st = 0 ∨ e.st = 3), stKeyInvalid), (e.mka, stLocked)])
    (fun x s =>
      if hLanding handle = 5 then
        (s.modImg x fun im => im.setKey handle { im.key handle with st := 3 }).done x h 0x0105
      else (s.invalidate x handle).afterRecord x h 0x0105 (.invalidate handle) [])

/-- CASCADE_GRACE_END (R290, R291). -/
def execCascadeGraceEnd (handle : Nat) (s : State) : Host.Outcome State Fault Refusal :=
  .next <| s.withHolder fun x =>
    match (s.img x).cascades.find? fun c => decide (c.root = handle) with
    | some c => if c.endsAt ≤ s.now then s.cascadeReach x handle c.grace else s
    | none => s

/-! ## Freeing, queries, provenance -/

/-- KEY_FREE is refused (R293): the key lives, a descendant is neither ORPHANED nor FREE, or a cascade is in grace. -/
def Image.freeRefused (im : Image) (handle : Nat) : Bool :=
  let e := im.key handle
  decide (e.st ≠ 3 ∧ e.st ≠ 4) || ((im.descendants handle).any fun d => decide ((im.key d).st ≠ 4)) ||
    im.cascades.any fun c => decide (c.root = handle)

/-- KEY_FREE (R293, R298). DESIGN CHOICE: notes/assumptions/35.md. -/
def execKeyFree (h : Hdr) (handle : Nat) (s : State) : Host.Outcome State Fault Refusal :=
  .next <| s.command h 0x0106
    (fun x => !handleOk h.fn handle || (decide (((s.img x).key handle).st ≠ 0) && (s.img x).freeRefused handle))
    (fun x => [(decide (((s.img x).key handle).st = 0), stKeyInvalid)])
    (fun x s =>
      let s := match (s.img x).entryAddr handle with
        | some a =>
          if hLanding handle = 5 then s
          else { s with host := tabSet [] (tabSet [] s.host a [(128, 0)]) (a + 128) [(128, 0)] }
        | none => s
      let s := s.modImg x fun im => im.setKey handle {}
      let s := if hLanding handle = 5 then s.clearWharf x handle else s
      if hLanding handle = 5 then s.done x h 0x0106 else s.afterRecord x h 0x0106 (.free handle) [])

/-- KEY_QUERY (R300): blob bytes 0–63 with the state code in byte 55. -/
def execKeyQuery (h : Hdr) (handle addr : Nat) (s : State) : Host.Outcome State Fault Refusal :=
  .next <| s.command h 0x0107
    (fun _ => !handleOk h.fn handle)
    (fun x => [(decide (((s.img x).key handle).st = 0), stKeyInvalid)])
    (fun x s =>
      let e := (s.img x).key handle
      s.reply x h 0x0107 [] addr ((s.img x).blobHead handle e e.st))

/-- SHA-384 of the module's charter; zeros when it is not enrolled. -/
def State.charterDigest (s : State) : Nat := match s.flash.charter with | some c => c.digest | none => 0

/-- A provenance statement (Table 09.8). -/
def State.provenance (s : State) (x : Half) (handle challenge : Nat) : List Fld :=
  let e := (s.img x).key handle
  [(4, 0x56525046), (1, 1), (1, e.st), (1, landingKind handle e), (1, e.origin), (4, handle),
   (4, 2 * b2n e.clear + 4 * b2n e.len256 + 8 * b2n e.xpn), (8, e.serial), (4, e.gen), (4, 0), (8, e.run), (8, e.seq),
   (8, e.kcv), (8, 0), (4, e.parent), (1, e.parOrigin), (3, 0), (8, e.parSerial), (4, e.gpHandle), (1, e.gpOrigin),
   (3, 0), (8, e.gpSerial), (32, challenge), (48, s.charterDigest),
   (2, s.tam.evidence + 32768 * b2n s.tam.saturated), (6, 0), (8, s.flash.run)]

/-- KEY_PROVENANCE (R294, R296): latched when the index is assigned, released at the dual signature deadline. -/
def execKeyProvenance (h : Hdr) (handle challenge addr : Nat) (s : State) : Host.Outcome State Fault Refusal :=
  .next <| s.command h 0x0108
    (fun _ => !handleOk h.fn handle)
    (fun x => [(s.pkeFull x h.fn, stNoRes), (decide (((s.img x).key handle).st = 0), stKeyInvalid),
               (s.hssSpent x, stExhausted)])
    (fun x s =>
      let (i, s) := s.takeHss x
      let r := s.provenance x handle challenge
      let (g, s) := s.signature x i (fldsBytes r)
      s.pkeOp x h 0x0108 1920000 stDone [] (some (addr, r ++ [blockFld g])) .sign)

/-! ## The key journal (R301) -/

/-- Percentage of the area in force that is in use. -/
def Flash.usedPct (f : Flash) : Nat := 100 * f.used / journalUnits

/-- JOURNAL_COMPACTION (R301): begun at 75 %; the image's length is not stated.  Post KEY_JOURNAL: begun 0 or done 1;
percentage in use. DESIGN CHOICE: notes/assumptions/12.md. -/
def execJournalCompaction (done : Bool) (s : State) : Host.Outcome State Fault Refusal :=
  .next <| s.withHolder fun x =>
    let f := s.flash
    if !done then
      if f.compacting || decide (4 * f.used < 3 * journalUnits) || s.board.powerFail then s
      else { s with flash := { f with compacting := true } }.post x .cores 0x0104 [(1, 0), (1, f.usedPct)]
    else if f.compacting then
      let (c, s) := s.draw
      let f' := { s.flash with compacting := false, used := c % (journalUnits + 1) }
      { s with flash := f' }.post x .cores 0x0104 [(1, 1), (1, f'.usedPct)]
    else s

end Sys2Proof.Machine
end

