-- ==== Sys2Proof/Machine/Mkpdu.lean ====
section
/-! DEFINITION. MKPDUs byte by byte (IEEE 802.1X-2020 clause 11.11, MKA version 3): the keys that a CAK gives, the parameter
sets, the SAK under key wrap, the ICV. PRESUMED: notes/assumptions/123.md. -/

namespace Sys2Proof.Machine

open Sys2Proof

/-! ## Keys of a CAK (R331, R332) -/

/-- The key derivation function of IEEE 802.1X clause 6.2.1 over AES-CMAC. -/
def mkaKdf (key : List Nat) (label : String) (ctx : List Nat) (bits : Nat) : List Nat :=
  ((List.range ((bits + 127) / 128)).flatMap fun i =>
    wordBytes (cmac key ([i + 1] ++ label.toList.map Char.toNat ++ [0] ++ ctx ++ beBytes 2 bits))).take (bits / 8)

/-- KEK and ICK of a CAK under its CKN. -/
def mkaKek (cak ckn : List Nat) : List Nat := mkaKdf cak "IEEE8021 KEK" (padTo 16 ckn) (8 * cak.length)
def mkaIck (cak ckn : List Nat) : List Nat := mkaKdf cak "IEEE8021 ICK" (padTo 16 ckn) (8 * cak.length)

/-- One step of the unwrap of RFC 3394, the wrap's backward. -/
def unwrapStep (key : List Nat) (p : Nat × List Nat) (t : Nat) : Nat × List Nat :=
  match p.2.getLast? with
  | none => p
  | some r =>
    let b := Config.aesInv key ((p.1 ^^^ (t + 1)) * 2 ^ 64 + r) % 2 ^ 128
    (b / 2 ^ 64, b % 2 ^ 64 :: p.2.dropLast)

/-- What a wrapped key opens to; nothing where its integrity check fails. -/
def keyUnwrap (key bs : List Nat) : Option (List Nat) :=
  let n := bs.length / 8 - 1
  let halves := (List.range n).map fun i => beNat (bytesAt bs (8 * (i + 1)) 8)
  let r := (List.range (6 * n)).reverse.foldl (unwrapStep key) (beNat (bytesAt bs 0 8), halves)
  if r.1 = 0xA6A6A6A6A6A6A6A6 then some (r.2.flatMap (beBytes 8)) else none

/-- The salt of an XPN SAK: the key server's MI with the key number folded in (IEEE 802.1AE clause 10.7.8). -/
def xpnSalt (mi kn : Nat) : Nat :=
  mi % 2 ^ 64 + ((mi / 2 ^ 64 % 2 ^ 16) ^^^ (kn / 2 ^ 16 % 2 ^ 16)) * 2 ^ 64 +
    ((mi / 2 ^ 80 % 2 ^ 16) ^^^ (kn % 2 ^ 16)) * 2 ^ 80

/-! ## Parameter sets -/

/-- The identifier of a cipher suite (IEEE 802.1AE clause 14). -/
def suiteId : Suite → Nat
  | .gcm128 => 0x0080C20001000001
  | .gcm256 => 0x0080C20001000002
  | .xpn128 => 0x0080C20001000003
  | .xpn256 => 0x0080C20001000004

/-- The cipher suite of an identifier. -/
def suiteOf (id : Nat) : Option Suite := [.gcm128, .gcm256, .xpn128, .xpn256].find? fun u => decide (suiteId u = id)

/-- Bytes filled with zeros to a multiple of 4. -/
def pad4 (bs : List Nat) : List Nat := padTo ((bs.length + 3) / 4 * 4) bs

/-- A parameter set: its type, its second octet, its body. -/
structure MkaSet where
  ty   : Nat
  b2   : Nat
  hi   : Nat
  body : List Nat
deriving DecidableEq, Repr

/-- A parameter set as bytes; `hi` is the upper half of its third octet. -/
def setBytes (v : MkaSet) : List Nat :=
  [v.ty, v.b2, 16 * v.hi + v.body.length / 256 % 16, v.body.length % 256] ++ pad4 v.body

/-- The parameter sets of bytes, at most so many. -/
def readSets : Nat → List Nat → List MkaSet
  | n + 1, a :: b :: c :: d :: r =>
    let len := c % 16 * 256 + d
    { ty := a, b2 := b, hi := c / 16, body := r.take len } :: readSets n (r.drop ((len + 3) / 4 * 4))
  | _, _ => []

/-- A SAK on its way: AN, confidentiality offset, key number, cipher suite, the key under key wrap. -/
structure DistSak where
  an     : Nat
  offset : Nat
  kn     : Nat
  suite  : Suite
  key    : List Nat
deriving DecidableEq, Repr

/-- The SAK of a participant as its MKPDUs name it: AN, key number, the key server's MI, in use for transmit and receive,
lowest acceptable PN. -/
structure UsedSak where
  an : Nat := 0
  kn : Nat := 0
  mi : Nat := 0
  tx : Bool := false
  rx : Bool := false
  pn : Nat := 0
deriving DecidableEq, Repr

/-- What an MKPDU says. -/
structure Mkpdu where
  priority  : Nat
  server    : Bool
  sci       : Nat
  mi        : Nat
  mn        : Nat
  ckn       : List Nat
  live      : List (Nat × Nat)
  potential : List (Nat × Nat)
  latest    : Option UsedSak
  old       : UsedSak := {}
  sak       : Option DistSak
deriving DecidableEq, Repr

/-- The basic parameter set: MACsec desired, MACsec capability 3. -/
def basicSet (m : Mkpdu) : MkaSet :=
  { ty := 3, b2 := m.priority % 256, hi := 8 * b2n m.server + 4 + 3,
    body := beBytes 8 m.sci ++ beBytes 12 m.mi ++ beBytes 4 m.mn ++ beBytes 4 0x0080C201 ++ m.ckn }

/-- A peer list. -/
def peerSet (ty : Nat) (l : List (Nat × Nat)) : MkaSet :=
  { ty, b2 := 0, hi := 0, body := l.flatMap fun p => beBytes 12 p.1 ++ beBytes 4 p.2 }

/-- MACsec SAK use. -/
def useSet (v w : UsedSak) : MkaSet :=
  { ty := 3, b2 := v.an % 4 * 64 + 32 * b2n v.tx + 16 * b2n v.rx + w.an % 4 * 4 + 2 * b2n w.tx + b2n w.rx, hi := 0,
    body := beBytes 12 v.mi ++ beBytes 4 v.kn ++ beBytes 4 v.pn ++ beBytes 12 w.mi ++ beBytes 4 w.kn ++ beBytes 4 w.pn }

/-- Confidentiality offset as its code. -/
def offsetCode (o : Nat) : Nat := if o = 0 then 1 else if o = 30 then 2 else 3
def offsetOf (c : Nat) : Nat := if c = 2 then 30 else if c = 3 then 50 else 0

/-- A distributed SAK: short for the default cipher suite. -/
def sakSet (d : DistSak) : MkaSet :=
  { ty := 4, b2 := d.an % 4 * 64 + offsetCode d.offset * 16, hi := 0,
    body := beBytes 4 d.kn ++ (if d.suite = .gcm128 then [] else beBytes 8 (suiteId d.suite)) ++ d.key }

/-- The XPN parameter set: the upper halves of the lowest acceptable PNs. -/
def xpnSet (v w : UsedSak) : MkaSet :=
  { ty := 8, b2 := 0, hi := 0, body := beBytes 4 (v.pn / 2 ^ 32) ++ beBytes 4 (w.pn / 2 ^ 32) }

/-- The parameter sets of an MKPDU. -/
def mkaSets (m : Mkpdu) : List MkaSet :=
  [basicSet m] ++ (if m.live.isEmpty then [] else [peerSet 1 m.live]) ++
    (if m.potential.isEmpty then [] else [peerSet 2 m.potential]) ++
    (match m.latest with | some v => [useSet v m.old, xpnSet v m.old] | none => []) ++
    (match m.sak with | some d => [sakSet d] | none => [])

/-! ## The frame -/

/-- The group address of the PAE. -/
def paeGroup : Nat := 0x0180C2000003

/-- What the ICV of an MKPDU covers: addresses, EtherType, the EAPOL header and the parameter sets. -/
def icvInput (dst src : Nat) (bs : List Nat) : List Nat := addrBytes dst src ++ [0x88, 0x8E] ++ bs

/-- An EAPOL-MKA frame from a MAC address. -/
def mkpduFrame (ick : List Nat) (src : Nat) (m : Mkpdu) : FrameIn :=
  let sets := (mkaSets m).flatMap setBytes
  let bs := [3, 5] ++ beBytes 2 (sets.length + 16) ++ sets
  { id := m.mn, dst := paeGroup, src, tags := [], etherType := 0x888E,
    payload := bs ++ wordBytes (cmac ick (icvInput paeGroup src bs)) }

/-- Bytes of an EAPOL frame from its header on. -/
def eapolLen (f : FrameIn) : Nat := 4 + beNat (bytesAt f.payload 2 2)

/-- The ICV of an MKPDU verifies. -/
def mkpduOk (ick : List Nat) (f : FrameIn) : Bool :=
  let n := eapolLen f - 16
  decide (20 ≤ eapolLen f ∧ eapolLen f ≤ f.payload.length ∧ f.etherType = 0x888E ∧ f.tags = []) &&
    decide ((f.payload.drop n).take 16 = wordBytes (cmac ick (icvInput f.dst f.src (f.payload.take n))))

/-- The members of a peer list. -/
def readPeers (bs : List Nat) : List (Nat × Nat) :=
  (List.range (bs.length / 16)).map fun i => (beNat (bytesAt bs (16 * i) 12), beNat (bytesAt bs (16 * i + 12) 4))

/-- A set of a type after the basic one. -/
def findSet (l : List MkaSet) (ty : Nat) : Option (List Nat × Nat) :=
  (l.find? fun v => decide (v.ty = ty)).map fun v => (v.body, v.b2)

/-- SAK use as read: the latest key and the old one. -/
def readUse (l : List MkaSet) : Option (UsedSak × UsedSak) :=
  match findSet l 3 with
  | none => none
  | some (b, o) =>
    if b.length ≠ 40 then none
    else
      let up := match findSet l 8 with
        | some (x, _) => (beNat (bytesAt x 0 4), beNat (bytesAt x 4 4))
        | none => (0, 0)
      some ({ an := o / 64 % 4, kn := beNat (bytesAt b 12 4), mi := beNat (bytesAt b 0 12), tx := decide (o / 32 % 2 = 1),
              rx := decide (o / 16 % 2 = 1), pn := up.1 * 2 ^ 32 + beNat (bytesAt b 16 4) },
            { an := o / 4 % 4, kn := beNat (bytesAt b 32 4), mi := beNat (bytesAt b 20 12), tx := decide (o / 2 % 2 = 1),
              rx := decide (o % 2 = 1), pn := up.2 * 2 ^ 32 + beNat (bytesAt b 36 4) })

/-- A distributed SAK as read. -/
def readSak (l : List MkaSet) : Option DistSak :=
  match findSet l 4 with
  | none => none
  | some (b, o) =>
    let d : DistSak :=
      { an := o / 64 % 4, offset := offsetOf (o / 16 % 4), kn := beNat (bytesAt b 0 4), suite := .gcm128, key := b.drop 4 }
    if b.length = 28 then some d
    else (suiteOf (beNat (bytesAt b 4 8))).map fun u => { d with suite := u, key := b.drop 12 }

/-- An EAPOL-MKA frame as its parameter sets say, its ICV taken off; none where it is malformed or names another
algorithm. -/
def readMkpdu (f : FrameIn) : Option Mkpdu :=
  let n := eapolLen f - 16
  if bytesAt f.payload 1 1 ≠ [5] then none
  else match readSets f.payload.length ((f.payload.take n).drop 4) with
    | [] => none
    | v :: l =>
      let b := v.body
      if b.length < 29 ∨ 60 < b.length ∨ beNat (bytesAt b 24 4) ≠ 0x0080C201 then none
      else some
        { priority := v.b2, server := decide (8 ≤ v.hi), sci := beNat (bytesAt b 0 8), mi := beNat (bytesAt b 8 12),
          mn := beNat (bytesAt b 20 4), ckn := b.drop 28,
          live := match findSet l 1 with | some p => readPeers p.1 | none => [],
          potential := match findSet l 2 with | some p => readPeers p.1 | none => [],
          latest := (readUse l).map Prod.fst, old := match readUse l with | some p => p.2 | none => {},
          sak := readSak l }

/-- The SAKs that an MKPDU reports as installed for receive: AN and key number. -/
def Mkpdu.installed (m : Mkpdu) : List (Nat × Nat) :=
  ((m.latest.toList ++ [m.old]).filter (·.rx)).map fun v => (v.an, v.kn)

end Sys2Proof.Machine
end

