-- ==== Sys2Proof/Machine/Mka.lean ====
section
/-! DEFINITION. MKA participants on connectivity associations (R330–R333, R338). -/

namespace Sys2Proof.Machine

open Sys2Proof

/-- A connectivity association. -/
def Image.ca (im : Image) (i : Nat) : Option Ca := tabGet none im.cas i

/-- The image with a connectivity association set. -/
def Image.setCa (im : Image) (i : Nat) (c : Option Ca) : Image := { im with cas := tabSet none im.cas i c }

/-- Key domain of a CA. -/
def Ca.domain (c : Ca) : Nat := hDomain c.args.handle

/-- Live peers of a participant. -/
def Ca.live (c : Ca) : List CaPeer := c.peers.filter (·.live)

/-- Live peers across all CAs (R330). DEDUCED: notes/assumptions/57.md. -/
def Image.livePeers (im : Image) : Nat :=
  (im.cas.map fun p => match p.2 with | some c => c.live.length | none => 0).sum

/-- One participant is preferred as key server: the lower priority value, then the lower SCI. -/
def preferred (p1 sci1 p2 sci2 : Nat) : Bool := decide (p1 < p2 ∨ (p1 = p2 ∧ sci1 < sci2))

/-- This module is the key server. -/
def Ca.server (c : Ca) : Bool :=
  c.live.all fun p => preferred c.args.priority (Config.portSci c.args.port) p.priority p.sci

/-- A peer is the key server. -/
def Ca.serves (c : Ca) (p : CaPeer) : Bool :=
  !preferred c.args.priority (Config.portSci c.args.port) p.priority p.sci &&
    c.live.all fun q => !preferred q.priority q.sci p.priority p.sci

/-- MKA Hello Time and Life Time in ns (R332). -/
def Image.helloNs (im : Image) : Nat := bits (im.reg 0 0xA00010) 4 0 * 100000000
def Image.lifeNs (im : Image) : Nat := 3 * im.helloNs

/-- The cipher suite that the module distributes: the first of the CA's list. DEDUCED: notes/assumptions/55.md. -/
def caSuite (a : CaArgs) : Suite := a.suites.headD .gcm128

/-- Settings of an SC that MKA makes (R330). DEDUCED: notes/assumptions/55.md. -/
def caSc (a : CaArgs) (dir : Dir) (sci : Nat) : ScArgs :=
  { dir, port := a.port, sci, suite := caSuite a, confOffset := a.confOffset, domain := hDomain a.handle, mka := true,
    express := a.express, autoAdvance := false, includeSci := a.group, useEs := false, useScb := false,
    clearTags := a.clearTags, replayProtect := decide (dir = .rx), replayWindow := 0 }

/-- Post MKA_SAK: CA; AN; installed 0, in use 1 or retired 2; key server 0 or not 1. -/
def State.postSak (s : State) (x : Half) (i : Nat) (c : Ca) (an what : Nat) (server : Bool) : State :=
  s.post x .cores 0x040A [(2, i), (1, an), (1, what), (1, b2n (!server))] (.dom c.domain)

/-- Post MKA_PEER: CA; peer member identifier; live 0 or lost 1. -/
def State.postPeer (s : State) (x : Half) (i : Nat) (c : Ca) (mi lost : Nat) : State :=
  s.post x .cores 0x0409 [(2, i), (12, mi), (1, lost)] (.dom c.domain)

/-- SSCI of a participant under an XPN suite: 1 for the highest SCI. DEDUCED: notes/assumptions/55.md. -/
def Ca.ssci (c : Ca) (u : Suite) (sci : Nat) : Nat :=
  if suiteXpn u then
    1 + ((Config.portSci c.args.port :: c.live.map (·.sci)).filter fun v => decide (sci < v)).length
  else 0

/-- No SA can be installed: no SAK index or quota is left, or no room for a pinned or parked SA (R195, R190). -/
def Image.noSa (im : Image) (c : Ca) (d : Dir) : Bool :=
  im.noSak c.domain || (c.args.express && decide (15360 ≤ im.saPinned d)) ||
    (!c.args.express && decide (16384 ≤ im.saResident d) && decide (1048576 ≤ im.saParked))

/-- Install an SA of a SAK for one SC of a CA, in place of what its AN held. -/
def State.mkaInstall (s : State) (x : Half) (c : Ca) (d : Dir) (sc sci : Nat) (k : CaSak) : State :=
  let s := s.retireSa x d sc k.an
  if (s.img x).noSa c d then s
  else
    let u := (s.img x).scSuite d sc
    let (hd, s) := s.makeSak x c.args.handle (if k.server then 1 else 3) (suite256 u) (suiteXpn u) true k.key
      (leNat (beBytes 12 (xpnSalt k.mi k.kn)))
    s.installSa x { dir := d, sc, an := k.an, handle := hd, pn := 1, ssci := c.ssci u sci, pin := false }

/-- The SAs of a CA's SCs, transmit and receive, are retired. -/
def State.retireSas (s : State) (x : Half) (c : Ca) : State :=
  [0, 1, 2, 3].foldl (fun s an => (c.rx.foldl (fun s p => s.retireSa x .rx p.2 an) s).retireSa x .tx c.tx an) s

/-- An SC takes a cipher suite and a confidentiality offset. -/
def Image.scOptions (im : Image) (d : Dir) (i : Nat) (u : Suite) (off : Nat) : Image :=
  let c := im.sc d i
  im.setSc d i { c with args := c.args.map fun a => { a with suite := u, confOffset := off } }

/-- The SCs of a CA take the cipher suite and the offset of its SAK; SAs of another suite go. DEDUCED:
notes/assumptions/55.md. -/
def State.caOptions (s : State) (x : Half) (c : Ca) (u : Suite) (off : Nat) : State :=
  if ((s.img x).sc .tx c.tx).args.all fun a => decide (a.suite = u ∧ a.confOffset = off) then s
  else (s.retireSas x c).modImg x fun im =>
    (c.rx.foldl (fun im p => im.scOptions .rx p.2 u off) im).scOptions .tx c.tx u off

/-- A SAK is installed for the transmit SC and for every receive SC of a CA. -/
def State.setSak (s : State) (x : Half) (i : Nat) (c : Ca) (k : CaSak) (u : Suite) (off : Nat) : State :=
  let s := s.caOptions x c u off
  let s := c.rx.foldl (fun s p => s.mkaInstall x c .rx p.2 p.1 k) s
  let s := s.mkaInstall x c .tx c.tx (Config.portSci c.args.port) k
  let s := s.modImg x fun im =>
    { im.setCa i (some { c with sak := some k, old := c.sak, kn := if k.server then k.kn else c.kn }) with
      wantSak := im.wantSak.filter (· ≠ c.tx) }
  s.postSak x i c k.an 0 k.server

/-- The bytes of a CA's CAK. -/
def Image.cakBytes (im : Image) (c : Ca) : List Nat :=
  let e := im.key c.args.handle
  leBytes (if e.len256 then 32 else 16) e.key

/-- A SAK as the participant's MKPDUs name it: transmit it while it is in use, receive it while its SAs stand. PRESUMED:
notes/assumptions/123.md. -/
def Image.usedSak (im : Image) (c : Ca) (k : CaSak) : UsedSak :=
  { an := k.an, kn := k.kn, mi := k.mi, tx := k.inUse && decide ((im.sc .tx c.tx).cur = some k.an),
    rx := c.rx.any fun p => (im.sa .rx p.2 k.an).inst, pn := (im.sa .tx c.tx k.an).pn }

/-- What a participant's next MKPDU says; the key server's carries the SAK it distributes, wrapped under the KEK, until it is
in use (R332). -/
def Image.mkpduOf (im : Image) (c : Ca) : Mkpdu :=
  { priority := c.args.priority, server := c.server, sci := Config.portSci c.args.port, mi := c.mi, mn := c.mn + 1,
    ckn := c.ckn, live := c.live.map fun p => (p.mi, p.mn),
    potential := (c.peers.filter fun p => !p.live).map fun p => (p.mi, p.mn),
    latest := c.sak.map (im.usedSak c), old := match c.old with | some k => im.usedSak c k | none => {},
    sak := match c.sak, (im.sc .tx c.tx).args with
      | some k, some a =>
        if k.server && !k.inUse then
          some { an := k.an, offset := a.confOffset, kn := k.kn, suite := a.suite,
                 key := keyWrap (mkaKek (im.cakBytes c) c.ckn) (sakBytes a.suite k.key) }
        else none
      | _, _ => none }

/-- An MKPDU enters the queue of the CA's port (R241), from the port's own address. -/
def State.sendMkpdu (s : State) (x : Half) (i : Nat) : State :=
  match (s.img x).ca i with
  | none => s
  | some c =>
    let im := s.img x
    let f := mkpduFrame (mkaIck (im.cakBytes c) c.ckn) (Config.portSci c.args.port / 2 ^ 16) (im.mkpduOf c)
    (s.modImg x fun im => im.setCa i (some { c with mn := c.mn + 1, at_ := s.now })).originate x (32 + c.args.port) 0 f

/-- The CAK of a CA serves MKA; it takes new SAKs (R283, R289). -/
def Image.cakServes (im : Image) (c : Ca) : Bool :=
  decide ((im.key c.args.handle).st = 1 ∨ (im.key c.args.handle).st = 2)
def Image.cakLive (im : Image) (c : Ca) : Bool := decide ((im.key c.args.handle).st = 1)

/-- As key server with a live peer, draw a SAK and distribute it (R332). DEDUCED: notes/assumptions/55.md. -/
def State.newSak (s : State) (x : Half) (i : Nat) : State :=
  match (s.img x).ca i with
  | none => s
  | some c =>
    if c.live.isEmpty || !c.server || !(s.img x).cakLive c then s
    else
      let (key, s) := s.draw
      let u := caSuite c.args
      let k : CaSak := { an := match c.sak with | some k => (k.an + 1) % 4 | none => 0,
                         key := key % (if suite256 u then 2 ^ 256 else 2 ^ 128), kn := c.kn + 1, mi := c.mi, server := true,
                         at_ := s.now, inUse := false }
      (s.setSak x i c k u c.args.confOffset).sendMkpdu x i

/-- The transmit SC of a CA has moved to the latest SAK: the SAs that it used before are retired (R338). -/
def State.mkaMoved (s : State) (x : Half) (i : Nat) (c : Ca) (k : CaSak) : State :=
  let s := (s.modImg x fun im => im.setCa i (some { c with sak := some { k with inUse := true } })).postSak x i c
    k.an 1 k.server
  ([0, 1, 2, 3].filter fun an => decide (an ≠ k.an) && ((s.img x).sa .tx c.tx an).inst).foldl
    (fun s an => (s.retireSa x .tx c.tx an).postSak x i c an 2 k.server) s

/-- The transmit SC moves to the new SA, at once or after a load (R199, R338). DEDUCED: notes/assumptions/57.md. -/
def State.mkaMove (s : State) (x : Half) (i : Nat) : State :=
  match (s.img x).ca i with
  | some c =>
    match c.sak with
    | some k =>
      if k.inUse || !((s.img x).sa .tx c.tx k.an).inst then s
      else
        let s := s.activate x c.tx k.an
        if ((s.img x).sc .tx c.tx).cur = some k.an then s.mkaMoved x i c k else s
    | none => s
  | none => s

/-- MKA's part of a change of AN that waited for a load. -/
def State.mkaLoaded (s : State) (x : Half) (sc an : Nat) : State :=
  (s.img x).cas.foldl (fun s p =>
    match p.2 with
    | some c => match c.sak with
      | some k => if c.tx = sc ∧ k.an = an ∧ !k.inUse then s.mkaMoved x p.1 c k else s
      | none => s
    | none => s) s

/-- Retire a receive AN of a CA on every receive SC. -/
def State.retireRx (s : State) (x : Half) (i : Nat) (c : Ca) (an : Nat) : State :=
  if c.rx.any fun p => ((s.img x).sa .rx p.2 an).inst then
    (c.rx.foldl (fun s p => s.retireSa x .rx p.2 an) s).postSak x i c an 2 (c.sak.any (·.server))
  else s

/-- What follows a peer's report: the move of R338, and the end of old receive SAs that no live peer lists. -/
def State.mkaSettle (s : State) (x : Half) (i : Nat) : State :=
  match (s.img x).ca i with
  | some c =>
    match c.sak with
    | some k =>
      let all := !c.live.isEmpty && c.live.all fun p => p.rx.contains (k.an, k.kn)
      let s := if all then s.mkaMove x i else s
      if all || k.inUse then
        ([0, 1, 2, 3].filter fun an => decide (an ≠ k.an) && !(c.live.any fun p => p.rx.any fun v => decide (v.1 = an))).foldl
          (fun s an => s.retireRx x i c an) s
      else s
    | none => s
  | none => s

/-- The receive SC of a peer's SCI; a new one where none is, if the table has room, with the options of the transmit SC and
its pairing entry (R221, R330). -/
def State.peerSc (s : State) (x : Half) (i : Nat) (c : Ca) (sci : Nat) : State :=
  if c.rx.any fun p => decide (p.1 = sci) then s
  else
    let (n, s) := s.draw
    match pickFree (fun k => ((s.img x).sc .rx k).args.isSome) (scCount .rx) n with
    | some k => s.modImg x fun im =>
        let im := (im.createSc k (caSc c.args .rx sci)).setCa i (some { c with rx := c.rx ++ [(sci, k)] })
        let im := match (im.sc .tx c.tx).args with
          | some a => im.scOptions .rx k a.suite a.confOffset
          | none => im
        { im with pairTab := tabSet 0 im.pairTab k (pairEntry c.tx) }
    | none => s

/-- The participant's peer lists name this one with a number that it has used. -/
def Mkpdu.lists (m : Mkpdu) (c : Ca) : Bool :=
  (m.live ++ m.potential).any fun p => decide (p.1 = c.mi ∧ 0 < p.2 ∧ p.2 ≤ c.mn)

/-- A distributed SAK, unwrapped under the KEK: none where it does not open to a key of its suite. -/
def Image.openSak (im : Image) (c : Ca) (d : DistSak) : Option Nat :=
  match keyUnwrap (mkaKek (im.cakBytes c) c.ckn) d.key with
  | some k => if k.length = (if suite256 d.suite then 32 else 16) then some (leNat k) else none
  | none => none

/-- The SAK that an MKPDU of the key server distributes, if the module takes it (R332): of a suite of the CA's list, under a
LIVE CAK, and not the one it has. -/
def Image.takeSak (im : Image) (c : Ca) (p : CaPeer) (m : Mkpdu) (now : Nat) : Option (CaSak × Suite × Nat) :=
  match m.sak with
  | none => none
  | some d =>
    if !p.live || c.server || !c.serves p || !m.server || !im.cakLive c || !c.args.suites.contains d.suite ||
        c.sak.any fun k => decide (k.kn = d.kn ∧ k.mi = m.mi) then none
    else (im.openSak c d).map fun key =>
      ({ an := d.an, key, kn := d.kn, mi := m.mi, server := false, at_ := now, inUse := false }, d.suite, d.offset)

/-- An MKPDU at the participant of a CA. -/
def State.mkpduIn (s : State) (x : Half) (ca : Nat) (c : Ca) (m : Mkpdu) : State :=
  let old := c.peers.find? fun p => decide (p.mi = m.mi)
  let fresh := match old with | some p => decide (p.mn < m.mn) | none => true
  if decide (m.ckn ≠ c.ckn) || decide (m.mi = c.mi) || !fresh || !(s.img x).cakServes c then s
  else
    let was := old.any (·.live)
    let live := was || (m.lists c && decide ((s.img x).livePeers < 1024))
    let p : CaPeer := { mi := m.mi, mn := m.mn, priority := m.priority, sci := m.sci, live, rx := m.installed,
                        at_ := s.now }
    let c := { c with peers := (c.peers.filter fun q => decide (q.mi ≠ m.mi)) ++ [p],
                      regen := if live then none else c.regen }
    let s := s.modImg x fun im => im.setCa ca (some c)
    let s := if live && !was then ((s.peerSc x ca c m.sci).postPeer x ca c m.mi 0).newSak x ca else s
    let s := match (s.img x).ca ca with
      | some c => match (s.img x).takeSak c p m s.now with
        | some v => s.setSak x ca c v.1 v.2.1 v.2.2
        | none => s
      | none => s
    s.mkaSettle x ca

/-- MKPDU_RX (R332, R338): an EAPOL-MKA frame whose ICV verifies under the ICK. -/
def execMkpduRx (ca : Nat) (f : FrameIn) (s : State) : Host.Outcome State Fault Refusal :=
  onUnit (decide (ca < 1024)) <| s.withHolder fun x =>
    match (s.img x).ca ca, readMkpdu f with
    | some c, some m =>
      if mkpduOk (mkaIck ((s.img x).cakBytes c) c.ckn) f then s.mkpduIn x ca c m else s
    | _, _ => s

/-- MKA_HELLO (R332): every MKA Hello Time; the key server renews a SAK whose transmit SC has reached its threshold
(R182). -/
def execMkaHello (ca : Nat) (s : State) : Host.Outcome State Fault Refusal :=
  onUnit (decide (ca < 1024)) <| s.withHolder fun x =>
    match (s.img x).ca ca with
    | none => s
    | some c =>
      if !(s.img x).cakServes c || decide (s.now < c.at_ + (s.img x).helloNs) then s
      else if (s.img x).wantSak.contains c.tx && c.server && !c.live.isEmpty then s.newSak x ca
      else s.sendMkpdu x ca

/-- A live peer is lost: its receive SC goes with its SAs unless they are kept (R313); a group's key server distributes
a new SAK (R337). DEDUCED: notes/assumptions/57.md. -/
def State.losePeer (s : State) (x : Half) (i mi : Nat) (keep : Bool) : State :=
  match (s.img x).ca i with
  | none => s
  | some c =>
    match c.peers.find? fun p => decide (p.mi = mi) with
    | none => s
    | some p =>
      let s := s.postPeer x i c mi 1
      let s := if keep then s
        else (c.rx.filter fun q => decide (q.1 = p.sci)).foldl (fun s q => s.deleteSc x .rx q.2) s
      let s := s.modImg x fun im => im.setCa i (some { c with
        peers := c.peers.filter fun q => decide (q.mi ≠ mi),
        rx := if keep then c.rx else c.rx.filter fun q => decide (q.1 ≠ p.sci) })
      if c.args.group then s.newSak x i else s

/-- Retire every SA of a CA. -/
def State.retireAll (s : State) (x : Half) (i : Nat) (c : Ca) : State :=
  let ans := [0, 1, 2, 3]
  let s := ans.foldl (fun s an => s.retireRx x i c an) s
  let s := ans.foldl (fun s an => s.retireSa x .tx c.tx an) s
  s.modImg x fun im => im.setCa i (some { c with sak := none, old := none, regen := none })

/-- A MOORED peer has been heard on a line port. -/
def Image.mooredOn (im : Image) (port : Nat) : Bool :=
  im.peers.any fun p => match p.2 with
    | some v => v.moored.isSome && v.assoc.contains (64 + port)
    | none => false

/-- The old receive SA of a CA has lived one MKA Life Time since a frame verified under its successor (R338). -/
def Image.oldRxDone (im : Image) (c : Ca) (now : Nat) : Bool :=
  match c.sak with
  | some k => c.rx.any fun p =>
      let v := im.sa .rx p.2 k.an
      v.usePosted && decide (v.usedAt + im.lifeNs ≤ now)
  | none => false

/-- MKA_LIFE_EXPIRE (R332, R333, R338). -/
def execMkaLifeExpire (ca : Nat) (what : MkaLife) (s : State) : Host.Outcome State Fault Refusal :=
  onUnit (decide (ca < 1024)) <| s.withHolder fun x =>
    let life := (s.img x).lifeNs
    match (s.img x).ca ca with
    | none => s
    | some c => match what with
      | .peer mi =>
        if c.peers.any fun p => p.live && decide (p.mi = mi ∧ p.at_ + life ≤ s.now) then
          s.losePeer x ca mi (decide (c.live.length = 1) && (s.img x).mooredOn c.args.port)
        else s
      | .sak =>
        if c.sak.any fun k => !k.inUse && decide (k.at_ + life ≤ s.now) then s.mkaMove x ca else s
      | .oldRx an =>
        if (s.img x).oldRxDone c s.now && decide (an < 4) && !(c.sak.any fun k => decide (k.an = an)) then
          s.retireRx x ca c an
        else s
      | .regen =>
        if (c.regen.any fun t => decide (t + life ≤ s.now)) && c.live.isEmpty then s.retireAll x ca c else s

/-- A replaced CAK restarts the participant of each of its CAs with a new member identifier (R333). -/
def State.cakReplaced (s : State) (x : Half) (handle : Nat) : State :=
  (s.img x).cas.foldl (fun s p =>
    match p.2 with
    | some c =>
      if c.args.handle = handle then
        let (mi, s) := s.draw
        s.modImg x fun im => im.setCa p.1 (some { c with mi := mi % 2 ^ 96, mn := 0, peers := [], regen := some s.now })
      else s
    | none => s) s

/-! ## Commands (Table 10.12) -/

/-- The CKN is given as R331 wants it. -/
def cknOk (origin : Nat) (ckn : List Nat) : Bool :=
  if origin = 2 then ckn.isEmpty else decide (1 ≤ ckn.length ∧ ckn.length ≤ 32) && ckn.all (· < 256)

/-- The fields of CA_BIND are in range. DEDUCED: notes/assumptions/55.md. -/
def Image.caArgsOk (im : Image) (a : CaArgs) : Bool :=
  im.pktLine a.port && decide (hLanding a.handle = 4 ∧ a.priority < 256 ∧ a.clearTags ≤ 2) && !a.suites.isEmpty &&
    [0, 30, 50].contains a.confOffset

/-- The failures of CA_BIND that the key shows. -/
def Image.caFails (im : Image) (a : CaArgs) : List (Bool × Nat) :=
  let e := im.key a.handle
  im.keyFails a.handle ++
    [(decide (e.st = 1) && (decide (e.kind ≠ 4) || !cknOk e.origin a.ckn), stArgs),
     (decide (scCount .tx ≤ im.scTx.length) || (!e.pinned && decide (2048 ≤ im.pinned4)), stNoRes)]

/-- The participant starts: its CAK is pinned, its transmit SC made. -/
def State.caStart (s : State) (x : Half) (c : Cmd) (i : Nat) (a : CaArgs) : State :=
  match lowest ((((s.img x).ca i).isSome, stArgs) :: (s.img x).caFails a) with
  | some st => s.postCpl x c st 0 []
  | none =>
    let e := (s.img x).key a.handle
    let (mi, s) := s.draw
    let (n, s) := s.draw
    match pickFree (fun k => ((s.img x).sc .tx k).args.isSome) (scCount .tx) n with
    | none => s.postCpl x c stNoRes 0 []
    | some k =>
      let ca : Ca := { args := a, mi := mi % 2 ^ 96, mn := 0, peers := [], tx := k, rx := [], sak := none, at_ := s.now,
                       regen := none, ckn := if e.origin = 2 then e.ckn else a.ckn }
      let s := s.modImg x fun im =>
        (((im.makeKeyResident a.handle s.now).pinKey a.handle true).createSc k
          (caSc a .tx (Config.portSci a.port))).setCa i (some ca)
      (s.sendMkpdu x i).postCpl x c stDone 0 []

/-- CA_BIND (R330, R331). DEDUCED: notes/assumptions/56.md. -/
def execCaBind (h : Hdr) (index : Nat) (a : CaArgs) (s : State) : Host.Outcome State Fault Refusal :=
  .next <| s.command h 0x0421
    (fun x => s.flash.charter.isNone || decide (1024 ≤ index) || !(s.img x).caArgsOk a ||
      !serves h.fn (hDomain a.handle) || ((s.img x).ca index).isSome)
    (fun x => (s.img x).caFails a)
    (fun x s =>
      let c := cmdOf h 0x0421
      if ((s.img x).key a.handle).resident then s.caStart x c index a
      else s.loadFor x a.handle { cmd := c, on := .load a.handle, status := stDone, cflags := 0, result := [],
                                  area := none, cont := .ca index a })

/-- CA_UNBIND (R330). DEDUCED: notes/assumptions/56.md. -/
def execCaUnbind (h : Hdr) (index : Nat) (s : State) : Host.Outcome State Fault Refusal :=
  .next <| s.command h 0x0422
    (fun x => s.flash.charter.isNone || decide (1024 ≤ index) ||
      (match (s.img x).ca index with | some c => !serves h.fn c.domain | none => false))
    (fun _ => [])
    (fun x s =>
      match (s.img x).ca index with
      | none => s.done x h 0x0422
      | some c =>
        let s := (c.rx.foldl (fun s p => s.deleteSc x .rx p.2) s).deleteSc x .tx c.tx
        let s := s.modImg x fun im => im.setCa index none
        let shared := (s.img x).cas.any fun p => match p.2 with
          | some v => decide (v.args.handle = c.args.handle)
          | none => false
        let s := if shared then s else s.modImg x fun im => im.pinKey c.args.handle false
        s.done x h 0x0422)

end Sys2Proof.Machine
end

