-- ==== Sys2Proof/Machine/Zka.lean ====
section
/-! DEFINITION. The Zaent Key Agreement (R317–R329): pairings, the messages of Table 10.9, charters, and the
installation of the agreed key. -/

namespace Sys2Proof.Machine

open Sys2Proof

/-! ## Membership and charters -/

/-- The module's membership domain; none while it is not enrolled. -/
def State.mdomain (s : State) : Option Nat := s.flash.charter.map (·.mdomain)

/-- The conditions of R359 on a charter's fields, with its issue count not below the highest accepted. -/
def State.charterFields (s : State) (x : Half) (c : Charter) : Bool :=
  (s.flash.anchor.any fun a => c.fieldsOk a) && decide (tabGet 0 (s.img x).charterSeq c.member ≤ c.seq)

/-- A charter that the module accepts (R359). -/
def State.charterOk (s : State) (x : Half) (c : Charter) : Bool :=
  s.charterFields x c && s.flash.anchor.any fun a => c.sigOk a

/-- A verified charter enters the cache, and its CHARTER_SEQ is remembered. -/
def Image.keepCharter (im : Image) (c : Charter) : Image :=
  { im with charters := (c :: im.charters.filter fun v => decide (v.digest ≠ c.digest)).take 64,
            charterSeq := tabSet 0 im.charterSeq c.member (max c.seq (tabGet 0 im.charterSeq c.member)) }

/-- The cached charter of a digest. -/
def Image.cached (im : Image) (digest : Nat) : Option Charter := im.charters.find? fun c => decide (c.digest = digest)

/-- A charter is the peer's (R305). -/
def State.peerCharter (s : State) (member : Nat) (c : Charter) : Bool :=
  decide (c.member = member ∧ c.member ≠ s.member) && decide (some c.mdomain = s.mdomain)

/-! ## Purposes -/

def purposeCode : Purpose → Nat
  | .cak128 => 1
  | .cak256 => 2
  | .cwyAssoc => 3
def purposeKind : Purpose → Nat
  | .cak128 | .cak256 => 4
  | .cwyAssoc => 5
def purpose256 : Purpose → Bool
  | .cak128 => false
  | _ => true
/-- The purpose of a PURPOSE code. -/
def purposeOf (n : Nat) : Option Purpose :=
  if n = 1 then some .cak128 else if n = 2 then some .cak256 else if n = 3 then some .cwyAssoc else none

/-- The carrier instance on which the module offers: the tributary or the line port of the pairing. -/
def pairingCarrier (p : Pairing) : Carrier :=
  match p.purpose with
  | .cwyAssoc => .trib p.object
  | _ => .port p.object

/-- OBJECT of an offer. -/
def offerObject (p : Pairing) : Nat := match p.purpose with | .cwyAssoc => p.object | _ => 0

/-! ## Starting an exchange -/

/-- Why ZKA cannot start on a pairing. DEDUCED: notes/assumptions/58.md. -/
def State.zkaFails (s : State) (x : Half) (p : Pairing) : List (Bool × Nat) :=
  let im := s.img x
  [(decide (64 ≤ im.openSessions.length), stNoRes),
   (decide (p.target ≠ 0) && decide ((im.key p.target).st = 0), stKeyInvalid), (s.hssSpent x, stExhausted),
   (decide (p.target ≠ 0) && (im.gangway p.target).isSome, stLocked),
   (decide ((im.key (mkHandle 3 p.domain 0)).st ≠ 1), stOrphaned)]

/-- The peer is in the peer table and PRESENT. -/
def Image.present (im : Image) (member : Nat) : Bool :=
  match tabGet none im.peers member with
  | some p => p.moored.isNone
  | none => false

/-- An ephemeral P-384 key pair: the scalar and its public point. -/
def ephemeral (c : Nat) : Nat × List Nat :=
  let k := c % (p384.n - 1) + 1
  (k, pointBytes p384 (pointMul p384 k (basePoint p384)))

/-- The body of an OFFER (Table 10.5). -/
def State.offerBody (s : State) (p : Pairing) (nonce : Nat) (q ek : List Nat) : List Nat :=
  [purposeCode p.purpose, offerObject p, 0, 0] ++ beBytes 4 p.tag ++ fldBytes (16, s.mdomain.getD 0) ++
    beBytes 2 s.member ++ beBytes 2 p.member ++ fldBytes (48, s.charterDigest) ++ leBytes 32 nonce ++ q ++ [0, 0, 0] ++ ek

/-- Open a session as initiator: SESSION, nonce and ephemeral keys are drawn and OFFER leaves. -/
def State.zkaOpen (s : State) (x : Half) (i : Nat) (p : Pairing) : Nat × State :=
  let (n, s) := s.draw
  let (nonce, s) := s.draw
  let (c, s) := s.draw
  let (seed, s) := s.draw
  let session := 1 + n % (2 ^ 32 - 1)
  let e := ephemeral c
  let k := mlkemKeys seed
  let body := s.offerBody p nonce e.2 k.1
  let z : Zka := { session, initiator := true, pairing := i, peer := p.member, carrier := pairingCarrier p,
                   st := .offered, since := s.now, at_ := s.now, sends := 0, want := none, offer := body,
                   scalar := e.1, dk := k.2 }
  (session, (s.modImg x fun im => { im with sessions := im.sessions ++ [z] }).sendPeer x z.carrier 0x30 session body)

/-- Start ZKA on a pairing of the module's own accord, if it can. -/
def State.zkaTry (s : State) (x : Half) (i : Nat) : Bool × State :=
  match (s.img x).pairing i with
  | some p =>
    if s.flash.charter.isSome && (s.img x).present p.member && (lowest (s.zkaFails x p)).isNone then
      (true, (s.zkaOpen x i p).2)
    else (false, s)
  | none => (false, s)

/-- R319 asks for an exchange on a pairing. -/
def State.autoWanted (s : State) (x : Half) (p : Pairing) : Bool :=
  p.auto && decide (s.member < p.member) && (decide (p.target = 0) || decide (((s.img x).key p.target).st ≠ 1))

/-- The module starts ZKA on the AUTO pairings of a peer that arrives (R319). -/
def State.autoStart (s : State) (x : Half) (member : Nat) : State :=
  (s.img x).pairings.foldl (fun s q =>
    match q.2 with
    | some p => if decide (p.member = member) && s.autoWanted x p then (s.zkaTry x q.1).2 else s
    | none => s) s

/-! ## Transcript and key schedule (R320, Table 10.8) -/

/-- ANSWER without its signature. -/
def answerU (body : List Nat) : List Nat := body.take 1756
/-- TH_A. -/
def thA (session : Nat) (offer answer : List Nat) : List Nat :=
  sha3 384 (ascii "FNZ-ZKA-1" ++ beBytes 4 session ++ beBytes 4 offer.length ++ offer ++
    beBytes 4 (answerU answer).length ++ answerU answer)
/-- What SIG_R and SIG_I sign. -/
def sigMsgR (tha : List Nat) : List Nat := ascii "FNZ-ZKA-R" ++ tha
def sigMsgI (ths : List Nat) : List Nat := ascii "FNZ-ZKA-I" ++ ths
/-- TH_S. -/
def thS (tha sig : List Nat) : List Nat := sha3 384 (tha ++ beBytes 4 sig.length ++ sig)
/-- OKM. -/
def okmOf (sse ssk ths : List Nat) : List Nat := kmac (sse ++ ssk) ths 512 "FNZ-ZKA-KDF"
/-- AK as a key, and KC. -/
def akOf (p : Purpose) (okm : List Nat) : Nat := leNat (okm.take (if purpose256 p then 32 else 16))
def kcOf (okm : List Nat) : List Nat := okm.drop 32
/-- MAC_I and MAC_R. -/
def macIOf (kc ths sigI : List Nat) : List Nat := kmac kc (ascii "I" ++ ths ++ sha3 384 sigI) 256 "FNZ-ZKA-MAC"
def macROf (kc ths macI : List Nat) : List Nat := kmac kc (ascii "R" ++ ths ++ macI) 256 "FNZ-ZKA-MAC"

/-! ## Bodies -/

/-- An OFFER as received (Table 10.5). -/
def ofInitId (b : List Nat) : Nat := beNat (bytesAt b 24 2)
def ofRespId (b : List Nat) : Nat := beNat (bytesAt b 26 2)
def ofTag (b : List Nat) : Nat := beNat (bytesAt b 4 4)
def ofMdomain (b : List Nat) : Nat := leNat (bytesAt b 8 16)
def ofCharter (b : List Nat) : Nat := leNat (bytesAt b 28 48)
def ofPoint (b : List Nat) : List Nat := bytesAt b 108 97
def ofEk (b : List Nat) : List Nat := bytesAt b 208 1568
/-- The length and the codes of an OFFER. -/
def offerOk (b : List Nat) : Bool := decide (b.length = 1776) && (purposeOf (b.getD 0 0)).isSome

/-- An ANSWER as received (Table 10.6). -/
def anTag (b : List Nat) : Nat := beNat (bytesAt b 0 4)
def anRespId (b : List Nat) : Nat := beNat (bytesAt b 4 2)
def anCharter (b : List Nat) : Nat := leNat (bytesAt b 8 48)
def anPoint (b : List Nat) : List Nat := bytesAt b 88 97
def anCt (b : List Nat) : List Nat := bytesAt b 188 1568
def anSig (b : List Nat) : List Nat := b.drop 1758
/-- The length of an ANSWER is that of its signature. -/
def answerOk (b : List Nat) : Bool := decide (b.length = 1758 + beNat (bytesAt b 1756 2))

/-- A FINISH as received (Table 10.7). -/
def fiMac (b : List Nat) : List Nat := bytesAt b 0 32
def fiSig (b : List Nat) : List Nat := b.drop 34
def finishOk (b : List Nat) : Bool := decide (b.length = 34 + beNat (bytesAt b 32 2))

/-- A signature with its length before it. -/
def withLen (sig : List Nat) : List Nat := beBytes 2 sig.length ++ sig

/-! ## Installing the key (R325) -/

/-- The CKN of an AGREED CAK (R331). -/
def agreedCkn (own peer tag : Nat) : List Nat :=
  [0x46, 0x4E, 0x5A, 0x01] ++ beBytes 2 (min own peer) ++ beBytes 2 (max own peer) ++ beBytes 4 tag ++ [0, 0, 0, 0]

/-- Create the agreed key (R561): the record on its way and the handle, none when the key step fails. DESIGN CHOICE:
notes/assumptions/59.md. -/
def State.zkaCreate (s : State) (x : Half) (p : Pairing) (ak : Nat) : Option (Nat × Nat) × State :=
  let (c, s) := s.draw
  let (dma, s) := s.draw
  match pickFree ((s.img x).used4 p.domain) 4096 c with
  | none => (none, s)
  | some i =>
    let hd := mkHandle 4 p.domain i
    let root := mkHandle 3 p.domain 0
    if ((s.img x).key root).st ≠ 1 then (none, s)
    else
      let (serial, s) := s.nextSerial x
      if ((s.img x).entryAddr hd).isNone || decide (dma % 2 = 1) then (none, s.postLoadFail x hd 7)
      else
        let e := { s.childOf x root serial (purposeKind p.purpose) 2 (purpose256 p.purpose) false ak 0 with
                   ckn := agreedCkn s.member p.member p.tag }
        let s := (s.writeBlob x hd e).modImg x fun im => im.setKey hd e
        let r := s.record x (.key hd e)
        (some (r.1, hd), r.2)

/-- Commit the agreed key through the gangway of the target (R285). -/
def State.zkaReplace (s : State) (x : Half) (p : Pairing) (ak : Nat) : Option (Nat × Nat) × State :=
  let im := s.img x
  let e := im.key p.target
  let (dma, s) := s.draw
  if e.st ≠ 1 ∨ e.origin ≠ 2 ∨ e.kind ≠ purposeKind p.purpose ∨ e.len256 ≠ purpose256 p.purpose ∨
      (im.gangway p.target).isSome ∨ 64 ≤ im.gangways.length then (none, s)
  else if (im.entryAddr p.target).isNone || decide (dma % 2 = 1) then (none, s.postLoadFail x p.target 7)
  else match (s.openGangway x p.target ak).commitGangway x p.target with
    | .ok (id, s) => (some (id, p.target), s)
    | .error _ => (none, s)

/-- Install AK for a session; the session then waits for the record.  A failed key step ends it with cause KEY.
DEDUCED: notes/assumptions/58.md. DESIGN CHOICE: notes/assumptions/59.md. -/
def State.zkaInstall (s : State) (x : Half) (z : Zka) : State :=
  match (s.img x).pairing z.pairing with
  | none => s.zkaFail x z 12 (!z.initiator) false 0
  | some p =>
    match if p.target = 0 then s.zkaCreate x p z.ak else s.zkaReplace x p z.ak with
    | (some (id, hd), s) => s.modImg x fun im => im.putSession { z with st := .installing, rec_ := some id, handle := hd }
    | (none, s) => s.zkaFail x z 12 (!z.initiator) false 0

/-- The record of an installation is durable: the pairing keeps a new handle, the responder sends DONE.  Post ZKA_DONE:
SESSION; pairing; initiator 0 or responder 1; handle; generation; KCV. -/
def State.zkaDurable (s : State) (x : Half) (id : Nat) : State :=
  match (s.img x).sessions.find? fun z => decide (z.st = .installing ∧ z.rec_ = some id) with
  | none => s
  | some z =>
    let e := (s.img x).key z.handle
    let s := s.modImg x fun im =>
      match im.pairing z.pairing with
      | some p =>
        let p' : Option Pairing := some { p with target := z.handle }
        if p.target = 0 then { im with pairings := tabSet none im.pairings z.pairing p' } else im
      | none => im
    let s :=
      if z.initiator then s.modImg x fun im => im.dropSession z
      else
        let r : ZkaRec := { session := z.session, macI := z.macI, macR := z.macR, at_ := s.now }
        let recent := s.flash.zkaRecs.filter fun v => decide (s.now < v.at_ + 30000000000)
        let fl : Flash := { s.flash with zkaRecs := recent ++ [r] }
        (({ s with flash := fl }).modImg x fun im =>
            im.putSession { z with st := .closed, at_ := s.now, ak := 0, kc := [], scalar := 0, sse := [], ssk := [] }).sendPeer
          x z.carrier 0x33 z.session z.macR
    s.post x .cores 0x0407 [(4, z.session), (2, z.pairing), (1, b2n (!z.initiator)), (4, z.handle), (4, e.gen), (8, e.kcv)]
      (.dom ((s.img x).pairDomain z.pairing))

/-! ## Messages (Table 10.9) -/

/-- The first of some checks that fails. -/
def firstCause (l : List (Bool × Nat)) : Option Nat := (l.find? (·.1)).map (·.2)

/-- The session that a message on a carrier instance belongs to. -/
def Image.sessionOf (im : Image) (c : Carrier) (session : Nat) (initiator : Bool) : Option Zka :=
  im.sessions.find? fun z => decide (z.carrier = c ∧ z.session = session ∧ z.initiator = initiator)

/-- A pairing that matches an offer (R318). -/
def Image.matching (im : Image) (b : List Nat) : Option Nat :=
  (im.pairings.find? fun q => match q.2 with
    | some p => decide (purposeOf (b.getD 0 0) = some p.purpose ∧ p.tag = ofTag b ∧ p.member = ofInitId b) &&
        (decide (p.purpose ≠ .cwyAssoc) || decide (p.object = b.getD 1 0))
    | none => false).map (·.1)

/-- The body of an ANSWER without its signature (Table 10.6). -/
def State.answerBody (s : State) (tag nonce : Nat) (q ct : List Nat) : List Nat :=
  beBytes 4 tag ++ beBytes 2 s.member ++ [0, 0] ++ fldBytes (48, s.charterDigest) ++ leBytes 32 nonce ++ q ++ [0, 0, 0] ++ ct

/-- The responder's answer, once it holds the initiator's charter. DEDUCED: notes/assumptions/58.md. -/
def State.answerOffer (s : State) (x : Half) (z : Zka) (c : Charter) : State :=
  match firstCause [(!s.peerCharter z.peer c, 3),
      ((readPoint p384 (ofPoint z.offer)).isNone || !ekOk (ofEk z.offer), 5), (s.hssSpent x, 11)] with
  | some cause => s.zkaFail x z cause true false 0
  | none =>
    let (k, s) := s.draw
    let (nonce, s) := s.draw
    let (m, s) := s.draw
    let e := ephemeral k
    let enc := mlkemEncaps (ofEk z.offer) m
    let u := s.answerBody (ofTag z.offer) nonce e.2 enc.1
    let tha := thA z.session z.offer u
    let (i, s) := s.takeHss x
    let (sig, s) := s.signature x i (sigMsgR tha)
    (s.modImg x fun im => im.putSession { z with
      st := .answered, want := none, theirs := some c, sse := (ecdh p384 e.1 (ofPoint z.offer)).getD [], ssk := enc.2,
      ths := thS tha sig }).sendPeer x z.carrier 0x31 z.session (u ++ withLen sig)

/-- A collision of R329 on a pairing: the module abandons its own session for a lower member's offer. -/
def State.collide (s : State) (x : Half) (session i : Nat) : State :=
  ((s.img x).sessions.filter fun z => z.initiator && z.open && decide (z.pairing = i)).foldl
    (fun s z => s.zkaFail x z 9 true false session) s

/-- The cause that an OFFER is refused with: VERSION and length, MDOMAIN and RESP_ID, REPLAY, the pairing, a collision, too
many sessions, no HSS index. -/
def State.offerFails (s : State) (x : Half) (session : Nat) (b : List Nat) : Option Nat :=
  let im := s.img x
  let replay := im.offers.any fun v => decide (v.1 = ofInitId b ∧ v.2.1 = session ∧ s.now < v.2.2 + 60000000000)
  let mine := (im.matching b).any fun i => im.sessions.any fun z => z.initiator && z.open && decide (z.pairing = i)
  firstCause
    [(!offerOk b, 1), (decide (some (ofMdomain b) ≠ s.mdomain ∨ ofRespId b ≠ s.member), 2), (replay, 13),
     ((im.matching b).isNone || decide ((tabGet none im.peers (ofInitId b)).any (·.moored.isSome)), 2),
     (mine && decide (s.member < ofInitId b), 9), (decide (64 ≤ im.openSessions.length) && !mine, 8), (s.hssSpent x, 11)]

/-- An OFFER at the half that holds the helm (R322–R324, R326, R327, R329). -/
def State.takeOffer (s : State) (x : Half) (c : Carrier) (session : Nat) (b : List Nat) : State :=
  if s.flash.charter.isNone then s
  else
    let cause := s.offerFails x session b
    let recent := (s.img x).offers.filter fun v => decide (s.now < v.2.2 + 60000000000)
    let s := s.modImg x fun im => { im with offers := recent ++ [(ofInitId b, session, s.now)] }
    match cause with
    | some k => s.sendPeer x c 0x34 session [k, 0, 0, 0]
    | none =>
      let i := ((s.img x).matching b).getD 0
      let s := s.collide x session i
      let z : Zka := { session, initiator := false, pairing := i, peer := ofInitId b, carrier := c, st := .wantCharter,
                       since := s.now, at_ := s.now, sends := 0, want := some (ofCharter b), offer := b }
      let s := s.modImg x fun im => { im with sessions := im.sessions ++ [z] }
      match (s.img x).cached (ofCharter b) with
      | some ch => s.answerOffer x z ch
      | none => s.sendPeer x c 0x21 0 (leBytes 48 (ofCharter b))

/-- ZKA_OFFER_RX. -/
def execZkaOfferRx (c : Carrier) (m : ZkaBody) (s : State) : Host.Outcome State Fault Refusal :=
  onUnit (carrierOk c) <| s.withHolder fun x => s.takeOffer x c m.session m.body

/-- The initiator's FINISH, once it holds the responder's charter. -/
def State.finishAnswer (s : State) (x : Half) (z : Zka) (b : List Nat) (c : Charter) : State :=
  let tha := thA z.session z.offer b
  match firstCause [(!s.peerCharter z.peer c, 3), (!dualOk c.ecdsa c.hss (sigMsgR tha) (anSig b), 4),
      ((readPoint p384 (anPoint b)).isNone || !ctOk (anCt b), 5), (s.hssSpent x, 11)] with
  | some cause => s.zkaFail x z cause true false 0
  | none =>
    let ths := thS tha (anSig b)
    let purpose := match (s.img x).pairing z.pairing with | some p => p.purpose | none => .cak128
    let okm := okmOf ((ecdh p384 z.scalar (anPoint b)).getD []) (mlkemDecaps z.dk (anCt b)) ths
    let (i, s) := s.takeHss x
    let (sig, s) := s.signature x i (sigMsgI ths)
    let macI := macIOf (kcOf okm) ths sig
    let body := macI ++ withLen sig
    (s.modImg x fun im => im.putSession { z with
      st := .finished, at_ := s.now, sends := 1, want := none, answer := [], finish := body, ths, ak := akOf purpose okm,
      kc := kcOf okm, macI, macR := macROf (kcOf okm) ths macI }).sendPeer x z.carrier 0x32 z.session body

/-- An ANSWER at the half that holds the helm (R323, R324). -/
def State.takeReply (s : State) (x : Half) (c : Carrier) (session : Nat) (b : List Nat) : State :=
  match (s.img x).sessionOf c session true with
  | none => s
  | some z =>
    if z.st ≠ .offered ∨ z.want.isSome then s
    else match firstCause [(!answerOk b, 1), (decide (anTag b ≠ ofTag z.offer ∨ anRespId b ≠ z.peer), 2)] with
      | some k => s.zkaFail x z k true false 0
      | none => match (s.img x).cached (anCharter b) with
        | some ch => s.finishAnswer x z b ch
        | none => (s.modImg x fun im => im.putSession { z with want := some (anCharter b), answer := b }).sendPeer x c 0x21
            0 (leBytes 48 (anCharter b))

/-- ZKA_ANSWER_RX. -/
def execZkaAnswerRx (c : Carrier) (m : ZkaBody) (s : State) : Host.Outcome State Fault Refusal :=
  onUnit (carrierOk c) <| s.withHolder fun x => s.takeReply x c m.session m.body

/-- The responder on FINISH: SIG_I, then OKM and MAC_I, then the key. -/
def State.closeSession (s : State) (x : Half) (z : Zka) (b : List Nat) : State :=
  let purpose := match (s.img x).pairing z.pairing with | some p => p.purpose | none => .cak128
  let okm := okmOf z.sse z.ssk z.ths
  let sigOk := z.theirs.any fun c => dualOk c.ecdsa c.hss (sigMsgI z.ths) (fiSig b)
  match firstCause [(!finishOk b, 1), (!sigOk, 4), (decide (fiMac b ≠ macIOf (kcOf okm) z.ths (fiSig b)), 6)] with
  | some k => s.zkaFail x z k true false 0
  | none => s.zkaInstall x { z with ak := akOf purpose okm, kc := kcOf okm, macI := fiMac b,
                                    macR := macROf (kcOf okm) z.ths (fiMac b) }

/-- A FINISH at the half that holds the helm (R323, R325, R328). -/
def State.takeFinish (s : State) (x : Half) (c : Carrier) (session : Nat) (b : List Nat) : State :=
  if s.flash.charter.isNone then s
  else
    let again := s.flash.zkaRecs.find? fun r =>
      decide (r.session = session ∧ r.macI = fiMac b ∧ s.now < r.at_ + 30000000000)
    match (s.img x).sessionOf c session false, again with
    | some z, again =>
      if z.st = .answered then s.closeSession x z b
      else match again with
        | some r => if z.st = .closed then s.sendPeer x c 0x33 r.session r.macR else s
        | none => s
    | none, some r => s.sendPeer x c 0x33 r.session r.macR
    | none, none => s

/-- ZKA_FINISH_RX. -/
def execZkaFinishRx (c : Carrier) (m : ZkaBody) (s : State) : Host.Outcome State Fault Refusal :=
  onUnit (carrierOk c) <| s.withHolder fun x => s.takeFinish x c m.session m.body

/-- A DONE at the half that holds the helm (R323, R325). -/
def State.takeDone (s : State) (x : Half) (c : Carrier) (session : Nat) (b : List Nat) : State :=
  match (s.img x).sessionOf c session true with
  | some z =>
    if z.st ≠ .finished then s
    else match firstCause [(decide (b.length ≠ 32), 1), (decide (b ≠ z.macR), 6)] with
      | some k => s.zkaFail x z k true false 0
      | none => s.zkaInstall x z
  | none => s

/-- ZKA_DONE_RX. -/
def execZkaDoneRx (c : Carrier) (session : Nat) (body : List Nat) (s : State) : Host.Outcome State Fault Refusal :=
  onUnit (carrierOk c) <| s.withHolder fun x => s.takeDone x c session body

/-- An ABORT at the half that holds the helm: it ends every open session of its number on the carrier. -/
def State.takeAbort (s : State) (x : Half) (c : Carrier) (session cause : Nat) : State :=
  ((s.img x).sessions.filter fun z => z.open && decide (z.carrier = c ∧ z.session = session)).foldl
    (fun s z => s.zkaFail x z cause false true 0) s

/-- ZKA_ABORT_RX (R323). DEDUCED: notes/assumptions/58.md. -/
def execZkaAbortRx (c : Carrier) (session cause : Nat) (s : State) : Host.Outcome State Fault Refusal :=
  onUnit (carrierOk c) <| s.withHolder fun x => s.takeAbort x c session cause

/-- A CHARTER_REQ at the half that holds the helm: answered only for the module's own current charter (R324). -/
def State.charterReq (s : State) (x : Half) (c : Carrier) (digest : Nat) : State :=
  match s.flash.charter with
  | some ch =>
    if ch.digest = digest then s.sendPeer x c 0x22 0 (beBytes 2 ch.bytes.length ++ ch.bytes) else s
  | none => s

/-- CHARTER_REQ_RX (R324). -/
def execCharterReqRx (c : Carrier) (sender digest : Nat) (s : State) : Host.Outcome State Fault Refusal :=
  onUnit (carrierOk c && decide (sender < 8192)) <| s.withHolder fun x => s.charterReq x c digest

/-- A session that waits for a charter goes on with it, or ends with cause CHARTER. -/
def State.charterCame (s : State) (x : Half) (z : Zka) (ok : Bool) (c : Charter) : State :=
  if !ok then s.zkaFail x z 3 true false 0
  else if z.initiator then s.finishAnswer x z z.answer c
  else s.answerOffer x z c

/-- A CHARTER at the half that holds the helm (R305, R324): verified and cached when a session on the carrier waits for its
digest. -/
def State.takeCharter (s : State) (x : Half) (c : Carrier) (b : List Nat) : State :=
  let ch : Charter := { bytes := b.drop 2 }
  let zs := (s.img x).sessions.filter fun z => z.open && decide (z.carrier = c ∧ z.want = some ch.digest)
  if zs.isEmpty || decide (b.length ≠ 2 + beNat (b.take 2)) then s
  else
    let ok := s.charterOk x ch && decide (ch.member ≠ s.member) && decide (some ch.mdomain = s.mdomain)
    let s := if ok then s.modImg x fun im => im.keepCharter ch else s
    zs.foldl (fun s z => s.charterCame x z ok ch) s

/-- CHARTER_RX: the body of the message. -/
def execCharterRx (c : Carrier) (sender : Nat) (charter : List Nat) (s : State) : Host.Outcome State Fault Refusal :=
  onUnit (carrierOk c && decide (sender < 8192)) <| s.withHolder fun x => s.takeCharter x c charter

/-! ## Timers -/

/-- ZKA_FINISH_RESEND (R323): 200 ms without DONE, at most 10 times in all. -/
def execZkaFinishResend (session : Nat) (s : State) : Host.Outcome State Fault Refusal :=
  .next <| s.withHolder fun x =>
    match (s.img x).sessions.find? fun z => z.initiator && decide (z.session = session ∧ z.st = .finished) with
    | some z =>
      if z.at_ + 200000000 ≤ s.now ∧ z.sends < 10 then
        (s.modImg x fun im => im.putSession { z with at_ := s.now, sends := z.sends + 1 }).sendPeer x z.carrier 0x32
          z.session z.finish
      else s
    | none => s

/-- TIMEOUT_MS of R326 in ns. -/
def Image.zkaTimeout (im : Image) : Nat := bits (im.reg 0 0xA0000C) 15 0 * 1000000

/-- ZKA_SESSION_TIMEOUT (R326). DEDUCED: notes/assumptions/58.md. -/
def execZkaSessionTimeout (session : Nat) (s : State) : Host.Outcome State Fault Refusal :=
  .next <| s.withHolder fun x =>
    ((s.img x).sessions.filter fun z => z.open && decide (z.session = session ∧
        z.since + (s.img x).zkaTimeout ≤ s.now)).foldl (fun s z => s.zkaFail x z 7 true false 0) s

/-- ZKA_CLOSED_EXPIRE (R323). -/
def execZkaClosedExpire (session : Nat) (s : State) : Host.Outcome State Fault Refusal :=
  .next <| s.withHolder fun x =>
    let gone : Zka → Bool := fun z =>
      decide (z.session = session ∧ z.st = ZkaSt.closed ∧ z.at_ + 30000000000 ≤ s.now)
    s.modImg x fun im => { im with sessions := im.sessions.filter fun z => !gone z }

/-- ZKA_AUTO_START (R319): TIMEOUT_MS after a failed exchange. -/
def execZkaAutoStart (pairing : Nat) (s : State) : Host.Outcome State Fault Refusal :=
  onUnit (decide (pairing < 2048)) <| s.withHolder fun x =>
    match (s.img x).pairing pairing with
    | some p =>
      let t := tabGet 0 (s.img x).autoAt pairing
      if s.autoWanted x p && decide (t ≠ 0 ∧ t - 1 + (s.img x).zkaTimeout ≤ s.now) then
        let r := s.zkaTry x pairing
        if r.1 then r.2.modImg x fun im => { im with autoAt := tabSet 0 im.autoAt pairing 0 } else r.2
      else s
    | none => s

/-! ## Commands (Table 10.12) -/

/-- The target is a key of the pairing's domain and purpose. -/
def targetSuits (im : Image) (p : Pairing) : Bool :=
  let e := im.key p.target
  decide (hLanding p.target = 4 ∧ hDomain p.target = p.domain) &&
    (decide (e.st = 0) || decide (e.kind = purposeKind p.purpose ∧ e.len256 = purpose256 p.purpose))

/-- A function commands a pairing index that is free or of a domain that it serves. DEDUCED: notes/assumptions/56.md. -/
def Image.pairingOpen (im : Image) (fn i : Nat) : Bool :=
  decide (i < 2048) && (match im.pairing i with | some p => serves fn p.domain | none => true)

/-- PAIRING_SET (R317). DEDUCED: notes/assumptions/56.md. -/
def execPairingSet (h : Hdr) (index : Nat) (p : Pairing) (s : State) : Host.Outcome State Fault Refusal :=
  .next <| s.command h 0x0401
    (fun x => s.flash.charter.isNone || !(s.img x).pairingOpen h.fn index || !serves h.fn p.domain ||
      decide (8192 ≤ p.member ∨ 32 ≤ p.object ∨ 16 ≤ p.domain ∨ 2 ^ 32 ≤ p.tag) ||
      (decide (p.target ≠ 0) && !targetSuits (s.img x) p))
    (fun x => [(decide (p.target ≠ 0) && decide (((s.img x).key p.target).st = 0), stKeyInvalid)])
    (fun x s => (s.modImg x fun im =>
      { im with pairings := tabSet none im.pairings index (some p), autoAt := tabSet 0 im.autoAt index 0 }).done x h
        0x0401)

/-- PAIRING_CLEAR (R341). -/
def execPairingClear (h : Hdr) (index : Nat) (s : State) : Host.Outcome State Fault Refusal :=
  .next <| s.command h 0x0402
    (fun x => s.flash.charter.isNone || !(s.img x).pairingOpen h.fn index)
    (fun _ => [])
    (fun x s =>
      let s := ((s.img x).sessions.filter fun z => z.open && decide (z.pairing = index)).foldl
        (fun s z => s.zkaFail x z 2 true false 0) s
      (s.modImg x fun im => { im with pairings := tabSet none im.pairings index none,
                                      autoAt := tabSet 0 im.autoAt index 0 }).done x h 0x0402)

/-- ZKA_START (R323, R341). -/
def execZkaStart (h : Hdr) (index : Nat) (s : State) : Host.Outcome State Fault Refusal :=
  .next <| s.command h 0x0411
    (fun x => s.flash.charter.isNone || !(s.img x).pairingOpen h.fn index ||
      (match (s.img x).pairing index with | some p => !(s.img x).present p.member | none => true))
    (fun x => match (s.img x).pairing index with | some p => s.zkaFails x p | none => [])
    (fun x s => match (s.img x).pairing index with
      | some p =>
        let r := s.zkaOpen x index p
        r.2.done x h 0x0411 [(4, r.1)]
      | none => s)

/-- ZKA_CANCEL (R341). -/
def execZkaCancel (h : Hdr) (session : Nat) (s : State) : Host.Outcome State Fault Refusal :=
  .next <|
    let mine : Half → List Zka := fun x => (s.img x).sessions.filter fun z =>
      z.open && decide (z.session = session) && serves h.fn ((s.img x).pairDomain z.pairing)
    s.command h 0x0412
      (fun x => s.flash.charter.isNone || (mine x).isEmpty)
      (fun _ => [])
      (fun x s => ((mine x).foldl (fun s z => s.zkaFail x z 15 true false 0) s).done x h 0x0412)

end Sys2Proof.Machine
end

