-- ==== Sys2Proof/Machine/Peers.lean ====
section
/-! DEFINITION. Hails, pieces, the peer table with mooring and teardown (R306–R316), and periodic rekeys (R335,
R336). -/

namespace Sys2Proof.Machine

open Sys2Proof

/-! ## Messages between modules -/

/-- ORIGIN of a hail (Table 10.4). -/
def hailOrigin : Carrier → Nat
  | .lane k => k
  | .trib t => 128 + t
  | .port p => p

/-- CAPS: what the module can do, and ERASED (Table 10.4).  The module's kind has every capability.
DEDUCED: notes/assumptions/100.md. -/
def State.caps (s : State) : Nat := 31 + 32 * b2n (!s.tam.seed)

/-- The body of a hail of an enrolled module (Table 10.4). DEDUCED: notes/assumptions/100.md. -/
def State.hailBody (s : State) (x : Half) (ch : Charter) (c : Carrier) (seq : Nat) : List Nat :=
  (fldBytes (16, ch.mdomain)) ++ beBytes 2 (ch.member % 8192) ++ beBytes 2 (bits ((s.img x).reg 0 0xA00004) 10 0) ++
    fldBytes (48, ch.digest) ++ beBytes 8 s.flash.run ++ beBytes 4 s.caps ++ beBytes 2 seq ++ [hailOrigin c] ++
    List.replicate 13 0

/-! ## Pieces (R306–R308) -/

/-- A known TYPE of Table 10.2. -/
def pieceType (ty : Nat) : Bool := [0x20, 0x21, 0x22, 0x30, 0x31, 0x32, 0x33, 0x34].contains ty

/-- A piece keeps to the layout of Table 10.1. -/
def pieceOk (p : Piece) : Bool :=
  decide (1 ≤ p.pieces ∧ p.pieces ≤ 16 ∧ p.piece < p.pieces ∧ p.total ≤ 16128 ∧
    1008 * (p.pieces - 1) < max 1 p.total ∧ p.total ≤ 1008 * p.pieces) &&
    decide (p.data.length = if p.piece + 1 = p.pieces then p.total - 1008 * (p.pieces - 1) else 1008)

/-- The reassembly a piece belongs to (R307). -/
def Reasm.takes (r : Reasm) (c : Carrier) (p : Piece) : Bool :=
  decide (r.c = c ∧ r.ty = p.ty ∧ r.sender = p.sender ∧ r.session = p.session ∧ r.total = p.total)

/-- Count a discarded reassembly of a carrier. -/
def HState.reasmLost (x : HState) (c : Carrier) : HState :=
  { x with reasmDrop := tabSet 0 x.reasmDrop (carrierKey c) (tabGet 0 x.reasmDrop (carrierKey c) + 1) }

/-- Room for one more open reassembly: the oldest of 128 goes. -/
def HState.reasmRoom (x : HState) : HState :=
  if x.reasm.length < 128 then x
  else match x.reasm with
    | o :: r => ({ x with reasm := r }).reasmLost o.c
    | [] => x

/-- The data of a piece that has arrived, and the body of pieces that all have. -/
def pieceAt (got : List (Nat × List Nat)) (i : Nat) : Option (List Nat) := (got.find? fun g => decide (g.1 = i)).map (·.2)
def bodyOf (n : Nat) (got : List (Nat × List Nat)) : List Nat := (List.range n).flatMap fun i => (pieceAt got i).getD []

/-- A piece arrives (R307): the body of a message that it completes, and the half.  A piece again as it came does not
contradict. DESIGN CHOICE: notes/assumptions/116.md. -/
def HState.takePiece (x : HState) (now : Nat) (c : Carrier) (p : Piece) : Option (List Nat) × HState :=
  if p.version ≠ 1 ∨ !pieceType p.ty then (none, x)
  else match x.reasm.find? fun r => r.takes c p with
    | some r =>
      let rest := x.reasm.filter fun v => !v.takes c p
      let got := r.got ++ [(p.piece, p.data)]
      if !pieceOk p || decide (r.pieces ≠ p.pieces) || (pieceAt r.got p.piece).any fun d => decide (d ≠ p.data) then
        (none, ({ x with reasm := rest }).reasmLost c)
      else if (pieceAt r.got p.piece).isSome then (none, x)
      else if got.length = p.pieces then (some (bodyOf p.pieces got), { x with reasm := rest })
      else (none, { x with reasm := x.reasm.map fun v => if v.takes c p then { v with got } else v })
    | none =>
      if !pieceOk p then (none, x)
      else if p.pieces = 1 then (some p.data, x)
      else
        let x := x.reasmRoom
        (none, { x with reasm := x.reasm ++
          [{ c, ty := p.ty, sender := p.sender, session := p.session, total := p.total, pieces := p.pieces,
             got := [(p.piece, p.data)], at_ := now }] })

/-- REASSEMBLY_TIMEOUT (R307): 100 ms after the first piece. -/
def execReassemblyTimeout (half : Half) (c : Carrier) (ty sender session : Nat) (s : State) :
    Host.Outcome State Fault Refusal :=
  onUnit (carrierOk c) <| s.modHalf half fun x =>
    let due : Reasm → Bool := fun r =>
      decide (r.c = c ∧ r.ty = ty ∧ r.sender = sender ∧ r.session = session ∧ r.at_ + 100000000 ≤ s.now)
    let n := (x.reasm.filter due).length
    { x with reasm := x.reasm.filter fun r => !due r,
             reasmDrop := tabSet 0 x.reasmDrop (carrierKey c) (tabGet 0 x.reasmDrop (carrierKey c) + n) }

/-! ## The peer table -/

/-- A peer table entry. -/
def Image.peer (im : Image) (m : Nat) : Option Peer := tabGet none im.peers m

/-- The image with a peer table entry set. -/
def Image.setPeer (im : Image) (m : Nat) (p : Option Peer) : Image := { im with peers := tabSet none im.peers m p }

/-- Where the time of a peer's latest hail on a carrier instance is kept. -/
def heardKey (m : Nat) (c : Nat) : Nat := 96 * m + c

/-- Carrier instances on which a half hears a peer now. -/
def HState.hears (x : HState) (m : Nat) : List Nat :=
  (List.range 96).filter fun c => decide (tabGet 0 x.heard (heardKey m c) ≠ 0)

/-- Forget a peer's hails. -/
def HState.forget (x : HState) (m : Nat) : HState :=
  { x with heard := (List.range 96).foldl (fun t c => tabDel t (heardKey m c)) x.heard }

/-- Enabled terminating tributaries with the peer at their far end. -/
def Image.farTribs (im : Image) (p : Peer) : List Nat :=
  (List.range 32).filter fun t => p.assoc.contains (32 + t) && im.termTrib t

/-- CAs on the line ports that lead to the peer. -/
def Image.farCas (im : Image) (p : Peer) : List (Nat × Ca) :=
  im.cas.filterMap fun q => match q.2 with
    | some c => if p.assoc.contains (64 + c.args.port) then some (q.1, c) else none
    | none => none

/-- Tear down the associations of a peer (R315): how many, and the state. -/
def State.teardown (s : State) (x : Half) (m : Nat) (p : Peer) : Nat × State :=
  let im := s.img x
  let ts := (im.farTribs p).filter fun t => (im.txA t).bound.isSome
  let cs := im.farCas p
  let zs := im.sessions.filter fun z => z.open && decide (z.peer = m)
  let s := (im.farTribs p).foldl (fun s t => (s.eraseAssoc x t).modImg x fun im =>
    im.setTx t { im.txA t with torn := (im.txA t).bound.isSome }) s
  let s := cs.foldl (fun s q => q.2.live.foldl (fun s v => s.losePeer x q.1 v.mi false) s) s
  let s := zs.foldl (fun s z => s.zkaFail x z 14 true false 0) s
  (ts.length + (cs.map fun q => q.2.live.length).sum + zs.length, s)

/-- Tear down and post PEER_RELEASED: member; mooring expired 0, new RUN 1 or command 2; associations torn down. -/
def State.releasePeer (s : State) (x : Half) (m : Nat) (p : Peer) (cause : Nat) : State :=
  let r := s.teardown x m p
  r.2.post x .cores 0x0403 [(2, m), (1, cause), (2, r.1)]

/-- Delete an entry after its teardown. -/
def State.deletePeer (s : State) (x : Half) (m : Nat) : State :=
  (s.modImg x fun im => im.setPeer m none).modHalf x fun y => y.forget m

/-- The associations of a peer that are moored. -/
def Image.moorable (im : Image) (p : Peer) : Nat :=
  ((im.farTribs p).filter fun t => (im.txA t).bound.isSome).length + ((im.farCas p).map fun q => q.2.live.length).sum

/-- The transmit associations torn down with a peer that is PRESENT again start a key change as for a new binding (R315). -/
def State.restartTribs (s : State) (x : Half) (p : Peer) : State :=
  ((s.img x).farTribs p).foldl (fun s t => if ((s.img x).txA t).torn then s.keyChangeIfBound x t else s) s

/-- Post PEER_ARRIVED: member; charter digest; RUN; CAPS; carrier; RESUMED. -/
def State.postArrived (s : State) (x : Half) (b : HailBody) (c : Carrier) (resumed : Bool) : State :=
  s.post x .cores 0x0401 [(2, b.member), (48, b.digest), (8, b.run), (4, b.caps), (1, carrierKey c), (1, b2n resumed)]

/-- A hail was heard on a carrier instance now. DEDUCED: notes/assumptions/61.md. -/
def HState.hear (x : HState) (now m : Nat) (c : Carrier) : HState :=
  { x with heard := tabSet 0 x.heard (heardKey m (carrierKey c)) (now + 1) }

/-- The entry that a hail gives, with the carrier instances known to lead to the peer. -/
def hailEntry (b : HailBody) (assoc : List Nat) : Peer :=
  { digest := b.digest, run := b.run, caps := b.caps, hailMs := b.hailMs, moored := none, assoc }

/-- A new arrival (R311, R319). -/
def State.arrive (s : State) (x : Half) (c : Carrier) (b : HailBody) : State :=
  let s := (s.modImg x fun im => im.setPeer b.member (some (hailEntry b [carrierKey c]))).modHalf x fun y =>
    y.hear s.now b.member c
  ((s.postArrived x b c false).restartTribs x (hailEntry b [carrierKey c])).autoStart x b.member

/-- No minute has passed since an event (1 + its time; 0: never). -/
def withinMinute (at_ now : Nat) : Bool := decide (at_ ≠ 0 ∧ now < at_ - 1 + 60000000000)

/-- FOREIGN_HAIL at most once per minute and carrier instance (R310): carrier; MDOMAIN; absorbed. -/
def State.foreignHail (s : State) (x : Half) (c : Carrier) (b : HailBody) : State :=
  let k := carrierKey c
  let y := s.half x
  if withinMinute (tabGet 0 y.foreignAt k) s.now then
    s.modHalf x fun y => { y with foreignCnt := tabSet 0 y.foreignCnt k (tabGet 0 y.foreignCnt k + 1) }
  else
    (s.modHalf x fun y => { y with foreignAt := tabSet 0 y.foreignAt k (s.now + 1),
                                   foreignCnt := tabSet 0 y.foreignCnt k 0 }).postEv x .cores
      { code := 0x0405, origin := x, absorbed := tabGet 0 y.foreignCnt k, payload := [(1, k), (16, b.mdomain)],
        route := .pf, key := 0, times := y.times }

/-- PEER_CONFLICT at most once per minute and member (R312): member; both digests; absorbed. -/
def State.peerConflict (s : State) (x : Half) (b : HailBody) (old : Nat) : State :=
  let y := s.half x
  if withinMinute (tabGet 0 y.conflictAt b.member) s.now then
    s.modHalf x fun y =>
      { y with conflictCnt := tabSet 0 y.conflictCnt b.member (tabGet 0 y.conflictCnt b.member + 1) }
  else
    (s.modHalf x fun y => { y with conflictAt := tabSet 0 y.conflictAt b.member (s.now + 1),
                                   conflictCnt := tabSet 0 y.conflictCnt b.member 0 }).postEv x .cores
      { code := 0x0404, origin := x, absorbed := tabGet 0 y.conflictCnt b.member,
        payload := [(2, b.member), (48, old), (48, b.digest)], route := .pf, key := 0, times := y.times }

/-- PEER_TABLE_FULL at most once per minute (R311): hails ignored since the last event. -/
def State.peerFull (s : State) (x : Half) : State :=
  let y := s.half x
  if withinMinute y.peerFullAt s.now then s.modHalf x fun y => { y with peerFullCnt := y.peerFullCnt + 1 }
  else (s.modHalf x fun y => { y with peerFullAt := s.now + 1, peerFullCnt := 0 }).post x .cores 0x0406
    [(4, y.peerFullCnt + 1)]

/-- A tributary's message channel leads to one peer: the others lose it. -/
def Image.claimCarrier (im : Image) (m k : Nat) : Image :=
  if 32 ≤ k ∧ k < 64 then
    { im with peers := im.peers.map fun q =>
        if q.1 = m then q else (q.1, q.2.map fun p => { p with assoc := p.assoc.filter (· ≠ k) }) }
  else im

/-- A valid hail of the own membership domain at the half that holds the helm (R311, R312, R314, R315). DEDUCED:
notes/assumptions/61.md. -/
def State.hail (s : State) (x : Half) (c : Carrier) (b : HailBody) : State :=
  let s := s.modImg x fun im => im.claimCarrier b.member (carrierKey c)
  match (s.img x).peer b.member with
  | none =>
    if 1024 ≤ ((s.img x).peers.filter (·.2.isSome)).length then s.peerFull x else s.arrive x c b
  | some p =>
    if p.digest ≠ b.digest then
      if p.moored.isNone then s.peerConflict x b p.digest
      else ((s.teardown x b.member p).2.modHalf x fun y => y.forget b.member).arrive x c b
    else
      let e := hailEntry b ((carrierKey c :: p.assoc).eraseDups)
      let heard : State → State := fun s =>
        ((s.modImg x fun im => im.setPeer b.member (some e)).modHalf x fun y => y.hear s.now b.member c).restartTribs x e
      if p.run ≠ b.run then heard (s.releasePeer x b.member p 1)
      else if p.moored.isSome then (heard s).postArrived x b c true
      else heard s

/-- A hail at one half (R310): each half hears every hail; the half that holds the helm keeps the peer table. -/
def State.hailHeard (s : State) (half : Half) (c : Carrier) (b : HailBody) : State :=
  if !(s.half half).up || s.flash.charter.isNone || decide (b.member = s.member) ||
      decide (b.hailMs < 10 ∨ 1000 < b.hailMs ∨ 8192 ≤ b.member) then s
  else if s.holder = some half then
    if some b.mdomain ≠ s.mdomain then s.foreignHail half c b else s.hail half c b
  else if some b.mdomain = s.mdomain ∧ ((s.img half).peer b.member).any (fun p => decide (p.digest = b.digest)) then
    s.modHalf half fun y => y.hear s.now b.member c
  else s

/-- HAIL_RX (R310). -/
def execHailRx (half : Half) (c : Carrier) (b : HailBody) (s : State) : Host.Outcome State Fault Refusal :=
  onUnit (carrierOk c) (s.hailHeard half c b)

/-- Loss of a carrier instance at one half (R313): three hail intervals and 10 ms. -/
def HState.instanceLost (x : HState) (now : Nat) (m hailMs : Nat) (c : Carrier) : Bool :=
  let t := tabGet 0 x.heard (heardKey m (carrierKey c))
  decide (t ≠ 0 ∧ t - 1 + 3 * hailMs * 1000000 + 10000000 < now)

/-- The half without a carrier instance of a peer. -/
def HState.lose (x : HState) (m : Nat) (c : Carrier) : HState :=
  { x with heard := tabDel x.heard (heardKey m (carrierKey c)) }

/-- `ZKA_MOOR_CFG.MOOR_MS`. -/
def Image.moorMs (im : Image) : Nat := bits (im.reg 0 0xA00008) 15 0

/-- The peer departs (R313): MOORED, or torn down at once with a mooring time of 0. -/
def State.depart (s : State) (x : Half) (m : Nat) (p : Peer) : State :=
  let s := (s.modImg x fun im => im.setPeer m (some { p with moored := some s.now })).post x .cores 0x0402
    [(2, m), (2, (s.img x).moorable p)]
  if (s.img x).moorMs = 0 then (s.releasePeer x m p 0).deletePeer x m else s

/-- CARRIER_LOSS (R313): each half keeps its own count of hails. -/
def execCarrierLoss (member : Nat) (c : Carrier) (s : State) : Host.Outcome State Fault Refusal :=
  onUnit (carrierOk c && decide (member < 8192)) <| s.withHolder fun x =>
    match (s.img x).peer member with
    | none => s
    | some p =>
      let o := x.other
      let s := if (s.half o).instanceLost s.now member p.hailMs c then s.modHalf o fun y => y.lose member c else s
      if !(s.half x).instanceLost s.now member p.hailMs c then s
      else
        let s := s.modHalf x fun y => y.lose member c
        if ((s.half x).hears member).isEmpty && p.moored.isNone then s.depart x member p else s

/-- PEER_MOOR_EXPIRE (R315, R316). -/
def execPeerMoorExpire (member : Nat) (s : State) : Host.Outcome State Fault Refusal :=
  onUnit (decide (member < 8192)) <| s.withHolder fun x =>
    match (s.img x).peer member with
    | some p =>
      match p.moored with
      | some t =>
        if t + (s.img x).moorMs * 1000000 ≤ s.now then (s.releasePeer x member p 0).deletePeer x member else s
      | none => s
    | none => s

/-- The carrier instance carries hails (Table 10.3). -/
def State.carriesHail (s : State) (x : Half) : Carrier → Bool
  | .lane k => let im := s.img x
      decide (k < 32) && im.cageCwy (k / 8) && decide (((s.half x).lane (32 + k)).pwrNow = 2)
  | .trib t => (s.img x).termTrib t
  | .port p => (s.img x).pktLine p && (s.img x).portEn p

/-- One hail on a carrier instance. -/
def State.hailOn (x : Half) (ch : Charter) (s : State) (c : Carrier) : State :=
  let k := carrierKey c
  let n := tabGet 0 (s.half x).hailSeq k
  (s.modHalf x fun y => { y with hailSeq := tabSet 0 y.hailSeq k ((n + 1) % 65536),
                                 hailAt := tabSet 0 y.hailAt k (s.now + 1) }).sendPiece x c
    (pieceBytes 0x20 ch.member 0 0 (s.hailBody x ch c n))

/-- A hail is due on a carrier instance (R309). -/
def State.hailDue (s : State) (x : Half) (c : Carrier) : Bool :=
  let t := tabGet 0 (s.half x).hailAt (carrierKey c)
  s.carriesHail x c && !(decide (t ≠ 0 ∧ s.now < t - 1 + bits ((s.img x).reg 0 0xA00004) 10 0 * 1000000))

/-- The carrier instances that a hail goes out on: with one causeway lane every other one in ACTIVE that is due (R84). -/
def State.hailWith (s : State) (x : Half) : Carrier → List Carrier
  | .lane k => .lane k :: (((List.range 32).filter (· ≠ k)).map Carrier.lane).filter (s.hailDue x)
  | c => [c]

/-- HAIL_SEND (R309, R549). DEDUCED: notes/assumptions/61.md. -/
def execHailSend (c : Carrier) (s : State) : Host.Outcome State Fault Refusal :=
  onUnit (carrierOk c) <| s.withHolder fun x =>
    match s.flash.charter with
    | none => s
    | some ch =>
      if s.phase ≠ .running ∨ bit ((s.img x).reg 0 0xA00004) 31 = false ∨ s.now < (s.img x).hush ∨ !s.hailDue x c then s
      else (s.hailWith x c).foldl (State.hailOn x ch) s

/-! ## Commands (Table 10.12) -/

/-- PEER_QUERY: state, PRESENT 0 or MOORED 1; digest; RUN; CAPS; carrier instances as a mask. DEDUCED:
notes/assumptions/60.md. -/
def execPeerQuery (h : Hdr) (member addr : Nat) (s : State) : Host.Outcome State Fault Refusal :=
  .next <| s.command h 0x0403
    (fun x => decide (h.fn ≠ 0) || ((s.img x).peer member).isNone)
    (fun _ => [])
    (fun x s => match (s.img x).peer member with
      | some p => s.reply x h 0x0403 [] addr
          [(1, b2n p.moored.isSome), (48, p.digest), (8, p.run), (4, p.caps),
           (12, (((s.half x).hears member).map (2 ^ ·)).sum)]
      | none => s)

/-- PEER_RELEASE (R315). -/
def execPeerRelease (h : Hdr) (member : Nat) (s : State) : Host.Outcome State Fault Refusal :=
  .next <| s.command h 0x0404
    (fun x => s.flash.charter.isNone || decide (h.fn ≠ 0) ||
      !((s.img x).peer member).any fun p => p.moored.isSome)
    (fun _ => [])
    (fun x s => match (s.img x).peer member with
      | some p => ((s.releasePeer x member p 2).deletePeer x member).done x h 0x0404
      | none => s)

/-! ## Periodic rekeys (R336) -/

def rekeyCode : RekeyKind → Nat
  | .tributary => 0
  | .ca => 1
  | .pairing => 2

/-- Where the firings skipped of a periodic rekey are counted. -/
def rekeyKey (k : RekeyKind) (i : Nat) : Nat := 4096 * rekeyCode k + i

/-- The scheduled entry of a periodic rekey. -/
def Image.rekeyEntry (im : Image) (k : RekeyKind) (i : Nat) : Option Nat :=
  (im.sched.find? fun p => p.2.any fun e => decide (e.act = .rekey k i)).map (·.1)

/-- Key domain of a rekey target, if it exists. -/
def Image.rekeyDomain (im : Image) (k : RekeyKind) (i : Nat) : Option Nat :=
  match k with
  | .tributary => if im.termTrib i then some (im.tribDomain i) else none
  | .ca => (im.ca i).map Ca.domain
  | .pairing => (im.pairing i).map (·.domain)

/-- A function may command a rekey target. -/
def Image.rekeyOpen (im : Image) (fn : Nat) (k : RekeyKind) (i : Nat) : Bool :=
  match im.rekeyDomain k i with
  | some d => serves fn d
  | none => false

/-- REKEY_SET (R336): a target has one periodic rekey; setting it again replaces it. DEDUCED: notes/assumptions/62.md. -/
def execRekeySet (h : Hdr) (kind : RekeyKind) (index tb : Nat) (first : Instant) (period : Nat) (s : State) :
    Host.Outcome State Fault Refusal :=
  .next <| s.command h 0x0431
    (fun x => s.flash.charter.isNone || !(s.img x).rekeyOpen h.fn kind index ||
      (s.half x).badWhen (.scheduled tb first) || decide (period < 1 ∨ 2 ^ 31 < period))
    (fun x => [(((s.img x).rekeyEntry kind index).isNone && (s.img x).schedFull h.fn 1, stNoRes)])
    (fun x s =>
      let s := match (s.img x).rekeyEntry kind index with
        | some e => s.unarm x e
        | none => s
      let s := s.modImg x fun im => { im with skips := tabSet 0 im.skips (rekeyKey kind index) 0 }
      (s.arm x h.fn 0x0431 none tb first.time period (.rekey kind index)).done x h 0x0431)

/-- REKEY_CLEAR (R336). -/
def execRekeyClear (h : Hdr) (kind : RekeyKind) (index : Nat) (s : State) : Host.Outcome State Fault Refusal :=
  .next <| s.command h 0x0432
    (fun x => s.flash.charter.isNone || ((s.img x).rekeyEntry kind index).isNone ||
      (match (s.img x).rekeyDomain kind index with | some d => !serves h.fn d | none => decide (h.fn ≠ 0)))
    (fun _ => [])
    (fun x s => match (s.img x).rekeyEntry kind index with
      | some e => (s.unarm x e).done x h 0x0432
      | none => s)

/-- A firing is skipped and counted.  Post REKEY_SKIPPED: target kind; index; firings skipped since it was set.
DEDUCED: notes/assumptions/62.md. -/
def State.skipRekey (s : State) (x : Half) (k : RekeyKind) (i : Nat) (post : Bool) : State :=
  let n := tabGet 0 (s.img x).skips (rekeyKey k i) + 1
  let s := s.modImg x fun im => { im with skips := tabSet 0 im.skips (rekeyKey k i) n }
  if post then s.post x .cores 0x040B [(1, rekeyCode k), (2, i), (4, n)] (.dom (((s.img x).rekeyDomain k i).getD 0))
  else s

/-- A periodic rekey fires (R336). DEDUCED: notes/assumptions/62.md. -/
def State.fireRekey (s : State) (x : Half) (k : RekeyKind) (i : Nat) : State :=
  match k with
  | .tributary =>
    let r := s.fireKeyStep x i
    if r.1 = stDone then r.2 else s.skipRekey x k i true
  | .ca => match (s.img x).ca i with
    | some c => if c.server && !c.live.isEmpty then s.newSak x i else s.skipRekey x k i false
    | none => s.skipRekey x k i true
  | .pairing =>
    let r := s.zkaTry x i
    if r.1 then r.2 else s.skipRekey x k i true

/-- STEP_DELAY_MS (R335) in ns. -/
def Image.stepDelay (im : Image) : Nat := bits (im.reg 0 0xA0000C) 31 16 * 1000000

/-- A replaced CWY_ASSOC key steps the tributaries bound to it after the delay of R335. -/
def State.cwyReplaced (s : State) (x : Half) (handle : Nat) : State :=
  s.modImg x fun im => (im.boundTribs handle).foldl (fun im t =>
    { im with stepAt := tabSet 0 im.stepAt t (s.now + im.stepDelay + 1) }) im

/-- CWY_REPLACE_STEP (R335): as if TRIB_KEY_STEP fired. -/
def execCwyReplaceStep (t : Nat) (s : State) : Host.Outcome State Fault Refusal :=
  onUnit (decide (t < 32)) <| s.withHolder fun x =>
    let at_ := tabGet 0 (s.img x).stepAt t
    if at_ ≠ 0 ∧ at_ - 1 ≤ s.now then
      ((s.modImg x fun im => { im with stepAt := tabSet 0 im.stepAt t 0 }).fireKeyStep x t).2
    else s

end Sys2Proof.Machine
end

