-- ==== Sys2Proof/Machine/Ptp.lean ====
section
/-! DEFINITION. The slave engine of PTP (R380): messages of IEEE 1588 byte by byte, the master that it follows, offset and
path delay. PRESUMED: notes/assumptions/126.md. -/

namespace Sys2Proof.Machine

open Sys2Proof

/-- Nanoseconds since the sample before: 1 s when there was none. DEDUCED: notes/assumptions/63.md. -/
def sinceSample (last now : Nat) : Nat := if last = 0 then 1000000000 else now - (last - 1)

/-! ## Messages -/

/-- Fields of the header. -/
def ptpType (m : List Nat) : Nat := m.headD 0 % 16
def ptpDomain (m : List Nat) : Nat := m.getD 4 0
def ptpTwoStep (m : List Nat) : Bool := (m.getD 6 0).testBit 1
def ptpCorrection (m : List Nat) : Int := (BitVec.ofNat 64 (beNat (bytesAt m 8 8))).toInt
def ptpSource (m : List Nat) : Nat := beNat (bytesAt m 20 10)
def ptpSeq (m : List Nat) : Nat := beNat (bytesAt m 30 2)

/-- The timestamp of the body in 2^−16 ns: 48 bits of seconds, 32 of nanoseconds. -/
def ptpStamp (m : List Nat) : Int :=
  ((beNat (bytesAt m 34 6) * 1000000000 + beNat (bytesAt m 40 4)) * 65536 : Nat)

/-- The requestingPortIdentity of a Delay_Resp. -/
def ptpRequester (m : List Nat) : Nat := beNat (bytesAt m 44 10)

/-- Rank of the clock behind an Announce, lowest best: grandmaster, steps removed, sender. -/
def announceRank (m : List Nat) : Nat := beNat (bytesAt m 47 16 ++ bytesAt m 20 10)

/-- The port identity of the engine. -/
def ownPort : Nat := Config.clockIdentity % 2 ^ 64 * 65536 + 1

/-- logMessageInterval as nanoseconds. -/
def ptpInterval (m : List Nat) : Nat :=
  let k := (BitVec.ofNat 8 (m.getD 33 0)).toInt
  if 0 ≤ k then 1000000000 * 2 ^ k.toNat else 1000000000 / 2 ^ (-k).toNat

/-- A Delay_Req, 44 bytes. -/
def delayReqBytes (domain seq : Nat) : List Nat :=
  [0x01, 0x12, 0, 44, domain, 0] ++ List.replicate 14 0 ++ beBytes 10 ownPort ++ beBytes 2 seq ++ [1, 0x7F] ++
    List.replicate 10 0

/-- The frame of a Delay_Req. -/
def delayReqFrame (port domain seq : Nat) : FrameIn :=
  { id := 0, dst := 0x011B19000000, src := Config.portAddress port, tags := [], etherType := ptpEtherType,
    payload := padTo 46 (delayReqBytes domain seq) }

/-! ## The slave -/

/-- A message of the master that the engine follows. -/
def Ptp.follows (p : Ptp) (m : List Nat) : Bool := p.master.any fun v => decide (v.2.1 = ptpSource m)

/-- An Announce: the better master is followed, the followed one afresh, and any once three intervals of the former have
passed without one. -/
def Ptp.announce (p : Ptp) (m : List Nat) (now : Nat) : Ptp :=
  let r := announceRank m
  if p.follows m || (match p.master with | some v => decide (r ≤ v.1 ∨ v.2.2 ≤ now) | none => true) then
    { p with master := some (r, ptpSource m, now + 3 * ptpInterval m) }
  else p

/-- Origin and arrival of a Sync are known: θ is their difference less the mean path delay. -/
def Ptp.sampled (p : Ptp) (t1 t2 : Int) (now : Nat) : Ptp × Option (Int × Nat) :=
  ({ p with sync := none, last := some (t1, t2), at_ := now + 1 }, some (t2 - t1 - p.delay, sinceSample p.at_ now))

/-- A Delay_Resp to the last Delay_Req: the mean of the two ways. -/
def Ptp.response (p : Ptp) (m : List Nat) : Ptp :=
  match p.last, p.tx with
  | some (t1, t2), some t3 =>
    if ptpRequester m = ownPort ∧ ptpSeq m = p.seq then
      { p with delay := (t2 - t1 + (ptpStamp m - ptpCorrection m - t3)) / 2, tx := none }
    else p
  | _, _ => p

/-- The engine takes a message: its next state, and the offset sample that the message completes with the time since the
one before. -/
def Ptp.take (p : Ptp) (m : List Nat) (now : Nat) : Ptp × Option (Int × Nat) :=
  match ptpType m with
  | 11 => (p.announce m now, none)
  | 0 =>
    if !p.follows m then (p, none)
    else
      let p := { p with every := ptpInterval m }
      if ptpTwoStep m then ({ p with sync := some (ptpSeq m, p.rx, ptpCorrection m) }, none)
      else p.sampled (ptpStamp m + ptpCorrection m) p.rx now
  | 8 =>
    match p.sync with
    | some (n, t2, c) =>
      if p.follows m && decide (n = ptpSeq m) then p.sampled (ptpStamp m + ptpCorrection m + c) t2 now else (p, none)
    | none => (p, none)
  | 9 => (if p.follows m then p.response m else p, none)
  | _ => (p, none)

end Sys2Proof.Machine
end

