-- ==== Sys2Proof/Machine/CwyFrame.lean ====
section
/-! DEFINITION. The causeway frame (03): frame alignment, lane identity, remote indications, the hail channel, the
group overhead block, deskew and degraded-signal windows on receive, and the overhead that a lane frame sends. -/

namespace Sys2Proof.Machine

open Sys2Proof

/-! ## Alignment (R89–R94) -/

/-- Where the FAS after a FAS at position `pos` with MFAS `m` is expected (R73, R89). -/
def nextFas (pos m : Nat) : Nat := pos + (if m % 2 = 0 then 138570 else 138870)

/-- A causeway receive lane that searches (R94): its cage in causeway mode, in ACTIVE, adapted, with its signal, not
in SYNC. -/
def HState.hunting (x : HState) (k : Nat) : Bool :=
  x.up && x.img.cageCwy (k / 8) && (x.lane (32 + k)).inActive && (x.lane (32 + k)).adapted && !x.los k &&
    !(x.rxLane k).sync

/-- FAS_MATCH (R89, R90). -/
def execFasMatch (half : Half) (lane pos mfas : Nat) (s : State) : Host.Outcome State Fault Refusal :=
  onUnit (decide (lane < 32 ∧ mfas < 256)) <|
    let x := s.half half
    let l := x.rxLane lane
    if !x.hunting lane || l.snds.any (fun c => decide (c.pos = pos)) then s
    else
      let full := decide (8 ≤ l.snds.length)
      let old := if full then l.snds.drop 1 else l.snds
      let s := if full then s.count half 1 (32 + lane) 8 else s
      s.modHalf half fun y => y.setRxLane lane
        { l with snds := old ++ [{ pos := nextFas pos mfas, mfas := (mfas + 1) % 256, count := 1 }] }

/-- SOUNDING_CHECK (R91, R92): the check at a sounding's predicted position. -/
def execSoundingCheck (half : Half) (lane pos fasErrors mfas : Nat) (s : State) : Host.Outcome State Fault Refusal :=
  onUnit (decide (lane < 32 ∧ mfas < 256)) <|
    let x := s.half half
    let l := x.rxLane lane
    match l.snds.find? (fun c => decide (c.pos = pos)) with
    | none => s
    | some c =>
      let rest := l.snds.filter fun d => decide (d.pos ≠ pos)
      if !x.hunting lane then s
      else if 3 < fasErrors ∨ mfas ≠ c.mfas then
        (s.count half 1 (32 + lane) 8).modHalf half fun y => y.setRxLane lane { l with snds := rest }
      else if c.count + 1 < x.img.confirmN then
        let snds := l.snds.map fun d => if d.pos = pos then
            { pos := nextFas pos mfas, mfas := (mfas + 1) % 256, count := c.count + 1 } else d
        s.modHalf half fun y => y.setRxLane lane { l with snds }
      else
        let s := s.count half 1 (32 + lane) 8 rest.length
        ((s.modHalf half fun y => y.setRxLane lane
            { l with snds := [], sync := true, run := 0, mfas := (mfas + 1) % 256 }).postAlign half lane 0
          mfas).lineChanged half x

/-! ## Overhead of a received frame (R79–R88) -/

/-- A run of equal values: the value and its length, `want` reached or not. -/
def runOf (val run v : Nat) : Nat × Nat := if run ≠ 0 ∧ v = val then (v, run + 1) else (v, 1)

/-- Lane identity (R79): byte 8 of a frame of even or odd MFAS.  0xFF is accepted as no group in either parity; a
byte whose reserved bits are not 0 breaks the run. DEDUCED: notes/assumptions/44.md, notes/assumptions/89.md. -/
def RxLane.identity (l : RxLane) (mfas b : Nat) : RxLane :=
  if mfas % 2 = 0 then
    if b ≠ 0xFF ∧ b % 8 ≠ 0 then { l with evenRun := 0 }
    else
      let (v, r) := runOf l.evenVal l.evenRun b
      let l := { l with evenVal := v, evenRun := min 3 r }
      if r < 3 then l
      else if b = 0xFF then { l with evenNone := true, lpos := none }
      else { l with lpos := some (b / 8), evenNone := false }
  else
    if b ≠ 0xFF ∧ b % 16 ≠ 0 then { l with oddRun := 0 }
    else
      let (v, r) := runOf l.oddVal l.oddRun b
      let l := { l with oddVal := v, oddRun := min 3 r }
      if r < 3 then l
      else if b = 0xFF then { l with oddNone := true, gid := none }
      else { l with gid := some (b / 16), oddNone := false }

/-- A segment of a message channel (R85, R117): the message open, the control byte and its data, with the segment size and
the largest message.  Answers the message open afterwards, the message delivered, and how many were discarded.  A segment
without SOM while no message is open discards none. DESIGN CHOICE: notes/assumptions/114.md. -/
def segment (size largest : Nat) (open_ : Option (List Nat)) (ctl : Nat) (data : List Nat) :
    Option (List Nat) × Option (List Nat) × Nat :=
  let som := decide (128 ≤ ctl)
  let eom := decide (64 ≤ ctl % 128)
  let len := ctl % 64
  if ctl = 0 then (none, none, b2n open_.isSome)
  else
    let lost := b2n (som && open_.isSome)
    match (if som then some [] else open_) with
    | none => (none, none, 0)
    | some m =>
      let m' := m ++ data.take len
      if size < len || (!eom && decide (len ≠ size)) || decide (largest < m'.length) then (none, none, lost + 1)
      else if eom then
        if decide (5 ≤ m'.length) && crcOk m' then (none, some m', lost) else (none, none, lost + 1)
      else (some m', none, lost)

/-- The group overhead share of a frame (R87): the shares gathered, and at the fourth the block of its period, if it is
valid. -/
def RxLane.gobShare (l : RxLane) (mfas : Nat) (ok : Bool) (share : List Nat) : RxLane × Option (Option (List Nat)) :=
  let k := mfas % 4
  let here := ok && (decide (k = 0) || decide (k = l.gobNext))
  let g := if !here then [] else if k = 0 then share else l.gob ++ share
  let valid := here && decide (k = 3) && crcOk g && decide ((g.getD 0 0) % 16 = 1)
  ({ l with gob := g, gobNext := if here ∧ k < 3 then k + 1 else 0 },
   if k = 3 then some (if valid then some g else none) else none)

/-- One slot of a side changed. -/
def SideSt.setSlot (v : SideSt) (i : Nat) (r : SlotRx) : SideSt := { v with slots := tabSet {} v.slots i r }

/-- The tributary map of a GOB against the slots in use in its group (R121, TMM of Table 04.9). -/
def HState.checkMap (x : HState) (g : Nat) (map : List Nat) : HState :=
  x.img.allSides.foldl (fun x ts =>
    ((x.img.slotsInUse ts.1 ts.2).zipIdx).foldl (fun x si =>
      if si.1.1 = g then
        let v := x.side ts.1 ts.2
        let r := v.slot si.2
        x.setSide ts.1 ts.2 (v.setSlot si.2
          { r with tmmMap := r.tmmMap.see (decide (map.getD si.1.2 0xFF ≠ 8 * ts.1 + si.2)) })
      else x) x) x

/-- The group uses a valid GOB: GSM, and the tributary map. -/
def HState.useGob (x : HState) (g : Nat) (gob : List Nat) : HState :=
  let bad := decide (gob.getD 0 0 / 16 ≠ g) || decide ((gob.getD 1 0) % 32 + 1 ≠ (x.img.groupLanes g).length)
  let x := x.setGrp g { x.grp g with gsm := bad, gobValid := true }
  if bad then x else x.checkMap g ((gob.drop 4).take 32)

/-- The lanes of a group that bring a block in every period: in SYNC, with an accepted LPOS, the lowest LPOS first. -/
def HState.gobLanes (x : HState) (g : Nat) : List Nat :=
  let ls := (x.img.groupLanes g).filter fun k => (x.rxLane k).sync && (x.rxLane k).lpos.isSome
  (List.range 32).flatMap fun p => ls.filter fun k => decide ((x.rxLane k).lpos = some p)

/-- What lane `k` brought in block period `p`. -/
def Grp.blockOf (v : Grp) (p k : Nat) : Option (Option (List Nat)) :=
  (v.blocks.find? fun b => decide (b.1 = p ∧ b.2.1 = k)).map (·.2.2)

/-- A block period is decided once every such lane has brought its block: the group uses the valid one of the lowest
accepted LPOS (R87).  Lanes arrive up to their skew apart. DESIGN CHOICE: notes/assumptions/45.md. -/
def HState.decideGob (g : Nat) (x : HState) (p : Nat) : HState :=
  let got := (x.gobLanes g).map fun k => (x.grp g).blockOf p k
  if got.any Option.isNone then x
  else
    let x := x.setGrp g { x.grp g with blocks := (x.grp g).blocks.filter fun b => decide (b.1 ≠ p) }
    match got.findSome? fun b => b.getD none with
    | some gob => x.useGob g gob
    | none => x.setGrp g { x.grp g with gobValid := false }

/-- A lane brings its block of a block period: MFAS div 4.  Periods a quarter of the count behind are given up. -/
def HState.takeBlock (x : HState) (g k p : Nat) (blk : Option (List Nat)) : HState :=
  let old := (x.grp g).blocks.filter fun b => decide ((p + 64 - b.1) % 64 < 16)
  let x := x.setGrp g { x.grp g with blocks := old ++ [(p, k, blk)] }
  (((x.grp g).blocks.map (·.1)).eraseDups).foldl (HState.decideGob g) x

/-- BIP errors of the frame before (R81): none are counted where no frame came before, or where the bytes that carry its
BIP came in an uncorrectable codeword (R88). -/
def RxLane.bipCheck (l : RxLane) (ok : Bool) (ovh : List Nat) : Option Nat :=
  match l.bip with
  | some b => if ok then some (bipErrors b (beNat (bytesAt ovh 2 2))) else none
  | none => none

/-- The overhead of a frame with a correctable overhead codeword (R79, R83). DEDUCED: notes/assumptions/89.md. -/
def RxLane.overhead (l : RxLane) (mfas : Nat) (ovh : List Nat) : RxLane :=
  let b12 := ovh.getD 4 0
  let l := l.identity mfas (ovh.getD 0 0)
  { l with rdi := l.rdi.see (decide (128 ≤ b12)), rdeg := l.rdeg.see (decide (64 ≤ b12 % 128)) }

/-- A BIP comparison (R81, R103). -/
def RxLane.bipSeen (l : RxLane) (e : Nat) : RxLane := { l with rei := e, wFrames := l.wFrames + 1, wBip := l.wBip + e }

/-- What a lane's decoder and crossing FIFO did for a lane frame. -/
def frameFec (f : LaneFrameIn) : LaneFec :=
  { codewords := f.codewords, corrSym := f.corrSym, corrCw := f.corrCw, uncorr := f.uncorr, late := f.late, overrun := f.overrun }

/-- The payload of a frame goes into the deskew buffers of an admitted lane, at most 55 frames of it; a lane that is not
admitted holds none (R98, R101). -/
def HState.bufferFrame (x : HState) (k m : Nat) (payload : List (Nat × Bool)) : HState :=
  let l := x.rxLane k
  match x.img.laneGroup k with
  | some g =>
    if x.admitted g k then
      let b := l.bufs ++ [(m, payload)]
      x.setRxLane k { l with bufs := b.drop (b.length - 55) }
    else x.setRxLane k { l with bufs := [] }
  | none => x.setRxLane k { l with bufs := [] }

/-- A lane frame at the predicted position of a lane in SYNC (R93, R81–R88, R97–R99): the hail message that it completes
(R85), and the state. DESIGN CHOICE: notes/assumptions/45.md. -/
def State.laneFrame (s : State) (half : Half) (lane : Nat) (f : LaneFrameIn) : Option (List Nat) × State :=
  let x := s.half half
  let l := x.rxLane lane
  let n := 32 + lane
  let s := s.laneFec half n (frameFec f)
  let bad := decide (3 < f.fasErrors) || decide (f.ovh.getD 1 0 ≠ l.mfas)
  let s := if bad then s.count half 1 n 7 else s
  if bad && decide (x.img.lossM ≤ l.run + 1) then (none, (s.huntLane half lane).lineChanged half x)
  else
    let m := l.mfas
    let errs := l.bipCheck f.ovhOk f.ovh
    let l := { l with run := if bad then l.run + 1 else 0, mfas := (m + 1) % 256, advance := f.advanceNs,
                      wCw := l.wCw + f.codewords, wUncorr := l.wUncorr + f.uncorr,
                      bip := some (frameBip f.ovh (f.payload.map Prod.fst)) }
    let l := if f.ovhOk then l.overhead m f.ovh else l
    let l := match errs with | some e => l.bipSeen e | none => l
    let seg := segment 32 2048 l.hail (if f.ovhOk then f.ovh.getD 5 0 else 0) ((f.ovh.drop 6).take 32)
    let g := l.gobShare m f.ovhOk ((f.ovh.drop 38).take 16)
    let s := match errs with | some e => s.count half 1 n 5 e | none => s
    let s := if f.ovhOk then s.count half 1 n 6 (f.ovh.getD 4 0 % 32) else s
    let s := s.count half 1 n 9 seg.2.2
    let s := s.modHalf half fun y => (y.setRxLane lane { g.1 with hail := seg.1 }).updLids
    let s := match x.img.laneGroup lane, g.2 with
      | some gr, some blk => s.modHalf half fun y => y.takeBlock gr lane (m / 4) blk
      | _, _ => s
    (seg.2.1, (s.lineChanged half x).modHalf half fun y => y.bufferFrame lane m f.payload)

/-! ## Retimes and windows (R100, R103) -/

/-- RETIME_IN_FORCE (R100): the new release point of a group's deskew set is in force. DESIGN CHOICE:
notes/assumptions/45.md. -/
def execRetimeInForce (half : Half) (g : Nat) (s : State) : Host.Outcome State Fault Refusal :=
  onUnit (decide (g < 16)) <|
    let x := s.half half
    (s.modHalf half fun y => (y.img.deskewSet g).foldl (fun y g' =>
      y.setGrp g' { y.grp g' with retiming := false }) y).lineChanged half x

/-- Raise above the threshold 10^−exp, clear at a tenth of it, for two ratios of errors to a total. -/
def degraded (was : Bool) (exp e1 n1 e2 n2 : Nat) : Bool :=
  if n1 < e1 * 10 ^ exp ∨ n2 < e2 * 10 ^ exp then true
  else if e1 * 10 ^ (exp + 1) ≤ n1 ∧ e2 * 10 ^ (exp + 1) ≤ n2 then false
  else was

/-- The window of Table 03.9 for a threshold exponent, in ns. -/
def degWindowNs (exp : Nat) : Nat := if exp ≤ 6 then 1000000 else 10 ^ (exp - 1)

/-- The window of a lane has run for the length that its group's exponent gives; a lane of no enabled group has none. -/
def HState.laneWindow (x : HState) (k now : Nat) : Bool :=
  match x.img.laneGroup k with
  | some g => decide ((x.rxLane k).wAt + degWindowNs (x.img.groupDegExp g) ≤ now)
  | none => true

/-- DEG_WINDOW_END (R103, Table 03.9; PDEG of Table 04.9): a window that held a frame outside SYNC, or a row that the side
could not take, is not evaluated; nothing ends before the window's length is over. DESIGN CHOICE:
notes/assumptions/45.md. -/
def execDegWindowEnd (half : Half) (scope : DegScope) (s : State) : Host.Outcome State Fault Refusal :=
  match scope with
  | .lane k =>
    onUnit (decide (k < 32)) <|
      let x := s.half half
      let l := x.rxLane k
      if !x.laneWindow k s.now then s
      else
        let deg := match x.img.laneGroup k with
          | some g => if l.wBad then l.deg
              else degraded l.deg (x.img.groupDegExp g) l.wBip (131006 * l.wFrames) l.wUncorr l.wCw
          | none => false
        let s := s.modHalf half fun y => y.setRxLane k
          { l with deg, wAt := s.now, wFrames := 0, wBip := 0, wCw := 0, wUncorr := 0, wBad := !l.sync }
        s.noteAll half
  | .side t sd =>
    onUnit (decide (t < 32)) <|
      let x := s.half half
      let v := x.side t sd
      if !x.img.tribEn t || !(x.img.tribSides t).contains sd || decide (s.now < v.wAt + degWindowNs (x.img.pdegExp t)) then s
      else
        let pdeg := if v.wBad then v.pdeg
          else degraded v.pdeg (x.img.pdegExp t) v.wErr (129024 * v.wRows) 0 0
        let wBad := x.slotFail t sd || x.sideLop t sd
        (s.modHalf half fun y => y.setSide t sd
          { v with pdeg, wAt := s.now, wRows := 0, wErr := 0, wBad }).noteSide half t sd

/-! ## The overhead sent (R78, R82, R84, R86, R121) -/

/-- The line lanes that send lane frames: causeway lanes in ACTIVE with traffic selected. -/
def HState.sendsFrames (x : HState) (k : Nat) : Bool :=
  x.img.cageCwy (k / 8) && (x.lane (32 + k)).inActive && decide (x.img.lanePattern (32 + k) = 0)

/-- Byte 8 (R78). -/
def HState.sentIdent (x : HState) (k mfas : Nat) : Nat :=
  match x.img.laneGroup k with
  | none => 0xFF
  | some g => if mfas % 2 = 0 then 8 * x.img.laneLpos g k else 16 * g

/-- Byte 12 (R82).  RDEG follows DEG also where LID masks DEG. DESIGN CHOICE: notes/assumptions/114.md. -/
def HState.sentRemote (x : HState) (k : Nat) : Nat :=
  match x.img.laneGroup k with
  | none => 128
  | some g =>
    match (x.img.groupLanes g).find? (fun j => decide ((x.rxLane j).lpos = some (x.img.laneLpos g k))) with
    | none => 128
    | some j =>
      let l := x.rxLane j
      let bad := x.los j || !l.sync || l.lid || l.lod
      128 * b2n bad + 64 * b2n l.deg + (if bad then 0 else l.rei)

/-- The tributary map of a group with the sets in use that `alt` gives (R121); LPOS values that the group does not have are
0xFF. -/
def Image.tribMap (im : Image) (alt : Tab Bool) (g : Nat) : List Nat :=
  let im := { im with alt }
  (List.range 32).map fun p =>
    if (im.groupLanes g).length ≤ p then 0xFF
    else (im.allSides.findSome? fun ts =>
      ((im.slotsInUse ts.1 ts.2).zipIdx.find? fun si => decide (si.1 = (g, p))).map fun si => 8 * ts.1 + si.2).getD 0xFF

/-- The group overhead block (Table 03.4). -/
def Image.gob (im : Image) (alt : Tab Bool) (g : Nat) : List Nat :=
  withCrc ([16 * g + 1, (im.groupLanes g).length - 1, 0, 0] ++ im.tribMap alt g ++ List.replicate 24 0)

/-- Bytes 46–61 of a lane's frame: of a lane of an enabled group, its share of the block that the group built last; before
the first boundary modulo 4 since EN there is none, and the bytes are 0x00. DESIGN CHOICE: notes/assumptions/114.md. -/
def HState.sentGob (x : HState) (k mfas : Nat) : List Nat :=
  match x.img.laneGroup k with
  | none => List.replicate 16 0
  | some g => bytesAt (tabGet [] x.gobTx g) (16 * (mfas % 4)) 16

/-- The blocks are built afresh at a boundary modulo 4, with the sets in use before this frame: the map changes from the
first block period that starts after a switch frame (R86, R121). -/
def HState.buildGobs (x : HState) (mfas : Nat) : HState :=
  let x := if mfas % 4 = 0 then
      { x with gobTx := ((List.range 16).filter x.img.groupEn).map fun g => (g, x.img.gob x.mapAlt g) }
    else x
  { x with mapAlt := x.img.alt }

/-- Bytes 0 to 63 of the frame that line lane `k` sends: with the BIP of the lane's frame before, free where it sent none,
and the next segment of the hail message that waits for it (R80, R84). DESIGN CHOICE: notes/assumptions/114.md. -/
def HState.sentHead (x : HState) (k mfas fv : Nat) : List Nat :=
  let seg := (tabGet [] x.hailTx k).headD (0, [])
  let bip := match tabGet 0 x.bipTx k with
    | 0 => Config.freeNat fv % 65536
    | b + 1 => b
  laneHead (x.sentIdent k mfas) mfas bip (x.sentRemote k) seg.1 seg.2 (x.sentGob k mfas)

/-- The payload of a line lane's frame: the slot of its group that it carries; a lane of no enabled group carries no slot.
DESIGN CHOICE: notes/assumptions/114.md. -/
def HState.sentPayload (x : HState) (slots : Tab (List Nat)) (k : Nat) : List Nat :=
  match x.img.laneGroup k with
  | some g => tabGet unusedSlot slots (32 * g + x.img.laneLpos g k)
  | none => unusedSlot

/-- The frame of one lane goes out, to the slipway of the half that drives; its BIP is for the lane's next frame (R80). -/
def State.sendLane (s : State) (h : Half) (slots : Tab (List Nat)) (drives : Bool) (k : Nat) : State :=
  let x := s.half h
  let head := x.sentHead k x.mfas s.fv
  let payload := x.sentPayload slots k
  let s := { s with fv := s.fv + 1 }.modHalf h fun y => { y with
    bipTx := tabSet 0 y.bipTx k (1 + frameBip (head.drop 8) payload),
    hailTx := tabSet [] y.hailTx k ((tabGet [] y.hailTx k).drop 1) }
  if drives then s.emit (.lane k head payload) else s

/-- The frames of every sending lane, with the slots that they carry by 32 × group + LPOS (R75). -/
def State.sendLanes (s : State) (h : Half) (slots : Tab (List Nat)) (drives : Bool) : State :=
  ((List.range 32).filter (s.half h).sendsFrames).foldl (fun s k => s.sendLane h slots drives k) s

end Sys2Proof.Machine
end

