-- ==== Sys2Proof/Machine/Tributary.lean ====
section
/-! DEFINITION. Tributaries, containers and pointers (04): the pointer interpreter, container rows received, the rows
and pointers that a lane frame sends, hub pointer adjustments, forced conditions, client faults and the tributary
message channel. -/

namespace Sys2Proof.Machine

open Sys2Proof

/-! ## Pointer interpretation (R127, Table 04.6) -/

/-- (ACT, P) of one copy of the pointer word. -/
def ptrCopy (ptr : List Nat) (i : Nat) : Nat × Nat :=
  (ptr.getD (4 * i) 0 / 64, ptr.getD (4 * i + 2) 0 * 256 + ptr.getD (4 * i + 3) 0)

/-- The frame's received pointer: what two copies carry alike, P at most 1,017. -/
def rcvPtr (ptr : List Nat) : Option (Nat × Nat) :=
  let a := ptrCopy ptr 0
  let b := ptrCopy ptr 1
  let c := ptrCopy ptr 2
  let v := if a = b ∨ a = c then some a else if b = c then some b else none
  match v with
  | some p => if p.2 ≤ 1017 then some p else none
  | none => none

/-- What an interpreted frame did beside its state. -/
inductive PtrAct where
  | none_
  | inc
  | dec
  /-- PTR_JUMP: old and new pointer; cause new accepted 0, three equal values 1. -/
  | jump (old new_ cause : Nat)
deriving DecidableEq, Repr

/-- Run counts cleared. -/
def SlotRx.noRuns (r : SlotRx) : SlotRx := { r with inv := 0, diff := 0, nw := 0, lopRun := 0 }

/-- An invalid frame in NORM. -/
def SlotRx.invalid (r : SlotRx) : SlotRx :=
  if r.inv + 1 = 8 then { r.noRuns with norm := false } else { r.noRuns with inv := r.inv + 1 }

/-- One frame of Table 04.6, before its age is counted. -/
def SlotRx.ptrStep (r : SlotRx) (rcv : Option (Nat × Nat)) : SlotRx × PtrAct :=
  if r.norm then
    match rcv with
    | none => (r.invalid, .none_)
    | some (act, p) =>
      if act = 0 then
        if p = r.cur then (r.noRuns, .none_)
        else
          let d := if r.diff ≠ 0 ∧ r.diffVal = p then r.diff + 1 else 1
          if d = 3 then ({ r.noRuns with cur := p }, .jump r.cur p 1)
          else ({ r.noRuns with diff := d, diffVal := p }, .none_)
      else if act = 3 then
        let r' := { r.noRuns with cur := p, nw := r.nw + 1, sinceAcc := 0 }
        let r' := if r.nw + 1 = 9 then { r'.noRuns with norm := false } else r'
        (r', if p = r.cur then .none_ else .jump r.cur p 0)
      else if p = r.cur ∧ 3 ≤ r.sinceAcc then
        if act = 1 then ({ r.noRuns with cur := (r.cur + 1) % 1018, sinceAcc := 0 }, .inc)
        else ({ r.noRuns with cur := (r.cur + 1017) % 1018, sinceAcc := 0 }, .dec)
      else (r.invalid, .none_)
  else
    match rcv with
    | some (act, p) =>
      if act = 0 ∨ act = 3 then
        let n := if r.lopRun ≠ 0 ∧ r.lopVal = p then r.lopRun + 1 else 1
        if n = 3 then ({ r.noRuns with cur := p, norm := true }, .none_)
        else ({ r.noRuns with lopVal := p, lopRun := n }, .none_)
      else (r.noRuns, .none_)
    | none => (r.noRuns, .none_)

/-- A frame interpreted: the age since the last accepted adjustment or new counts the frames after it. -/
def SlotRx.ptrFrame (r : SlotRx) (rcv : Option (Nat × Nat)) : SlotRx × PtrAct :=
  let (r', a) := r.ptrStep rcv
  let accepted := match a, rcv with
    | .inc, _ | .dec, _ => true
    | _, some (3, _) => r.norm
    | _, _ => false
  ({ r' with sinceAcc := if accepted then 0 else min 4 (r.sinceAcc + 1) }, a)

/-! ## Container overhead (R116, R124) -/

/-- The value that at least two of three carry. -/
def two3 (a b c : Nat) : Option Nat := if a = b ∨ a = c then some a else if b = c then some b else none

/-- JC of a row (R124): the slot, and whether a JC error counts. -/
def SlotRx.jcRow (r : SlotRx) (coh : List Nat) : SlotRx × Bool :=
  match two3 (coh.getD 2 0) (coh.getD 3 0) (coh.getD 4 0) with
  | some v =>
    if v ≤ 128 then
      let n := min 3 (r.jcGood + 1)
      ({ r with lastJc := v, jcBad := 0, jcGood := n, loc := r.loc && decide (n < 3) }, false)
    else
      let n := min 3 (r.jcBad + 1)
      ({ r with jcBad := n, jcGood := 0, loc := r.loc || decide (n = 3) }, true)
  | none =>
    let n := min 3 (r.jcBad + 1)
    ({ r with jcBad := n, jcGood := 0, loc := r.loc || decide (n = 3) }, true)

/-- A flag bit by the majority of the three copies. -/
def flagBit (coh : List Nat) (i : Nat) : Bool :=
  let b := fun j => coh.getD j 0 / 2 ^ i % 2
  decide (2 ≤ b 5 + b 6 + b 7)

/-- NOKEY after a row (R158). DEDUCED: notes/assumptions/42.md. -/
def TribSt.nokeyRow (r : TribSt) (selects : Bool) : TribSt :=
  if selects then
    let n := r.keyRun + 1
    { r with nokeyRun := 0, keyRun := min 3 n, nokey := r.nokey && decide (n < 3) }
  else
    let n := r.nokeyRun + 1
    { r with keyRun := 0, nokeyRun := min 3 n, nokey := r.nokey || decide (3 ≤ n) }

/-- A container multiframe ends on the receive side: the ages that R162 counts. -/
def RxAssoc.multiframe (a : RxAssoc) : RxAssoc :=
  { a.mapSlots (fun k => if k.st = 0 then k else { k with idle := k.idle + 1 }) with
    mfLive := a.mfLive + 1, mfConf := a.mfConf + 1 }

/-- PMM over the slots of a side, once per frame (R128). -/
def SideSt.pmmFrame (v : SideSt) (k : Nat) : SideSt :=
  let rs := (List.range k).map v.slot
  if !(rs.all (·.norm)) then { v with pmmRun := 0 }
  else
    let differ := rs.any fun r => decide (r.cur ≠ (v.slot 0).cur)
    if differ = v.pmm then { v with pmmRun := 0 }
    else if v.pmmRun + 1 = (if v.pmm then 3 else 2) then { v with pmm := differ, pmmRun := 0 }
    else { v with pmmRun := v.pmmRun + 1 }

/-- Object of the SLOT statistics. -/
def slotObj (t : Nat) (sd : Side) (i : Nat) : Nat := 16 * t + 8 * sd.idx + i

/-- The path errors of the row before, if its PBIP is known and the COH can be used (R115, R116). -/
def SlotRx.pbipCheck (r : SlotRx) (coh : List Nat) : Option Nat :=
  match r.pbip with
  | some b => if crcOk coh then some (bipErrors b (beNat (bytesAt coh 16 2))) else none
  | none => none

/-- The COH of a row of a slot (R115, R116, R124, TMM of Table 04.9), its counts included.  The path error count stays as it
was where no comparison is made, and PREI sends it again. DEDUCED: notes/assumptions/47.md. DESIGN CHOICE:
notes/assumptions/115.md. -/
def State.cohRow (s : State) (h : Half) (t : Nat) (sd : Side) (i : Nat) (coh : List Nat) : State :=
  let x := s.half h
  let v := x.side t sd
  let r := v.slot i
  let o := slotObj t sd i
  let errs := r.pbipCheck coh
  let (r, jcErr) := r.jcRow coh
  let s := if jcErr then s.count h 2 o 2 else s
  let s := s.count h 3 t 6
  if crcOk coh then
    let mism := decide (coh.getD 0 0 ≠ 8 * t + i) || decide (coh.getD 1 0 / 64 ≠ x.img.tribSize t)
    let r := { r with cfc := beNat (bytesAt coh 8 8), pathErr := errs.getD r.pathErr, tmmRow := r.tmmRow.see mism }
    let s := (s.count h 2 o 4 (errs.getD 0)).count h 2 o 5 (coh.getD 18 0 % 32)
    s.modHalf h fun y => y.setSide t sd { v.setSlot i r with
      wRows := v.wRows + b2n errs.isSome, wErr := v.wErr + errs.getD 0 }
  else
    let r := { r with cfc := (r.cfc + 1) % 2 ^ 64 }
    (s.count h 2 o 3).modHalf h fun y => y.setSide t sd (v.setSlot i r)

/-- The flags of a side, and the key that a terminating side's row selects (slot index 0; R116, R153, R158); the message that
its segment completes (R117).  DEDUCED: NOKEY and ACF, which fail a side, do not stop its message channel, or no first key
could ever be agreed (R159). -/
def State.flagRow (s : State) (h : Half) (t : Nat) (sd : Side) (coh : List Nat) : Option (List Nat) × State :=
  let x := s.half h
  let v := x.side t sd
  let kp := flagBit coh 5
  let v := { v with cais := v.cais.see (flagBit coh 7), csf := v.csf.see (flagBit coh 6),
                    prdi := v.prdi.see (flagBit coh 4) }
  let v := v.setSlot 0 { v.slot 0 with ais := flagBit coh 7, kp }
  if x.img.termTrib t then
    let ctl := if crcOk coh && !x.sideCut t sd then coh.getD 19 0 else 0
    let seg := segment 48 4096 v.tmc ctl ((coh.drop 20).take 48)
    let s := s.modHalf h fun y => (y.setSide t sd { v with tmc := seg.1 }).setTrib t
      ((y.trib t).nokeyRow ((y.img.rxA t).selKp kp).isSome)
    (seg.2.1,
      if ((x.side t sd).slot 0).cfc % 256 = 0 then
        (s.modHalf h fun y => y.setTrib t { y.trib t with failPosted := false }).modImg h fun im =>
          im.setRx t (im.rxA t).multiframe
      else s)
  else (none, s.modHalf h fun y => y.setSide t sd v)

/-! ## Rows received (R116, R127, R129) -/

/-- The admitted lane that carries a slot (R101). -/
def HState.slotLane (x : HState) (g p : Nat) : Option Nat :=
  (x.img.groupLanes g).find? fun k => x.admitted g k && decide ((x.rxLane k).lpos = some p)

/-- The words of a slot in the frame of an MFAS, out of its lane's deskew buffers. -/
def HState.slotWords (x : HState) (g p m : Nat) : Option (List (Nat × Bool)) :=
  match x.slotLane g p with
  | some k => ((x.rxLane k).bufs.find? fun b => decide (b.1 = m)).map (·.2)
  | none => none

/-- The buffers of a slot's frame are released. -/
def HState.release (x : HState) (g p m : Nat) : HState :=
  match x.slotLane g p with
  | some k => x.setRxLane k { x.rxLane k with bufs := (x.rxLane k).bufs.filter fun b => decide (b.1 ≠ m) }
  | none => x

/-- The parts of a frame's container area: what goes on with the row in progress, then each row that starts (R125). -/
def rowParts {α : Type} (act p : Nat) (area : List α) : List (Bool × List α) :=
  match (rowStarts act p).map (· - areaStart act) with
  | [] => [(false, area)]
  | [a] => [(false, area.take a), (true, area.drop a)]
  | a :: b :: _ => [(false, area.take a), (true, slice area a b), (true, area.drop b)]

/-- Words into the elastic store of a slot toward an outgoing side (R129); a slot out of step waits for a row to start. -/
def SideSt.write (v : SideSt) (i : Nat) (starts : Bool) (ws : List Nat) : SideSt :=
  if v.unsync.contains i && !starts then v
  else { v with store := tabSet [] v.store i (tabGet [] v.store i ++ ws), unsync := v.unsync.filter (· ≠ i) }

/-- The outgoing side sets P afresh (R131), and its `k` slots come into step at the next rows. -/
def SideSt.restore (v : SideSt) (k : Nat) : SideSt :=
  { v with recentre := true, pend := none, act := 0, store := [], unsync := List.range k }

/-- A row starts (R135, R154): slot index 0 decides for the side, which leaves failed state here; a hub side that does
makes the other side set its pointer afresh (R131). -/
def State.rowStart (s : State) (h : Half) (t : Nat) (sd : Side) (i m : Nat) : State :=
  s.modHalf h fun x =>
    let v := x.side t sd
    let late := if i = 0 then x.sideCut t sd || (!x.img.tribPass t && (x.trib t).nokey) else (v.slot 0).late
    let leaves := decide (i = 0) && v.held && !x.sideCause t sd
    let v := v.setSlot i { v.slot i with part := some [], start := m, late }
    let x := x.setSide t sd { v with held := v.held && !leaves }
    if leaves && x.img.tribPass t then
      x.setSide t (otherSide sd) ((x.side t (otherSide sd)).restore (x.img.tribSlots t))
    else x

/-- A row has ended: its PBIP waits for the next row, and a terminating side's rows of one frame go to the cipher stage once
each slot has brought its own. -/
def State.rowEnd (s : State) (h : Half) (t : Nat) (sd : Side) (i : Nat) (words : List (Nat × Bool)) : State :=
  let x := s.half h
  let v := x.side t sd
  let r := v.slot i
  let row : RxRow := { start := r.start, words, cfc := r.cfc, jc := r.lastJc, ais := (v.slot 0).ais, kp := (v.slot 0).kp,
                       failed := r.late }
  let r := { r with part := none, pbip := some (rowPbip (words.map Prod.fst)) }
  if !x.img.termTrib t then s.modHalf h fun y => y.setSide t sd (v.setSlot i r)
  else
    let rows := r.rows ++ [row]
    let v := v.setSlot i { r with rows := rows.drop (rows.length - 2) }
    let is := List.range (x.img.tribSlots t)
    let got := is.filterMap fun j => (v.slot j).rows.find? fun w => decide (w.start = r.start)
    if got.length < is.length then s.modHalf h fun y => y.setSide t sd v
    else
      (s.modHalf h fun y => y.setSide t sd (is.foldl (fun v j => v.setSlot j { v.slot j with rows := [] }) v)).decryptRows
        h t got

/-- A part of a slot's rows arrives: answers the messages that its overhead completes. -/
def State.rowPart (h : Half) (t : Nat) (sd : Side) (i m : Nat) (a : List (List Nat) × State) (p : Bool × List (Nat × Bool)) :
    List (List Nat) × State :=
  let s := if p.1 then a.2.rowStart h t sd i m else a.2
  let x := s.half h
  let v := x.side t sd
  let s := if x.img.tribPass t && !x.sideFailed t sd then
      s.modHalf h fun y => y.setSide t (otherSide sd) ((y.side t (otherSide sd)).write i p.1 (p.2.map Prod.fst)) else s
  match (v.slot i).part with
  | none => (a.1, s)
  | some old =>
    let now := old ++ p.2
    let s := s.modHalf h fun y => y.setSide t sd ((y.side t sd).setSlot i { (y.side t sd).slot i with part := some now })
    let b := if old.length < 10 ∧ 10 ≤ now.length then
        let coh := (now.take 10).flatMap fun w => wordBytes w.1
        let s := s.cohRow h t sd i coh
        if i = 0 then s.flagRow h t sd coh else (none, s)
      else (none, s)
    (a.1 ++ b.1.toList, if 1018 ≤ now.length then b.2.rowEnd h t sd i (now.take 1018) else b.2)

/-- A slot without rows in this frame, failed or in LOP: its side's open message is lost (R117), and what the cipher stage
has in progress is broken by a failed side (R154). -/
def HState.rowsLost (x : HState) (t : Nat) (sd : Side) (i : Nat) : HState :=
  let v := x.side t sd
  let x := x.setSide t sd { v.setSlot i { v.slot i with part := none, rows := [], pbip := none } with
    tmc := none, wBad := true }
  let r := x.trib t
  if x.img.termTrib t then
    x.setTrib t { r with lastCut := true, rxSpan := r.rxSpan.map fun w => { w with failed := true } }
  else x

/-- The ACT under which a frame is read: an accepted increment or decrement, else none (Table 04.6). -/
def PtrAct.act : PtrAct → Nat
  | .inc => 1
  | .dec => 2
  | _ => 0

/-- A lane frame of one slot: its pointer word, then the rows that the current value locates (R127, R128); answers the
messages delivered. -/
def State.slotFrameRx (s : State) (half : Half) (t : Nat) (side : Side) (slot m : Nat) (words : List (Nat × Bool)) :
    List (List Nat) × State :=
  let x := s.half half
  let im := x.img
  let v := x.side t side
  let old := v.slot slot
  let (sl, act) := old.ptrFrame (rcvPtr (wordBytes ((words.headD (0, false)).1)))
  let v := v.setSlot slot sl
  let v := if slot + 1 = im.tribSlots t then v.pmmFrame (im.tribSlots t) else v
  let s := s.modHalf half fun y => y.setSide t side v
  let s := match act with
    | .inc => s.count half 2 (slotObj t side slot) 0
    | .dec => s.count half 2 (slotObj t side slot) 1
    | .jump a b c => s.post half .level 0x0A06
        [(1, half.idx), (1, t), (1, side.idx), (1, slot), (2, a), (2, b), (1, c)] (.dom (im.tribDomain t))
    | .none_ => s
  if !sl.norm then ([], s.modHalf half fun y => y.rowsLost t side slot)
  else
    let p := if act.act = 0 then sl.cur else old.cur
    (rowParts act.act p (areaOf act.act words)).foldl (State.rowPart half t side slot m) ([], s)

/-- Messages that the channel delivers wait for TMC_MESSAGE_RX (R117). -/
def HState.deliver (x : HState) (t : Nat) (ms : List (List Nat)) : HState :=
  if ms = [] then x else x.setTrib t { x.trib t with tmcRx := (x.trib t).tmcRx ++ ms }

/-- CONTAINER_ROW_RX (R116, R127, R128, R134): the frame of an MFAS of one slot of a side is released from deskew; the slots
of a side come in the order of their indices.  A failed slot delivers nothing (R101, R104). -/
def execContainerRowRx (half : Half) (t : Nat) (side : Side) (slot mfas : Nat) (s : State) :
    Host.Outcome State Fault Refusal :=
  onUnit (decide (t < 32 ∧ slot < 8)) <|
    let x := s.half half
    let im := x.img
    if !x.up || !im.tribEn t || !(im.tribSides t).contains side || decide (im.tribSlots t ≤ slot) then s
    else
      let gp := (im.slotsInUse t side).getD slot (0, 0)
      if x.slotFailed gp.1 gp.2 then
        ((s.modHalf half fun y => y.rowsLost t side slot).noteCipher half t).lineChanged half x
      else match x.slotWords gp.1 gp.2 mfas with
        | none => s
        | some ws =>
          let r := (s.modHalf half fun y => y.release gp.1 gp.2 mfas).slotFrameRx half t side slot mfas ws
          ((r.2.modHalf half fun y => y.deliver t r.1).noteCipher half t).lineChanged half x

/-! ## Rows and pointers sent (R114, R123, R126, R129–R131, R137) -/

/-- JC total of a frame (R123): halves round up. -/
def jcTotalOf (fill k : Nat) : Nat :=
  let e : Int := (fill : Int) - 2048 * k
  (min (max ((4 * 53 * k + e + 2) / 4) 0) (128 * k : Int)).toNat

/-- The transmit association has a usable key (R159). -/
def TxAssoc.usable (a : TxAssoc) : Bool := (a.inSt 2).isSome

/-- The transmit rows of a terminating side are AIS rows: standby (R411), forced (R138), or without a key (R159). -/
def HState.sendsAis (x : HState) (t : Nat) : Bool :=
  !x.helm.st.active || decide (tabGet 0 x.img.forced (2 * t) = 1) || !(x.img.txA t).usable

/-- The mapper sends the substitute stream: a client ingress fault (R110), or a forced transmit substitute (R138). -/
def HState.substitutes (x : HState) (t : Nat) : Bool :=
  (x.trib t).fault || decide (tabGet 0 x.img.forced (2 * t) = 2)

/-- FLAGS of the transmit rows of a terminating side: AIS, CSF, KP, PRDI in bits 7 to 4 (Table 04.4). -/
def HState.sentFlags (x : HState) (t : Nat) : Nat :=
  if x.sendsAis t then 128
  else
    let kp := match (x.img.txA t).inSt 2 with | some k => k.epoch % 2 | none => 0
    let prdi := x.sideFailed t .A || (x.side t .A).cais.on
    64 * b2n (x.substitutes t) + 32 * kp + 16 * b2n prdi

/-- PREI of each slot's row (R137). -/
def HState.sentPrei (x : HState) (t : Nat) : List Nat :=
  (List.range (x.img.tribSlots t)).map fun i =>
    if x.sendsAis t || x.sideFailed t .A then 0 else ((x.side t .A).slot i).pathErr

/-- Loss of signal on a client lane of a terminating tributary (R109, R110). -/
def HState.clientLos (x : HState) (t : Nat) : Bool :=
  (List.range (x.img.tribSlots t)).any fun i => !((x.lane (t + i)).signal && (x.lane (t + i)).lock)

/-- A condition of R110 is present at a terminating tributary's client ingress. -/
def HState.clientBad (x : HState) (t : Nat) : Bool := (x.trib t).fec || (x.trib t).pcs || x.clientLos t

/-- The faults of R110 as a frame finds them. -/
def HState.seeClient (x : HState) (t now : Nat) : HState :=
  if x.clientBad t then x.setTrib t { x.trib t with fault := true, faultAt := now } else x

/-- The substitute stream over a frame of an MFAS (R110): at k × 200.78125 Gb/s for the frame's 138,570 or 138,870 bits at
224.0 Gb/s, in 7,168ths of a bit. -/
def TribSt.substitute (r : TribSt) (k m : Nat) : List Bool × TribSt :=
  let d := r.subFrac + (if m % 2 = 0 then 138570 else 138870) * 6425 * k
  ((List.range (d / 7168)).map fun i => Config.substituteBit k (r.subSent + i),
   { r with subSent := r.subSent + d / 7168, subFrac := d % 7168 })

/-- What enters the mapper during a frame: the client's stream bits, or the substitute stream; the substitute ends at the
boundary of a 257b block (R110). -/
def TribSt.mapped (r : TribSt) (subst : Bool) (k m : Nat) (client : List Bool) : List Bool × TribSt :=
  if subst then r.substitute k m
  else
    let tail := (257 - r.subSent % 257) % 257
    ((List.range tail).map (fun i => Config.substituteBit k (r.subSent + i)) ++ client, { r with subSent := 0, subFrac := 0 })

/-- Bits from a store, free where it holds fewer. -/
def takeBits (n fv : Nat) (bs : List Bool) : List Bool :=
  bs.take n ++ (List.range (n - bs.length)).map fun i => decide (Config.freeNat (fv + i) % 2 = 1)

/-- Words from a store, free where it holds fewer. -/
def takeWords (n fv : Nat) (ws : List Nat) : List Nat :=
  ws.take n ++ (List.range (n - ws.length)).map fun i => Config.freeNat (fv + i) % 2 ^ 128

/-- PBIP for the next row of a slot: free before the first row. -/
def pbipOf (t : Tab Nat) (i fv : Nat) : Nat :=
  match tabGet 0 t i with
  | 0 => Config.freeNat (fv + i) % 65536
  | b + 1 => b

/-- The slots of a frame by 32 × group + LPOS. -/
def putSlots (slots : Tab (List Nat)) (gps : List (Nat × Nat)) (ws : List (List Nat)) : Tab (List Nat) :=
  (gps.zip ws).foldl (fun t p => tabSet [] t (32 * p.1.1 + p.1.2) p.2) slots

/-- The rows of a terminating tributary in one frame (R114): what its association has done, and each slot's row.  AIS rows
carry nothing of the stream, and the span that they interrupt stays broken as R152 breaks it. DESIGN CHOICE:
notes/assumptions/109.md. -/
def HState.termRows (x : HState) (t fv : Nat) (jcs : List Nat) (bits : List Bool) : TxAcc × List (List Nat) :=
  let im := x.img
  let k := im.tribSlots t
  let tr := x.trib t
  let c := tabGet 0 im.cfc t
  let ais := x.sendsAis t
  let seg := tr.tmcTx.headD (0, [])
  let prei := x.sentPrei t
  let coh : Nat → List Nat := fun i =>
    cohBytes t i (im.tribSize t) (if ais then 64 else jcs.getD i 0) (x.sentFlags t) c (pbipOf (x.side t .A).pbipTx i fv)
      (prei.getD i 0) (if i = 0 then seg.1 else 0) (if i = 0 then seg.2 else [])
  if ais then
    ({ span := {}, brk := true, words := [], tags := [], spans := 0 }, (List.range k).map fun i => aisRow (coh i))
  else
    let acc := txRows (((im.txA t).inSt 2).getD {}) t (im.tribSize t) (im.spanKib t) k c jcs (sideWords k jcs bits) tr.txSpan
      (im.txA t).brk
    (acc, (List.range k).map fun i => rowWords (coh i) (slotData k i acc.words) (tagWords acc.tags i))

/-- ACT new and the age since the last adjustment or new frame, one frame on (R126). -/
def SideSt.ptrSent (v : SideSt) : SideSt :=
  if v.txNew ≠ 0 then { v with txNew := v.txNew - 1, sinceAdj := 0 } else { v with sinceAdj := min 4 (v.sinceAdj + 1) }

/-- The rows of one frame of a terminating tributary: its stream bits placed (R122, R123), encrypted (R146), and the rows in
its own container areas, with P = 0 (R126). -/
def State.sendRow (s : State) (h : Half) (t : Nat) (client : List Bool) (slots : Tab (List Nat)) : Tab (List Nat) × State :=
  let s := s.modHalf h fun y => y.seeClient t s.now
  let x := s.half h
  let im := x.img
  let k := im.tribSlots t
  let jc := jcTotalOf (x.trib t).store.length k
  let jcs := (List.range k).map (slotJc k jc)
  let (new, tr) := (x.trib t).mapped (x.substitutes t) k x.mfas client
  let stream := tr.store ++ new
  let need := 124288 * k + jc
  let fv := s.fv
  let (acc, rows) := x.termRows t fv jcs (takeBits need (fv + k) stream)
  let v := x.side t .A
  let act := if v.txNew ≠ 0 then 3 else 0
  let v := { v.ptrSent with pbipTx := (rows.zipIdx).map fun p => (p.2, 1 + rowPbip p.1) }
  let s := { s with fv := fv + k + need }.modHalf h fun y => (y.setTrib t
    { tr with store := stream.drop need, jcTotal := jc, txSpan := acc.span, tmcTx := tr.tmcTx.drop 1 }).setSide t .A v
  let slots := putSlots slots (im.slotsInUse t .A) (rows.map (slotFrame act 0))
  if x.helm.st.active then
    let c' := (tabGet 0 im.cfc t + 1) % 2 ^ 64
    let a := im.txA t
    let mf := b2n (decide (c' % 256 = 0))
    let a' := { a with spans := a.spans + acc.spans, brk := acc.brk, mfNext := a.mfNext + mf, mfSwitch := a.mfSwitch + mf }
    (slots, (s.count h 3 t 5 k).modImg h fun im => { im with cfc := tabSet 0 im.cfc t c' }.setTx t a')
  else (slots, s)

/-- The pointer generator of a hub side (R129–R131) at the start of the frame of an MFAS: `w` words came since the last
frame, of which 1,018 were read, and row word `pos` comes next.  A side that sets P afresh does so with a fill of 8; one
whose incoming side is failed adjusts nothing. -/
def SideSt.hubFrame (v : SideSt) (m w pos : Nat) (failed decides : Bool) : SideSt :=
  if v.recentre && !failed then
    { v with txPtr := (1026 - pos % 1018) % 1018, txNew := 3, pend := none, act := 0, fill := 8, recentre := false }
  else
    let fill := min 16 (v.fill + w - 1018)
    let at_ := (m + max (4 + (v.txNew - 1)) (4 - v.sinceAdj)) % 256
    let pend := if failed then none
      else match v.pend with
        | some e => some e
        | none =>
          if !decides || decide (v.act ≠ 0) then none
          else if 11 ≤ fill then some (false, at_) else if fill ≤ 5 then some (true, at_) else none
    { v with fill, pend, act := if failed then 0 else v.act }

/-- The incoming rows of a hub side are not passed on: their side is failed (R131), or AIS is forced (R138). -/
def HState.hubAis (x : HState) (t : Nat) (sd : Side) : Bool :=
  x.sideFailed t (otherSide sd) || decide (tabGet 0 x.img.forced (2 * t) = 1)

/-- What a slot of a hub side sends in a frame: the container area, and what is left. -/
structure HubSlot where
  area  : List Nat
  store : List Nat
  rest  : List Nat
  sent  : List Nat
  pbip  : Nat
deriving DecidableEq, Repr

/-- Words sent, row by row: the words of the row in progress, and 1 + PBIP of the last row that ended. -/
def trackRow (a : List Nat × Nat) (p : Bool × List Nat) : List Nat × Nat :=
  let now := (if p.1 then [] else a.1) ++ p.2
  if 1018 ≤ now.length then ([], 1 + rowPbip (now.take 1018)) else (now, a.2)

/-- A slot of a hub side that passes rows on (R118, R129, R140): the words of its elastic store in order.  In the frame that
sets P afresh the words before row word 0 are free. DESIGN CHOICE: notes/assumptions/109.md. -/
def SideSt.passSlot (v : SideSt) (i act lead fv : Nat) : HubSlot :=
  let store := tabGet [] v.store i
  let n := areaLen act - lead
  let area := takeWords lead fv [] ++ takeWords n (fv + lead) store
  let r := (rowParts act v.txPtr area).foldl trackRow (tabGet [] v.sent i, tabGet 0 v.pbipTx i)
  { area, store := store.drop n, rest := [], sent := r.1, pbip := r.2 }

/-- A slot of a hub side that sends AIS rows (R131): the row in progress ends as ones, or as the AIS row that it is. -/
def SideSt.aisSlot (v : SideSt) (t size i fv : Nat) : HubSlot :=
  let tail := if v.passing then List.replicate v.txPtr onesWord else (tabGet [] v.rest i ++ List.replicate v.txPtr onesWord).take v.txPtr
  let r := trackRow (tabGet [] v.sent i, tabGet 0 v.pbipTx i) (false, tail)
  let pbip := match r.2 with | 0 => Config.freeNat fv % 65536 | b + 1 => b
  let row := aisRow (cohBytes t i size 64 128 0 pbip 0 0 [])
  let b := trackRow r (true, row.take (1018 - v.txPtr))
  { area := tail ++ row.take (1018 - v.txPtr), store := (tabGet [] v.store i).drop 1018,
    rest := row.drop (1018 - v.txPtr), sent := b.1, pbip := b.2 }

/-- A hub side with what its slots have left. -/
def SideSt.putHub (v : SideSt) (hs : List HubSlot) : SideSt :=
  let of : {α : Type} → (HubSlot → α) → Tab α := fun f => hs.zipIdx.map fun p => (p.2, f p.1)
  { v with store := of (·.store), rest := of (·.rest), sent := of (·.sent), pbipTx := of (·.pbip) }

/-- One outgoing side of a pass-through tributary in one frame (R118, R129–R131). -/
def State.sendHub (s : State) (h : Half) (t : Nat) (sd : Side) (w : HubIn) (slots : Tab (List Nat)) :
    Tab (List Nat) × State :=
  let x := s.half h
  let im := x.img
  let k := im.tribSlots t
  let ais := x.hubAis t sd
  let before := x.side t sd
  let v := before.hubFrame x.mfas w.words w.pos ais x.helm.st.active
  let lead := if before.recentre && !v.recentre then v.txPtr else 0
  let act := if v.txNew ≠ 0 then 3 else v.act
  let hs := (List.range k).map fun i =>
    if ais then v.aisSlot t (im.tribSize t) i (s.fv + i) else v.passSlot i act lead (s.fv + 1024 * i)
  let v' : SideSt := { v.ptrSent.putHub hs with
    passing := !ais, act := 0, txPtr := nextPtr act v.txPtr,
    sinceAdj := if act = 1 ∨ act = 2 then 0 else v.ptrSent.sinceAdj,
    fill := if act = 1 then v.fill + 1 else if act = 2 then v.fill - 1 else v.fill }
  (putSlots slots (im.slotsInUse t sd) (hs.map fun u => slotFrame act v.txPtr u.area),
   { s with fv := s.fv + 1024 * k }.modHalf h fun y => y.setSide t sd v')

/-- What the client of a terminating tributary brought in a frame. -/
def clientBits (v : TxIn) (t : Nat) : List Bool := ((v.client.find? fun p => decide (p.1 = t)).map (·.2)).getD []

/-- What an outgoing side of a hub saw in a frame. -/
def hubWords (v : TxIn) (t : Nat) (sd : Side) : HubIn :=
  (v.hub.find? fun w => decide (w.t = t ∧ w.side = sd)).getD { t, side := sd, words := 1018, pos := 0 }

/-- Every outgoing side in one frame, and the slots that they fill. -/
def State.sendSides (s : State) (h : Half) (v : TxIn) : Tab (List Nat) × State :=
  (s.half h).img.allSides.foldl (fun a ts =>
    if (s.half h).img.tribPass ts.1 then a.2.sendHub h ts.1 ts.2 (hubWords v ts.1 ts.2) a.1
    else a.2.sendRow h ts.1 (clientBits v ts.1) a.1) ([], s)

/-- LANE_FRAME_TX (R75, R78–R86, R108, R112–R115, R121–R123, R126, R129–R131): a lane frame starts on every causeway transmit
lane. -/
def execLaneFrameTx (half : Half) (arrived : TxIn) (s : State) : Host.Outcome State Fault Refusal :=
  .next <|
    let x := s.half half
    if !x.up then s
    else
      let m := (x.mfas + 1) % 256
      let a := (s.modHalf half fun y => { y with mfas := m }.buildGobs m).sendSides half arrived
      a.2.sendLanes half a.1 (decide (s.obeyed = some half))

/-- The decided adjustment of a hub side is due in the frame that starts next (R130, R132). -/
def HState.adjustDue (x : HState) (e : Nat) : Bool := decide ((x.mfas + 1 + 256 - e) % 256 < 128)

/-- POINTER_ADJUST (R130): the decided adjustment of a hub side, in the first eligible frame, which is about to start; not
while AIS rows go out (R131). -/
def execPointerAdjust (half : Half) (t : Nat) (side : Side) (s : State) : Host.Outcome State Fault Refusal :=
  onUnit (decide (t < 32)) <|
    let x := s.half half
    let v := x.side t side
    match v.pend with
    | some (inc, e) =>
      if !x.up || !x.img.tribEn t || !x.img.tribPass t || x.hubAis t side || !x.adjustDue e || decide (v.txNew ≠ 0) then s
      else s.modHalf half fun y => y.setSide t side { v with pend := none, act := if inc then 1 else 2 }
    | none => s

/-! ## Switches (R118, R120, R133) -/

/-- A side switches to a set: the slots of the new set start in LOP, ACT new goes out, hub sides are re-centred, and
the deskew sets follow. -/
def State.switchSide (s : State) (h : Half) (t : Nat) (sd : Side) (alt : Bool) : State :=
  let before := s.half h
  let s := s.modImg h fun im => { im with alt := tabSet false im.alt (2 * t + sd.idx) alt }
  let s := s.modHalf h fun x => (x.rowsLost t sd 0).setSide t sd
    { x.side t sd with slots := [], txNew := 3, pmm := false, pmmRun := 0, tmc := none }
  let s := if before.img.tribPass t then
      let k := before.img.tribSlots t
      s.modHalf h fun x => (x.setSide t sd ((x.side t sd).restore k)).setSide t (otherSide sd)
        ((x.side t (otherSide sd)).restore k)
    else s
  let s := ((s.img h).sideGroups t sd).foldl (fun s g => s.rebuildSet h g false) s
  let s := (before.img.sideGroups t sd).foldl (fun s g => s.rebuildSet h g false) s
  ((s.post h .sched 0x0A07 [(1, t), (1, sd.idx), (1, b2n alt), (1, ((s.half h).mfas + 1) % 256)]
    (.dom ((s.img h).tribDomain t))).lineChanged h before).noteLatency h 2

/-- TRIB_FORCE (R138, Table 04.10). DESIGN CHOICE: notes/assumptions/46.md. -/
def execTribForce (h : Hdr) (t : Nat) (dir : Dir) (act : ForceAct) (s : State) : Host.Outcome State Fault Refusal :=
  .next <| s.command h 0x0A41
    (fun x => let im := s.img x
      decide (h.fn ≠ 0) || decide (32 ≤ t) || !im.tribEn t || (decide (act = .substitute) && im.tribPass t))
    (fun _ => [])
    (fun x s =>
      let v := match act with | .ais => 1 | .substitute => 2 | .release => 0
      let before := s.half x
      ((s.modImg x fun im => { im with forced := tabSet 0 im.forced (2 * t + dir.idx) v }).lineChanged x before).done
        x h 0x0A41)

/-! ## Client faults (R110) -/

/-- CLIENT_FAULT (R110): which of loss of FEC alignment and loss of PCS lane alignment are present from now on; with either
the mapper sends the substitute stream with CSF.  Loss of signal is seen at each frame. -/
def execClientFault (half : Half) (v : ClientReport) (s : State) : Host.Outcome State Fault Refusal :=
  onUnit (decide (v.t < 32)) <|
    let x := s.half half
    if x.up && x.img.termTrib v.t then
      s.modHalf half fun y =>
        let r := y.trib v.t
        let any := v.fec || v.pcs || r.fec || r.pcs
        y.setTrib v.t { r with fec := v.fec, pcs := v.pcs, fault := r.fault || v.fec || v.pcs,
                               faultAt := if any then s.now else r.faultAt }
    else s

/-- CLIENT_FAULT_CLEAR (R110): back to the client's stream, once all three conditions have been clear for 1 ms. -/
def execClientFaultClear (half : Half) (t : Nat) (s : State) : Host.Outcome State Fault Refusal :=
  onUnit (decide (t < 32)) <|
    let x := s.half half
    if x.up && x.img.termTrib t && !x.clientBad t && decide ((x.trib t).faultAt + 1000000 ≤ s.now) then
      s.modHalf half fun y => y.setTrib t { y.trib t with fault := false } else s

end Sys2Proof.Machine
end

