-- ==== Sys2Proof/Machine/Time.lean ====
section
/-! DEFINITION. Time commands, servo samples, time connectors, PTP (R367–R384), and the scheduled action table: arming,
firing, re-arming, listing and cancelling (R385–R392). -/

namespace Sys2Proof.Machine

open Sys2Proof

/-! ## Time commands (Table 12.7) -/

/-- TIME_SET (R368, R369). -/
def execTimeSet (h : Hdr) (tb : Nat) (at_ : Instant) (s : State) : Host.Outcome State Fault Refusal :=
  .next <| s.command h 0x0301
    (fun _ => decide (h.fn ≠ 0 ∨ 4 ≤ tb) || !instantOk at_)
    (fun _ => [])
    (fun x s => (s.stepTb x tb (tvUnits at_.time) 1).done x h 0x0301)

/-- TIME_OFFSET (R371, R393): θ in units of 2^−16 ns, with its instant of measurement. -/
def execTimeOffset (h : Hdr) (tb : Nat) (theta : Int) (at_ : Instant) (s : State) :
    Host.Outcome State Fault Refusal :=
  .next <| s.command h 0x0302
    (fun x => decide (h.fn ≠ 0 ∨ 4 ≤ tb) || !instantOk at_ || decide ((s.img x).tbSrc tb ≠ 2) ||
      decide (theta < -(2 ^ 63 : Int) ∨ (2 ^ 63 : Int) ≤ theta))
    (fun _ => [])
    (fun x s =>
      let ns := at_.time.seconds * 1000000000 + at_.time.nanos
      let dt := sinceSample ((s.half x).tb tb).offAt ns
      let s := s.modHalf x fun y => y.setTb tb { y.tb tb with offAt := ns + 1 }
      (s.servo x tb 2 theta dt).done x h 0x0302)

/-- TIME_READ (R370): four instants, then the run number. -/
def execTimeRead (h : Hdr) (addr : Nat) (s : State) : Host.Outcome State Fault Refusal :=
  .next <| s.command h 0x0303 (fun _ => false) (fun _ => [])
    (fun x s => s.reply x h 0x0303 [] addr
      (((List.range 4).map fun n => instFld ((s.half x).tb n).value) ++ [(8, s.flash.run)]))

/-- LATENCY_READ (R382, R383). -/
def execLatencyRead (h : Hdr) (t addr : Nat) (s : State) : Host.Outcome State Fault Refusal :=
  .next <| s.command h 0x0306
    (fun x => decide (32 ≤ t) || !(s.img x).tribEn t)
    (fun _ => [])
    (fun x s =>
      let v := (s.img x).latency t
      s.reply x h 0x0306 [] addr [(8, v.1), (8, v.2)])

/-! ## Samples -/

/-- SERVO_SAMPLE (R371, R372). -/
def execServoSample (tb src : Nat) (theta : Int) (dt : Nat) (s : State) : Host.Outcome State Fault Refusal :=
  onUnit (decide (tb < 4 ∧ src < 5)) <| s.withHolder fun x => s.servo x tb src theta dt

/-- Four expected intervals in ns (Table 12.2): the Sync interval that the PTP engine has heard, or 1 s. DEDUCED:
notes/assumptions/63.md. -/
def HState.holdoverNs (x : HState) (src : Nat) : Nat := if src = 1 then 4 * x.ptp.every else 4000000000

/-- SERVO_HOLDOVER (R372): the last rate is held. -/
def execServoHoldover (tb : Nat) (s : State) : Host.Outcome State Fault Refusal :=
  onUnit (decide (tb < 4)) <| s.withHolder fun x =>
    let b := (s.half x).tb tb
    if (b.st = .acquiring ∨ b.st = .locked) ∧ b.lastAt ≠ 0 ∧
        b.lastAt - 1 + (s.half x).holdoverNs ((s.img x).tbSrc tb) ≤ s.now then
      (s.modHalf x fun y => y.setTb tb { y.tb tb with good := 0 }).servoSt x tb .holdover 0
    else s

/-- `TIM_TC_CFG[c]`. -/
def Image.tcCfg (im : Image) (c : Nat) : Word := im.reg 0 (0xC00100 + 4 * c)
/-- CABLE_NS, two's complement. -/
def Image.cableNs (im : Image) (c : Nat) : Int := (BitVec.ofNat 16 (bits (im.tcCfg c) 15 0)).toInt

/-- θ of a 1PPS edge in units of 2^−16 ns: the edge less the nearest whole second, plus CABLE_NS (R376). -/
def ppsTheta (v : TimeVal) (cable : Int) : Int :=
  let f : Int := v.nanos * 65536 + v.subns
  (if f * 2 < 1000000000 * 65536 then f else f - 1000000000 * 65536) + cable * 65536

/-- Post PPS_LOSS: connector; lost 0 or restored 1. -/
def State.postPps (s : State) (x : Half) (tc restored : Nat) : State :=
  s.post x .cores 0x0303 [(1, tc), (1, restored)]

/-- PPS_EDGE (R376). -/
def execPpsEdge (tc : Nat) (edge : TimeVal) (s : State) : Host.Outcome State Fault Refusal :=
  onUnit (decide (tc < 2)) <| s.withHolder fun x =>
    let w := (s.img x).tcCfg tc
    if bit w 31 then s
    else
      let last := tabGet 0 s.board.ppsAt tc
      let lost := s.board.ppsLost.contains tc
      let s := { s with board := { s.board with ppsAt := tabSet 0 s.board.ppsAt tc (s.now + 1),
                                                ppsLost := s.board.ppsLost.filter (· ≠ tc) } }
      let s := if lost then s.postPps x tc 1 else s
      let n := bits w 29 28
      let far := ppsTheta edge 0
      if ((s.half x).tb n).valid && decide (100000000 * 65536 < far.natAbs) then s
      else s.servo x n (3 + tc) (ppsTheta edge ((s.img x).cableNs tc)) (sinceSample last s.now)

/-- PPS_LOSS (R376). -/
def execPpsLoss (tc : Nat) (s : State) : Host.Outcome State Fault Refusal :=
  onUnit (decide (tc < 2)) <| s.withHolder fun x =>
    if bit ((s.img x).tcCfg tc) 31 || s.board.ppsLost.contains tc ||
        decide (s.now < tabGet 0 s.board.ppsAt tc - 1 + 1100000000) then s
    else { s with board := { s.board with ppsLost := s.board.ppsLost ++ [tc] } }.postPps x tc 0

/-- PPS_OUTPUT_PULSE (R377): within 2 ns of a whole second of the connector's time base less CABLE_NS. -/
def execPpsOutputPulse (tc : Nat) (s : State) : Host.Outcome State Fault Refusal :=
  onUnit (decide (tc < 2)) <| s.withHolder fun x =>
    let w := (s.img x).tcCfg tc
    let b := (s.half x).tb (bits w 29 28)
    let d := ((b.ns : Int) + (s.img x).cableNs tc) % 1000000000
    if bit w 31 && b.valid && decide (d ≤ 2 ∨ 999999998 ≤ d) then s.emit (.pulse tc (bits w 23 16)) else s

/-! ## The PTP engine (R380) -/

/-- A Delay_Req leaves the port of the engine. -/
def State.sendDelayReq (s : State) (x : Half) (port domain : Nat) : State :=
  let n := ((s.half x).ptp.seq + 1) % 65536
  (s.modHalf x fun y => { y with ptp := { y.ptp with seq := n, tx := none } }).originate x port 8 (delayReqFrame port domain n)

/-- PTP_MESSAGE_RX (R380): the slave engine takes a message of its port and domain, and feeds the servo with the offset that
it completes; whether a Delay_Req follows a sample is free. PRESUMED: notes/assumptions/126.md. -/
def execPtpMessageRx (port : Nat) (msg : List Nat) (s : State) : Host.Outcome State Fault Refusal :=
  onUnit (decide (port < 64)) <| s.withHolder fun x =>
    let w := (s.img x).reg 0 0xC00300
    if !bit w 31 || decide (bits w 29 24 ≠ port) || decide (bits w 15 8 ≠ ptpDomain msg) then s
    else
      let r := (s.half x).ptp.take msg s.now
      let s := s.modHalf x fun y => { y with ptp := r.1 }
      match r.2 with
      | some (theta, dt) =>
        let (c, s) := (s.servo x (bits w 21 20) 1 theta dt).draw
        if c % 2 = 0 then s.sendDelayReq x port (ptpDomain msg) else s
      | none => s

/-! ## Arming (R385) -/

/-- TRIB_SWITCH names a tributary, side and set that exist. -/
def Image.switchOk (im : Image) (t : Nat) (sd : Side) (alt : Bool) : Bool :=
  decide (t < 32) && im.tribEn t && (decide (sd = .A) || im.tribPass t) && (!alt || im.tribAlt t sd)

/-- TRIB_SWITCH (R133, R564). -/
def execTribSwitch (h : Hdr) (t : Nat) (side : Side) (alt : Bool) (tb : Nat) (at_ : Instant) (s : State) :
    Host.Outcome State Fault Refusal :=
  .next <| s.command h 0x0A40
    (fun x => decide (h.fn ≠ 0) || !(s.img x).switchOk t side alt || (s.half x).badWhen (.scheduled tb at_))
    (fun x => [((s.img x).schedFull h.fn 1, stNoRes)])
    (fun x s => s.arm x h.fn 0x0A40 (some (cmdOf h 0x0A40)) tb at_.time 0 (.switch t side alt))

/-- TRIB_KEY_STEP (R161, R164, R166). -/
def execTribKeyStep (h : Hdr) (t tb : Nat) (at_ : Instant) (s : State) : Host.Outcome State Fault Refusal :=
  .next <| s.command h 0x0A51
    (fun x => let im := s.img x
      decide (32 ≤ t) || !serves h.fn (im.tribDomain t) || (im.txA t).bound.isNone ||
        (s.half x).badWhen (.scheduled tb at_))
    (fun x => [((s.img x).schedFull h.fn 1, stNoRes)])
    (fun x s => s.arm x h.fn 0x0A51 (some (cmdOf h 0x0A51)) tb at_.time 0 (.keyStep t))

/-! ## Firing (R385–R391) -/

/-- A switch at its firing; the tributary may have changed since it was armed. -/
def State.fireSwitch (s : State) (x : Half) (t : Nat) (sd : Side) (alt : Bool) : Nat × State :=
  if (s.img x).switchOk t sd alt then (stDone, s.switchSide x t sd alt) else (stArgs, s)

/-- The datapath of the standby follows a firing on its own time base, and posts nothing (R390). DEDUCED:
notes/assumptions/66.md. -/
def State.mirror (s : State) (o : Half) (act : SchedAct) : State :=
  if (s.half o).helm.st ≠ .inStep then s
  else
    let fwd := (s.half o).fwd
    let s := match act with
      | .switch t sd alt => (s.fireSwitch o t sd alt).2
      | .shaper a => s.setShaper o a
      | _ => s
    s.modHalf o fun y => { y with fwd }

/-- Complete the command of an entry, if it has one. DEDUCED: notes/assumptions/66.md. -/
def State.firedCpl (s : State) (x : Half) (c : Option Cmd) (late : Bool) (status : Nat) : State :=
  match c with
  | some c => s.postCpl x c (if status = stDone && late then stLate else status) 0 []
  | none => s

/-- What an entry does at its firing (Table 12.6). -/
def State.fireAct (s : State) (x : Half) (e : Sched) (late : Bool) : State :=
  match e.act with
  | .switch t sd alt =>
    let r := s.fireSwitch x t sd alt
    r.2.firedCpl x e.cmd late r.1
  | .keyStep t =>
    let r := s.fireKeyStep x t
    r.2.firedCpl x e.cmd late r.1
  | .activate sc an =>
    match lowest ((s.img x).saFails .tx sc an) with
    | some st => s.firedCpl x e.cmd late st
    | none =>
      let was := ((s.img x).sa .tx sc an).resident
      let s := s.activate x sc an
      match e.cmd with
      | some c =>
        if was then s.firedCpl x e.cmd late stDone
        else s.wait x { cmd := c, on := .sa .tx sc an, status := if late then stLate else stDone, cflags := 0,
                        result := [], area := none, cont := .activate sc an }
      | none => s
  | .shaper a => (s.setShaper x a).firedCpl x e.cmd late stDone
  | .rekey k i => s.fireRekey x k i
  | .drill ms =>
    match e.cmd with
    | some c => if s.handoverBlocked x then s.postCpl x c stNoRes 0 [] else s.startHandover x c late ms (some e.tb)
    | none => s
  | .return_ => if s.handoverBlocked x then s else s.decideHandover x none false 0 none

/-- The next instant of a periodic entry (R389), and how many periods are passed over. -/
def rearm (e : Sched) (value : Nat) : TimeVal × Nat :=
  let p := e.period * 1000000000 * 65536
  let f := tvUnits e.first
  let m := if f ≤ value then (value - f) / p + 1 else 0
  let fired := (tvUnits e.at_ - f) / p
  (timeOf (f + m * p), m - fired - 1)

/-- Count periods passed over as skipped (R389). -/
def State.skipMany (s : State) (x : Half) (k : RekeyKind) (i n : Nat) : State :=
  if n = 0 then s
  else (s.modImg x fun im => { im with
    skips := tabSet 0 im.skips (rekeyKey k i) (tabGet 0 im.skips (rekeyKey k i) + (n - 1)) }).skipRekey x k i true

/-- Fire an entry: it is freed, or re-armed when it is periodic. -/
def State.fire (s : State) (x : Half) (i : Nat) (e : Sched) (late : Bool) : State :=
  let s :=
    if e.period = 0 then s.unarm x i
    else
      let r := rearm e (tvUnits ((s.half x).tb e.tb).value)
      let s := s.modImg x fun im => { im with sched := tabSet none im.sched i (some { e with at_ := r.1, late := false }) }
      match e.act with
      | .rekey k j => s.skipMany x k j r.2
      | _ => s
  (s.fireAct x e late).mirror x.other e.act

/-- An entry whose instant its time base has reached. -/
def HState.due (x : HState) (e : Sched) : Bool := !e.late && decide (tvUnits e.at_ ≤ tvUnits (x.tb e.tb).value)

/-- No other due entry of the time base comes before: by instant, then by arming order (R388). DEDUCED:
notes/assumptions/66.md. -/
def HState.firstDue (x : HState) (e : Sched) : Bool :=
  x.img.sched.all fun p => match p.2 with
    | some v => !(x.due v && decide (v.tb = e.tb)) ||
        decide (tvUnits e.at_ < tvUnits v.at_ ∨ (tvUnits e.at_ = tvUnits v.at_ ∧ e.order ≤ v.order))
    | none => true

/-- SCHED_FIRE (R385, R388): the table waits while its usher FIFO is full (R36). -/
def execSchedFire (entry : Nat) (s : State) : Host.Outcome State Fault Refusal :=
  onUnit (decide (entry < 256)) <| s.withHolder fun x =>
    match (s.img x).schedAt entry with
    | some e => if (s.half x).due e && (s.half x).firstDue e && !(s.half x).srcFull .sched then s.fire x entry e false else s
    | none => s

/-- SCHED_LATE_FIRE (R386, R388): late entries of a time base fire in arming order. -/
def execSchedLateFire (entry : Nat) (s : State) : Host.Outcome State Fault Refusal :=
  onUnit (decide (entry < 256)) <| s.withHolder fun x =>
    match (s.img x).schedAt entry with
    | some e =>
      let first := (s.img x).sched.all fun p => match p.2 with
        | some v => !v.late || decide (v.tb ≠ e.tb) || decide (e.order ≤ v.order)
        | none => true
      if e.late && first && !(s.half x).srcFull .sched then s.fire x entry e true else s
    | none => s

/-! ## Listing and cancelling -/

/-- A record of SCHED_LIST (Table 12.8). DEDUCED: notes/assumptions/27.md. -/
def schedRec (i : Nat) (e : Sched) : List Fld :=
  [(2, i), (1, e.tb), (1, if e.late then 2 else if e.period ≠ 0 then 3 else 1), (2, e.op), (2, 0), (8, e.mark),
   instFld e.at_]

/-- SCHED_LIST (R388). -/
def execSchedList (h : Hdr) (addr capacity : Nat) (s : State) : Host.Outcome State Fault Refusal :=
  .next <| s.command h 0x0304 (fun _ => decide (h.fn ≠ 0)) (fun _ => [])
    (fun x s =>
      let all := (s.img x).sched.filterMap fun p => p.2.map fun e => (p.1, e)
      let recs := ((all.take capacity).map fun p => schedRec p.1 p.2).flatten
      s.waitActed x { cmd := cmdOf h 0x0304, on := .dma, status := if capacity < all.length then stNoRes else stDone,
                      cflags := 0, result := if capacity < all.length then [] else [(2, all.length)],
                      area := some (addr, recs), cont := .finish })

/-- SCHED_CANCEL (R392): the cancelled command completes with ABORTED and CANCELLED. -/
def execSchedCancel (h : Hdr) (entry : Nat) (s : State) : Host.Outcome State Fault Refusal :=
  .next <| s.command h 0x0305
    (fun x => decide (h.fn ≠ 0 ∨ 256 ≤ entry) || ((s.img x).schedAt entry).isNone)
    (fun _ => [])
    (fun x s => match (s.img x).schedAt entry with
      | some e =>
        let s := s.unarm x entry
        let s := match e.cmd with | some c => s.postCpl x c stAborted cfCancelled [] | none => s
        s.done x h 0x0305
      | none => s)

end Sys2Proof.Machine
end

