-- ==== Sys2Proof/Machine/Enrol.lean ====
section
/-! DEFINITION. Enrolment, IDGEN, firmware update and decommissioning (19), with ENVELOPE_RENEW (15): what the commands
check and the acts that follow a verified authorisation, charter or image.  The acts take effect in
`Machine/Finish.lean`, at the verification deadline. -/

namespace Sys2Proof.Machine

open Sys2Proof

/-! ## Authorisations (R550) -/

/-- The authorisation given with a command does not serve it; without an anchor none is taken, and its length must be 0
(R473, R556). -/
def State.authBad (s : State) (kind len : Nat) (auth : List Nat) : Bool :=
  match s.flash.anchor, s.flash.charter with
  | none, _ => decide (len ≠ 0)
  | some _, some c => !authForm kind (auth.take len) || !authNames c s.flash.idgen s.flash.run auth
  | some _, none => true

/-- The signature of an authorisation that the module needs does not verify. -/
def State.sigBad (s : State) (auth : List Nat) : Bool := s.flash.anchor.any fun a => !authSig a auth

/-- An act that an authorisation permits: at the dual verification deadline, or at once where none is needed. -/
def State.authorised (s : State) (x : Half) (h : Hdr) (op : Nat) (auth : List Nat) (cont : Cont)
    (act : State → State) : State :=
  if s.flash.anchor.isNone then act s
  else if s.sigBad auth then s.pkeOp x h op 704000 stPke [] none .finish
  else s.pkeOp x h op 704000 stDone [] none cont

/-- A completion for the next run (R483). DEDUCED: notes/assumptions/91.md. -/
def State.carryDone (s : State) (x : Half) (c : Cmd) : State :=
  { s with carried := s.carried ++ [{ op := c.op, fn := c.fn, table := c.table, half := x, status := stDone,
                                      tag := c.tag, pos := c.pos, cflags := 0, result := [] }] }

/-! ## ENVELOPE_RENEW (R473) -/

/-- A tamper source is in alarm or latched. -/
def State.tamperHeld (s : State) : Bool := !s.tam.inAlarm.isEmpty || !s.tam.latched.isEmpty

/-- A new envelope seed is drawn and the run ends with cause 4; a source in alarm or latched by then locks it.
DEDUCED: notes/assumptions/76.md. -/
def State.actRenew (s : State) (x : Half) (c : Cmd) : State :=
  if s.tamperHeld then s.postCpl x c stLocked 0 []
  else ((s.modTam fun t => { t with seed := true, seedNo := t.seedNo + 1 }).endRun 4).carryDone x c

/-- ENVELOPE_RENEW (R473, R474). -/
def execEnvelopeRenew (h : Hdr) (_ len : Nat) (auth : List Nat) (s : State) :
    Host.Outcome State Fault Refusal :=
  .next <| s.command h 0x0109
    (fun _ => decide (h.fn ≠ 0) || s.tam.seed || s.authBad 1 len auth)
    (fun x => [(s.flash.anchor.isSome && s.pkeFull x h.fn, stNoRes), (!s.sigBad auth && s.tamperHeld, stLocked)])
    (fun x s => s.authorised x h 0x0109 auth .renew fun s => s.actRenew x (cmdOf h 0x0109))

/-! ## IDGEN (R355, R551) -/

/-- One step of IDGEN is burned: new identity keys, HSS indices from 0, and the charter no longer matches. -/
def State.actIdgen (s : State) (x : Half) (c : Cmd) : State :=
  let f := s.flash
  let s := { s with flash := { f with idgen := f.idgen + 1, hssBlk := 0, charter := none,
                                      lapsed := f.charter.or f.lapsed } }
  (s.modImg x fun im => { im with hssNext := 0, hssEnd := 0, hssLow := false, hssExh := false }).postCpl x c stDone 0
    [(1, f.idgen + 1)]

/-- IDGEN_ADVANCE (R551). -/
def execIdgenAdvance (h : Hdr) (_ len : Nat) (auth : List Nat) (s : State) :
    Host.Outcome State Fault Refusal :=
  .next <| s.command h 0x0813
    (fun x => decide (h.fn ≠ 0) || s.flash.anchor.isNone || !s.hssSpent x || s.authBad 2 len auth)
    (fun x => [(s.pkeFull x h.fn, stNoRes), (!s.sigBad auth && decide (15 ≤ s.flash.idgen), stExhausted)])
    (fun x s => s.authorised x h 0x0813 auth .idgen fun s => s.actIdgen x (cmdOf h 0x0813))

/-! ## DECOMMISSION (R556) -/

/-- SAVE_COUNT of the module: the highest that an image of it holds. -/
def Flash.saves (f : Flash) : Nat :=
  max (match f.cfg0 with | some c => c.saveCount | none => 0) (match f.cfg1 with | some c => c.saveCount | none => 0)

/-- The slot that is not current. -/
def Flash.spareSlot (f : Flash) : Bool := f.cfgCur = some false

/-- Write an image of the standing configuration into a slot. -/
def Flash.setCfg (f : Flash) (slot : Bool) (c : CfgImg) : Flash :=
  if slot then { f with cfg1 := some c } else { f with cfg0 := some c }

/-- Flash after DECOMMISSION: every key entry FREE, no anchor and no charter, a factory-default image current.
DEDUCED: notes/assumptions/76.md, notes/assumptions/93.md. -/
def Flash.decommission (f : Flash) : Flash :=
  let f := f.setCfg f.spareSlot { factoryImage with saveCount := f.saves, run := f.run }
  { f with cfgCur := some f.spareSlot, keys := [], anchor := none, charter := none, lapsed := none }

/-- The five acts of R556. DEDUCED: notes/assumptions/76.md. -/
def State.actDecommission (s : State) (x : Half) (c : Cmd) : State :=
  let s := (s.modTam fun t => { t with seed := false })
  ({ s with flash := s.flash.decommission }.endRun 6).carryDone x c

/-- DECOMMISSION (R556). -/
def execDecommission (h : Hdr) (_ len : Nat) (auth : List Nat) (s : State) :
    Host.Outcome State Fault Refusal :=
  .next <| s.command h 0x0814
    (fun _ => decide (h.fn ≠ 0) || s.authBad 3 len auth)
    (fun x => [(s.flash.anchor.isSome && s.pkeFull x h.fn, stNoRes)])
    (fun x s => s.authorised x h 0x0814 auth .decommission fun s => s.actDecommission x (cmdOf h 0x0814))

/-! ## Anchor and charter (R548, R549, R359) -/

/-- An anchor is held, or its record is on the way. DEDUCED: notes/assumptions/75.md. -/
def Flash.anchorTaken (f : Flash) : Bool :=
  f.anchor.isSome || f.recs.any fun r => match r.rec_ with | .anchor _ => true | _ => false

/-- ENROL_ANCHOR (R548). -/
def execEnrolAnchor (h : Hdr) (_ : Nat) (anchor : List Nat) (s : State) : Host.Outcome State Fault Refusal :=
  .next <| s.command h 0x0811
    (fun _ => decide (h.fn ≠ 0) || s.flash.anchorTaken || !(Anchor.mk anchor).formOk)
    (fun _ => [(!(Anchor.mk anchor).keysOk, stPke)])
    (fun x s => s.afterRecord x h 0x0811 (.anchor (Anchor.mk anchor)) [])

/-- A field of the module's own charter fails R359, or R548 for one that replaces another. DEDUCED:
notes/assumptions/75.md. -/
def State.ownCharterBad (s : State) (x : Half) (c : Charter) : Bool :=
  let b := (s.half x).kram.birth
  !s.charterFields x c ||
    decide (c.idgen ≠ s.flash.idgen ∨ c.ecdsa ≠ idEcdsa b s.flash.idgen ∨ c.hss ≠ idHss b s.flash.idgen ∨
      c.serial ≠ Config.moduleSerial) ||
    (match s.flash.charter.or s.flash.lapsed with | some o => decide (c.seq ≤ o.seq) | none => false)

/-- The charter's signature has verified: it is remembered, and its record is journalled. -/
def State.actCharter (s : State) (x : Half) (j : Job) (c : Charter) : State :=
  let s := s.modImg x fun im => im.keepCharter c
  let r := s.record x (.charter c)
  r.2.wait x { j with on := .flash r.1, cont := .finish }

/-- ENROL_CHARTER (R548). -/
def execEnrolCharter (h : Hdr) (_ : Nat) (charter : List Nat) (s : State) : Host.Outcome State Fault Refusal :=
  .next <| s.command h 0x0812
    (fun x => decide (h.fn ≠ 0) || s.ownCharterBad x (Charter.mk charter))
    (fun x => [(s.pkeFull x h.fn, stNoRes)])
    (fun x s =>
      let c := Charter.mk charter
      if s.flash.anchor.any c.sigOk then s.pkeOp x h 0x0812 704000 stDone [(2, c.member)] none (.charter c)
      else s.pkeOp x h 0x0812 704000 stPke [] none .finish)

/-! ## Firmware (R552–R555) -/

/-- The slot that is not the boot slot. -/
def Flash.otherSlot (f : Flash) : Nat := 1 - f.bootSlot

/-- A half runs a slot other than the boot slot. -/
def State.offBootSlot (s : State) : Bool :=
  (s.a.up && decide (s.a.boot.slot ≠ s.flash.bootSlot)) || (s.b.up && decide (s.b.boot.slot ≠ s.flash.bootSlot))

/-- REJECTED_ARGS of R553. -/
def State.stageBad (s : State) (x : Half) (i : List Nat) : Bool :=
  !fwHeaderOk i || !fwPayloadOk i || !fwKeyOk i || decide ((fwOfInput i).svn < s.flash.rollback) ||
    (match s.fwOf x with | some w => !interwork w (fwOfInput i) | none => true)

/-- The slot is written, read back and its stage record journalled; whether the read-back succeeds is free. DESIGN
CHOICE: notes/assumptions/22.md. -/
def State.actStage (s : State) (x : Half) (j : Job) (slot : Nat) (fw : Fw) : State :=
  let (c, s) := s.draw
  let f := s.flash
  let s := { s with flash := if slot = 0 then { f with fw0 := some { fw with loads := decide (c % 2 = 0) }, staged := none }
                             else { f with fw1 := some { fw with loads := decide (c % 2 = 0) }, staged := none } }
  if c % 2 = 0 then
    let r := s.record x (.stage slot fw)
    r.2.wait x { j with on := .flash r.1, cont := .finish }
  else s.postCpl x j.cmd stIntegrity 0 []

/-- FW_STAGE (R553). -/
def execFwStage (h : Hdr) (_ len : Nat) (img : List Nat) (s : State) : Host.Outcome State Fault Refusal :=
  .next <| s.command h 0x0801
    (fun x => decide (h.fn ≠ 0 ∨ img.length ≠ len) || s.stageBad x img)
    (fun x => [(s.pkeFull x h.fn, stNoRes), (fwSigOk img && s.offBootSlot, stLocked)])
    (fun x s =>
      let slot := s.flash.otherSlot
      if fwSigOk img then s.pkeOp x h 0x0801 704000 stDone [(1, slot), (1, (fwOfInput img).svn)] none
        (.stage slot (fwOfInput img))
      else s.pkeOp x h 0x0801 704000 stPke [] none .finish)

/-- FW_ACTIVATE (R540, R554). -/
def execFwActivate (h : Hdr) (target : Half) (slot : Nat) (s : State) : Host.Outcome State Fault Refusal :=
  .next <| s.command h 0x0802
    (fun x => decide (h.fn ≠ 0 ∨ target = x ∨ 2 ≤ slot) ||
      decide (slot ≠ s.flash.bootSlot ∧ s.flash.staged ≠ some slot))
    (fun _ => [(decide (65535 ≤ (s.half target).restarts), stExhausted)])
    (fun x s => (s.restartHalf x target (some slot)).done x h 0x0802)

/-- Both halves run the staged slot, and one of them is in step (R555). -/
def State.commitReady (s : State) : Bool :=
  match s.flash.staged with
  | some sl => s.a.up && s.b.up && decide (s.a.boot.slot = sl ∧ s.b.boot.slot = sl) &&
      (decide (s.a.helm.st = .inStep) || decide (s.b.helm.st = .inStep))
  | none => false

/-- SVN of the image in a slot. -/
def Flash.svnOf (f : Flash) (slot : Nat) : Nat := match f.slot slot with | some w => w.svn | none => 0

/-- FW_COMMIT (R555). -/
def execFwCommit (h : Hdr) (s : State) : Host.Outcome State Fault Refusal :=
  .next <| s.command h 0x0803
    (fun _ => decide (h.fn ≠ 0) || !s.commitReady) (fun _ => [])
    (fun x s =>
      let sl := s.flash.staged.getD s.flash.bootSlot
      s.afterRecord x h 0x0803 (.fwCommit sl) [(1, sl), (1, max s.flash.rollback (s.flash.svnOf sl))])

/-- The fields that FW_QUERY gives of a slot: SVN, BUILD, staged; zeros for an empty one. DEDUCED:
notes/assumptions/77.md. -/
def Flash.slotFields (f : Flash) (n : Nat) : List Fld :=
  (match f.slot n with | some w => [(1, w.svn), (4, w.build)] | none => [(1, 0), (4, 0)]) ++
    [(1, b2n (decide (f.staged = some n)))]

/-- FW_QUERY (R557). DEDUCED: notes/assumptions/77.md. -/
def execFwQuery (h : Hdr) (addr : Nat) (s : State) : Host.Outcome State Fault Refusal :=
  .next <| s.command h 0x0804 (fun _ => decide (h.fn ≠ 0)) (fun _ => [])
    (fun x s => s.reply x h 0x0804 [] addr
      (s.flash.slotFields 0 ++ s.flash.slotFields 1 ++
        [(1, s.a.boot.slot), (1, s.b.boot.slot), (1, s.flash.bootSlot)]))

/-- BIRTH_READ (R547). -/
def execBirthRead (h : Hdr) (addr capacity : Nat) (s : State) : Host.Outcome State Fault Refusal :=
  .next <| s.command h 0x0810 (fun _ => decide (h.fn ≠ 0 ∨ capacity < 3956)) (fun _ => [])
    (fun x s => s.reply x h 0x0810 [(2, 3956)] addr
      [blockFld (birthRecord (birthSecret Config.fuse Config.puf))])

end Sys2Proof.Machine
end

