-- ==== Sys2Proof/Machine/ConfigCmds.lean ====
section
/-! DEFINITION. The standing configuration and module state commands (16): CFG_SAVE, CFG_EXPORT, CFG_IMPORT and
MODULE_SET. -/

namespace Sys2Proof.Machine

open Sys2Proof

/-! ## Images (Table 16.13) -/

/-- The image without CHECK. -/
def CfgImg.body (c : CfgImg) : List Fld :=
  [(4, 0x47464346), (1, 1), (3, 0), (4, c.records.length), (4, 0), (8, c.saveCount), (8, c.run), (32, 0)] ++
    c.records.flatMap fun r => [(4, r.1), (4, r.2.toNat)]

/-- The image as host memory receives it. -/
def CfgImg.bytes (c : CfgImg) : List Fld := c.body ++ [(4, crc32c (c.body.flatMap fldBytes))]

/-- Length of an image in bytes. -/
def CfgImg.len (c : CfgImg) : Nat := 68 + 8 * c.records.length

/-! ## CFG_SAVE (R496, R497) -/

/-- Registers with an EN or LOCK field, which is bit 31 in each. DEDUCED: notes/assumptions/20.md. -/
def hasEn (r : RegSpec) : Bool := [0x300100, 0x400000, 0x600000, 0xC00300, 0xF0000C].contains r.base

/-- A saved register as the active half holds it. -/
def State.savedWord (s : State) (x : Half) (r : RegSpec) (fn off : Nat) : Word :=
  if r.home = .module then s.modReg off else (s.img x).reg fn off

/-- The records of CFG_SAVE. DEDUCED: notes/assumptions/20.md. -/
def State.saveRecords (s : State) (x : Half) : List (Nat × Word) :=
  (savedRegs.map fun p =>
    let w := s.savedWord x p.1 p.2.1 p.2.2
    (regKey p.2.1 p.2.2, if hasEn p.1 then setBits w 31 31 0 else w)) ++
  (savedRegs.filterMap fun p =>
    let w := s.savedWord x p.1 p.2.1 p.2.2
    if hasEn p.1 && bit w 31 then some (regKey p.2.1 p.2.2, w) else none)

/-- SAVE_COUNT of the next image, counting those on their way. DEDUCED: notes/assumptions/21.md. -/
def Flash.nextSave (f : Flash) : Nat :=
  1 + f.recs.foldl (fun n r => match r.rec_ with | .cfg _ c => max n c.saveCount | _ => n) f.saves

/-- A new image goes to the slot that is not current; its commit record makes it current. DEDUCED:
notes/assumptions/21.md. -/
def State.commitCfg (s : State) (x : Half) (h : Hdr) (op : Nat) (records : List (Nat × Word)) : State :=
  let n := s.flash.nextSave
  s.afterRecord x h op (.cfg s.flash.spareSlot { records, saveCount := n, run := s.flash.run, valid := true }) [(8, n)]

/-- CFG_SAVE (R497); whether the read-back succeeds is free. DESIGN CHOICE: notes/assumptions/22.md. -/
def execCfgSave (h : Hdr) (s : State) : Host.Outcome State Fault Refusal :=
  .next <| s.command h 0x0820 (fun _ => decide (h.fn ≠ 0)) (fun _ => [])
    (fun x s =>
      let (c, s) := s.draw
      if c % 2 = 0 then s.commitCfg x h 0x0820 (s.saveRecords x) else s.postCpl x (cmdOf h 0x0820) stIntegrity 0 [])

/-! ## CFG_EXPORT, CFG_IMPORT (R503) -/

/-- CFG_EXPORT. DEDUCED: notes/assumptions/23.md. -/
def execCfgExport (h : Hdr) (addr capacity : Nat) (s : State) : Host.Outcome State Fault Refusal :=
  .next <| s.command h 0x0821 (fun _ => decide (h.fn ≠ 0))
    (fun _ => match s.flash.config with
      | some c => [(decide (capacity < c.len), stNoRes), (!c.valid, stIntegrity)]
      | none => [(true, stIntegrity)])
    (fun x s => match s.flash.config with
      | some c => s.reply x h 0x0821 [(4, c.len)] addr c.bytes
      | none => s)

/-- RECORDS of an image as host memory holds it, and the records themselves. -/
def cfgCount (bs : List Nat) : Nat := leNat (bytesAt bs 8 4)
def cfgRecords (bs : List Nat) : List (Nat × Word) :=
  (List.range (cfgCount bs)).map fun i =>
    (leNat (bytesAt bs (64 + 8 * i) 4), BitVec.ofNat 32 (leNat (bytesAt bs (68 + 8 * i) 4)))

/-- The image that CFG_IMPORT reads fails a check: MAGIC, VERSION, RECORDS or CHECK. -/
def cfgInputBad (len : Nat) (bs : List Nat) : Bool :=
  let n := cfgCount bs
  decide (bytesAt bs 0 4 ≠ ascii "FCFG" ∨ bs.getD 4 0 ≠ 1 ∨ n = 0 ∨ 8183 < n ∨ len ≠ 68 + 8 * n ∨ bs.length ≠ len ∨
    leNat (bytesAt bs (64 + 8 * n) 4) ≠ crc32c (bs.take (64 + 8 * n)))

/-- CFG_IMPORT. -/
def execCfgImport (h : Hdr) (_ len : Nat) (img : List Nat) (s : State) : Host.Outcome State Fault Refusal :=
  .next <| s.command h 0x0822 (fun _ => decide (h.fn ≠ 0) || cfgInputBad len img) (fun _ => [])
    (fun x s => s.commitCfg x h 0x0822 (cfgRecords img))

/-! ## MODULE_SET (R501) -/

/-- Policing changes, with MODULE_STATE (R500). DEDUCED: notes/assumptions/29.md. -/
def State.setPolicing (s : State) (x : Half) (service : Bool) : State :=
  let s := s.modImg x fun im => { im with service }
  let old := s.lastState
  { s with lastState := s.modState }.post x .cores 0x0D0E
    [(1, old), (1, s.modState), (1, b2n service), (1, x.idx)] .all

/-- MODULE_SET: an ERASED module refuses it; one in BOOTING takes no command. -/
def execModuleSet (h : Hdr) (service : Bool) (s : State) : Host.Outcome State Fault Refusal :=
  .next <| s.command h 0x0823 (fun _ => decide (h.fn ≠ 0) || !s.tam.seed) (fun _ => [])
    (fun x s =>
      if (s.img x).service = service then s.postCpl x (cmdOf h 0x0823) stDone cfAlready []
      else (s.setPolicing x service).done x h 0x0823)

end Sys2Proof.Machine
end

