-- ==== Sys2Proof/Machine/Finish.lean ====
section
/-! DEFINITION. What ends a wait: a flash record becomes durable (R286), a landing-4 key is loaded (R281), the public-key
engine releases a result (R344), a DMA transfer of a command's host memory ends (R559). -/

namespace Sys2Proof.Machine

open Sys2Proof

/-! ## Durable records (R286, R298) -/

/-- A job's command completes with what it holds.  CFG_DEFAULTED clears at a CFG_SAVE that completes with DONE (R499). -/
def State.finishJob (s : State) (x : Half) (j : Job) : State :=
  let s := s.postKept x j.cmd j.status j.cflags j.result
  if j.cmd.op = 0x0820 ∧ j.status = stDone then { s with cfgDefaulted := false } else s

/-- The jobs that wait for one thing no longer wait. -/
def Image.unwait (im : Image) (w : Wait) : Image := { im with jobs := im.jobs.filter fun j => decide (j.on ≠ w) }

/-- The jobs that wait for one thing. -/
def Image.waiting (im : Image) (w : Wait) : List Job := im.jobs.filter fun j => decide (j.on = w)

/-- A commit record is durable (R285, step 6): the key takes the new generation in the key register and in key RAM.  Post
KEY_REPLACED; what uses the key follows (R333, R335). -/
def State.commitDurable (s : State) (x : Half) (handle gen kcv key : Nat) : State :=
  let set : KeyEnt → KeyEnt := fun e => { e with gen, kcv, key }
  let fl := { s.flash with keys := s.flash.keys.map fun p => if p.1 = handle then (p.1, set p.2) else p }
  let s := { s with flash := fl }.modImg x fun im => (im.setKey handle (set (im.key handle))).dropGangway handle
  ((s.postKey x handle 0x0102 [(4, handle), (4, gen), (8, kcv)]).cwyReplaced x handle).cakReplaced x handle

/-- The boot slot moves and the thermometers are burned (R362).  Post FW_COMMITTED: boot slot; SVN; V before and after;
and, if V rose, ROLLBACK_ADVANCED: old and new value; half that burned first. DEDUCED: notes/assumptions/88.md. -/
def State.fwCommitted (s : State) (x : Half) (slot : Nat) : State :=
  let v := s.flash.rollback
  let svn := s.flash.svnOf slot
  let v' := max v svn
  let s := { s with flash := { s.flash with bootSlot := slot, staged := none, rollA := v', rollB := v' } }
  let s := s.post x .cores 0x0803 [(1, slot), (1, svn), (1, v), (1, v')]
  if v < v' then s.post x .cores 0x0905 [(1, v), (1, v'), (1, x.idx)] else s

/-- Post ENROLLED: anchor 0 or charter 1; member ID; CHARTER_SEQ. DEDUCED: notes/assumptions/75.md. -/
def State.postEnrolled (s : State) (x : Half) (what member seq : Nat) : State :=
  s.post x .cores 0x0804 [(1, what), (2, member), (8, seq)]

/-- HAIL_MS in ns. -/
def Image.hailNs (im : Image) : Nat := bits (im.reg 0 0xA00004) 10 0 * 1000000

/-- A charter of the module's own is committed (R549). -/
def State.charterDurable (s : State) (x : Half) (c : Charter) : State :=
  let s := { s with flash := { s.flash with charter := some c, lapsed := none } }.modImg x fun im =>
    { im with hush := s.now + 4 * im.hailNs }
  s.postEnrolled x 1 c.member c.seq

/-- What a record does once it is durable. -/
def State.takeEffect (s : State) (x : Half) (r : Rec) : State :=
  let f := s.flash
  match r with
  | .key handle e => { s with flash := { f with keys := tabSet {} f.keys handle e } }
  | .commit handle gen kcv key => s.commitDurable x handle gen kcv key
  | .invalidate handle => { s with flash := { f with keys := f.keys.map fun p =>
      if p.1 = handle then (p.1, { p.2 with st := 3 }) else p } }
  | .free handle => { s with flash := { f with keys := tabDel f.keys handle } }
  | .cfg slot c => { s with flash := { f.setCfg slot c with cfgCur := some slot } }
  | .stage slot fw =>
    { s with flash := { f with staged := some slot } }.post x .cores 0x0802 [(1, slot), (1, fw.svn), (4, fw.build)]
  | .fwCommit slot => s.fwCommitted x slot
  | .anchor a => { s with flash := { f with anchor := some a } }.postEnrolled x 0 0 0
  | .charter c => s.charterDurable x c

/-- The record `id` of a half is durable: it takes effect, and the command that waits for it completes. DEDUCED:
notes/assumptions/38.md. -/
def State.durable (s : State) (x : Half) (id : Nat) : State :=
  match s.flash.recs.find? fun r => decide (r.id = id ∧ r.by_ = x) with
  | none => s
  | some r =>
    let s := { s with flash := { s.flash with recs := s.flash.recs.filter fun q => decide (q.id ≠ id) } }
    let s := s.takeEffect x r.rec_
    let js := (s.img x).waiting (.flash id)
    let s := s.modImg x fun im => im.unwait (.flash id)
    (js.foldl (fun s j => s.finishJob x j) s).zkaDurable x id

/-- FLASH_RECORD_DURABLE (R286). -/
def execFlashRecordDurable (id : Nat) (s : State) : Host.Outcome State Fault Refusal :=
  .next <| s.withHolder fun x => s.durable x id

/-- KEY_COMMIT_DURABLE (R285). -/
def execKeyCommitDurable (handle : Nat) (s : State) : Host.Outcome State Fault Refusal :=
  .next <| s.withHolder fun x =>
    match (s.img x).gangway handle with
    | some g => match g.rec_ with
      | some id => s.durable x id
      | none => s
    | none => s

/-! ## Loading a landing-4 key (R276, R281) -/

/-- The checks of a blob read from host memory, with the status that each sets: 7 is the DMA, then those of R276. DESIGN
CHOICE: notes/assumptions/36.md. -/
def State.loadChecks (s : State) (x : Half) (handle : Nat) (dmaOk : Bool) (blob : List Nat) : List (Bool × Nat × Nat) :=
  (!dmaOk, 7, stKeyInvalid) :: s.blobChecks x handle blob

/-- A command that has waited for a key goes on. -/
def State.resume (s : State) (x : Half) (j : Job) : State :=
  match j.cont with
  | .bind t handle =>
    match lowest ((!(s.img x).termTrib t, stArgs) :: s.bindFails x t handle) with
    | some st => s.postCpl x j.cmd st 0 []
    | none => (s.bindNow x t handle).postCpl x j.cmd stDone 0 []
  | .import_ a => s.importSak x j.cmd a
  | .ca i a => s.caStart x j.cmd i a
  | _ => s.finishJob x j

/-- KEY_LOAD (R281). -/
def execKeyLoad (handle : Nat) (dmaOk : Bool) (blob : List Nat) (s : State) : Host.Outcome State Fault Refusal :=
  .next <| s.withHolder fun x =>
    if !(s.img x).loads.contains handle then s
    else
      let bad := (s.loadChecks x handle dmaOk blob).find? (·.1)
      let js := (s.img x).waiting (.load handle)
      let s := s.modImg x fun im =>
        { im.unwait (.load handle) with loads := im.loads.filter fun h => decide (h ≠ handle) }
      match bad with
      | some (_, check, st) => js.foldl (fun s j => s.postCpl x j.cmd st 0 []) (s.postLoadFail x handle check)
      | none => js.foldl (fun s j => s.resume x j) (s.modImg x fun im => im.makeKeyResident handle s.now)

/-! ## The release of a public-key result (R344, R345, R350) -/

/-- Count a late release; post PKE_LATE at most once per second: half; operations late since the last event. DEDUCED:
notes/assumptions/78.md. -/
def State.pkeLate (s : State) (x : Half) : State :=
  let p := (s.half x).pke
  let new := p.lateNew + 1
  if p.lateAt = 0 ∨ p.lateAt - 1 + 1000000000 ≤ s.now then
    (s.modHalf x fun y => { y with pke := { p with late := min (2 ^ 32 - 1) (p.late + 1), lateNew := 0,
                                                   lateAt := s.now + 1 } }).post x .cores 0x0902 [(1, x.idx), (4, new)]
  else s.modHalf x fun y => { y with pke := { p with late := min (2 ^ 32 - 1) (p.late + 1), lateNew := new } }

/-- The command completes, or its result area goes out by DMA first. -/
def State.deliver (s : State) (x : Half) (j : Job) : State :=
  if j.area.isSome && decide (j.status = stDone) then s.waitActed x { j with on := .dma, cont := .finish }
  else s.finishJob x j

/-- What a release does for its command; a signature that fails the engine's own check is never released (R350).
DEDUCED: notes/assumptions/78.md. -/
def State.released (s : State) (x : Half) (j : Job) (selfOk : Bool) : State :=
  match j.cont with
  | .sign =>
    if selfOk then s.deliver x j
    else (((s.zeroArea j.area).postCpl x j.cmd stIntegrity 0 []).pkeFault x j.cmd.op 0 0).modHalf x fun y =>
      { y with pke := { y.pke with testing := true } }
  | .curve slot c =>
    (if j.status = stDone then s.modImg x fun im => { im with curves := tabSet none im.curves slot (some c) }
     else s).finishJob x j
  | .renew => s.actRenew x j.cmd
  | .decommission => s.actDecommission x j.cmd
  | .idgen => s.actIdgen x j.cmd
  | .charter c => s.actCharter x j c
  | .stage slot fw => s.actStage x j slot fw
  | _ => s.deliver x j

/-- PKE_RELEASE (R344, R345): at the deadline fixed when the operation started, or at its completion when that is later. -/
def execPkeRelease (half : Half) (lane completedAt : Nat) (selfOk : Bool) (s : State) :
    Host.Outcome State Fault Refusal :=
  onUnit (decide (lane < 4)) <|
    match tabGet none (s.half half).pke.lanes lane with
    | none => s
    | some r =>
      if !(s.half half).up || decide (s.now < r.at_ ∨ s.now < completedAt) then s
      else
        let js := (s.img half).waiting (.pke r.op.id)
        let s := (s.modHalf half fun y => { y with
          pke := { y.pke with lanes := tabSet none y.pke.lanes lane none },
          img := y.img.unwait (.pke r.op.id) }).happen half 0x52 0 1
        let s := if r.at_ < completedAt then s.pkeLate half else s
        (js.foldl (fun s j => s.released half j selfOk) s).pkeRun half

/-! ## The end of a command's DMA transfer (R558, R559, R561) -/

/-- The status of a command whose transfer failed: INTEGRITY, unless a lower-numbered failure applies too (R16). -/
def failedDma (status : Nat) : Nat := if status < stArgs then stIntegrity else min status stIntegrity

/-- The write of a result area, or of a new blob with its read-back, has ended. DESIGN CHOICE:
notes/assumptions/35.md, notes/assumptions/36.md. -/
def State.dmaEnded (s : State) (x : Half) (j : Job) (ok : Bool) : State :=
  match j.cont with
  | .create handle e =>
    if ok then s.finishCreate x j handle e
    else
      let (c, s) := s.draw
      s.createFailed x j.cmd handle (c % 8)
  | .replace handle good =>
    if ok then s.finishReplace x j handle good
    else
      let (c, s) := s.draw
      (s.modImg x fun im => im.dropGangway handle).createFailed x j.cmd handle (c % 8)
  | _ =>
    match j.area with
    | none => if ok then s.finishJob x j else s.postKept x j.cmd (failedDma j.status) 0 []
    | some (addr, bytes) =>
      if ok then ({ s with host := tabSet [] s.host addr bytes }).finishJob x j
      else
        let (c, s) := s.draw
        { s with host := tabSet [] s.host addr [(packLen bytes, c)] }.postKept x j.cmd (failedDma j.status) 0 []

/-- The completion of a command waits at the usher. -/
def HState.completing (x : HState) (c : Cmd) : Bool :=
  x.queue.any fun q => match q.2 with
    | .cpl v => decide (v.fn = c.fn ∧ v.table = c.table ∧ v.pos = c.pos ∧ v.tag = c.tag)
    | _ => false

/-- DMA_TRANSFER_END (R559).  For a command that has been taken and has not acted, a failed read of its buffers: it
completes with INTEGRITY and has no effect. DESIGN CHOICE: notes/assumptions/4.md. -/
def execDmaTransferEnd (h : Hdr) (ok : Bool) (s : State) : Host.Outcome State Fault Refusal :=
  .next <|
    match s.engineOf h with
    | none => s
    | some x =>
      let mine : Job → Bool := fun j =>
        decide (j.cmd.fn = h.fn ∧ j.cmd.table = h.table ∧ j.cmd.pos = h.pos ∧ j.cmd.tag = h.tag)
      match (s.img x).jobs.find? mine with
      | some j =>
        if j.on = .dma then
          (s.modImg x fun im => { im with jobs := im.jobs.filter fun q => !mine q }).dmaEnded x j ok
        else s
      | none =>
        match (s.img x).fnSt h.fn |>.taken.find? fun t =>
            decide (t.table = h.table ∧ t.pos = h.pos ∧ t.tag = h.tag) with
        | some t =>
          let c := cmdOf h t.op
          if ok || (s.img x).isArmed c || (s.half x).completing c then s else s.postCpl x c stIntegrity 0 []
        | none => s

end Sys2Proof.Machine
end

