-- ==== Sys2Proof/Machine/Hardware.lean ====
section
/-! DEFINITION. Power, supplies, cages, fans, temperatures, the module reference and the sideband (18).  Temperatures
are in 1/16 °C, as `MOD_TEMP_STAT` gives them. -/

namespace Sys2Proof.Machine

open Sys2Proof

/-! ## Mains and power -/

/-- A VALID record is completed at power-up (R469); a wrong canary is the finding of R471. DESIGN CHOICE:
notes/assumptions/82.md. -/
def Tamper.powerUp (t : Tamper) (canaryRight : Bool) : Tamper :=
  let t := { t with committed := none, lostNow := false, erasedAt := none }
  if !canaryRight then
    { t.burn (t.evidence + 1) with
        seed := false, pend := none, latched := [], log := [], unlogged := 0, evidenceLost := true, canary := true,
        endCause := 0, lostNow := true }
  else match t.pend with
    | some p =>
      { t.burn p.target with
          pend := none,
          committed := some { old := t.evidence, new := max t.evidence (min 127 p.target), mask := p.mask,
                              seconds := p.seconds } }
    | none => t

/-- MAINS_APPLIED (Table 18.8, steps 1 to 7).  The canary can be wrong only after CELL_EXHAUST was latched on the cell;
whether the cell then fell below 1.80 V is a free value. DESIGN CHOICE: notes/assumptions/82.md. DEDUCED:
notes/assumptions/83.md. -/
def execMainsApplied (ps1 ps2 : Bool) (t0 t1 : Int) (s : State) : Host.Outcome State Fault Refusal :=
  .next <|
    if s.board.power ≠ .off ∨ (!ps1 && !ps2) then s
    else
      let (c, s) := s.draw
      let right := !(s.tam.latched.contains 20 && decide (c % 2 = 1))
      let sec := s.cellSeconds
      let s := s.modTam fun t => { t.powerUp right with onCell := false, cellSec := sec }
      let s := s.modBoard fun b =>
        { b with ps1 := { ac := ps1, dc := ps1 }, ps2 := { ac := ps2, dc := ps2 }, trips := 0, tripTimes := [],
                 heldOff := false, powerFail := false, duty := 60 }
      { s with modRegs := [] }.envelopeCheck t0 t1

/-- ENVELOPE_COLD_RECHECK (R534). -/
def execEnvelopeColdRecheck (t0 t1 : Int) (s : State) : Host.Outcome State Fault Refusal :=
  .next <| if s.board.power = .cold then s.envelopeCheck t0 t1 else s

/-- HALF_RAIL_FAIL (R533). -/
def execHalfRailFail (half : Half) (s : State) : Host.Outcome State Fault Refusal :=
  .next <|
    let x := s.half half
    if s.board.power = .on ∧ x.boot.powered ∧ !x.boot.started then
      s.setHalf half { x with boot := { x.boot with powered := false, railFail := true }, haltCause := 7 }
    else s

/-- POWER_FAIL (R532). -/
def execPowerFail (s : State) : Host.Outcome State Fault Refusal :=
  .next <| if s.board.power = .on then (s.modBoard fun b => { b with powerFail := true }).alerted else s

/-- RAILS_OFF (R532): the secure domain passes to the cell, and its mesh loops run static. DEDUCED:
notes/assumptions/83.md. -/
def execRailsOff (s : State) : Host.Outcome State Fault Refusal :=
  .next <|
    if s.board.power = .off then s
    else
      let s := s.halvesOff.modBoard fun b =>
        { b with power := .off, ps1 := {}, ps2 := {}, loadW := 0, heldOff := false, warned := [], alert := false }
      s.modTam fun t => { t with onCell := true, cellSince := s.now }

/-- Post PSU_STATE: supply; AC present; DC good; fault. DEDUCED: notes/assumptions/26.md. -/
def State.postPsu (s : State) (k : Nat) (v : Supply) : State :=
  s.boardEv 0x0D0F k [(1, k), (1, b2n v.ac), (1, b2n v.dc), (1, b2n v.fault)]

/-- PSU_STATE (R530). DEDUCED: notes/assumptions/87.md. DESIGN CHOICE: notes/assumptions/92.md. -/
def execPsuState (supply : Nat) (ac dc fault : Bool) (loadW : Nat) (s : State) : Host.Outcome State Fault Refusal :=
  onUnit (decide (supply = 1 ∨ supply = 2)) <|
    if s.board.power = .off then s
    else
      let v : Supply := { ac, dc, fault }
      let old := if supply = 1 then s.board.ps1 else s.board.ps2
      let s := s.modBoard fun b =>
        { b with loadW := min 1023 loadW, ps1 := if supply = 1 then v else b.ps1,
                 ps2 := if supply = 2 then v else b.ps2 }
      if old = v then s else s.postPsu supply v

/-- MOD_RESET (R526, R537). -/
def execModReset (lowMs : Nat) (s : State) : Host.Outcome State Fault Refusal :=
  .next <|
    if lowMs < 100 ∨ s.board.power = .off then s
    else (s.modBoard fun b => { b with heldOff := false }).endRun 2

/-- PERST (R525): that half's link only. -/
def execPerst (half : Half) (s : State) : Host.Outcome State Fault Refusal :=
  .next <| s.modHalf half fun x => { x with boot := { x.boot with linkUp := false } }

/-- PCIE_LINK_CHANGE (R477): a half with reset released, halted or not, keeps a link of its own. -/
def execPcieLinkChange (half : Half) (up : Bool) (s : State) : Host.Outcome State Fault Refusal :=
  .next <| s.modHalf half fun x => { x with boot := { x.boot with linkUp := up && x.boot.started } }

/-! ## Cages -/

/-- The optics of a cage are held in low power (`MOD_CAGE_CTRL.LOW_POWER`). -/
def State.lowPower (s : State) (c : Nat) : Bool := bit (s.modReg (0x1100100 + 8 * c)) 30
/-- `MOD_CAGE_CTRL.BUDGET_W`. -/
def State.budgetW (s : State) (c : Nat) : Nat := bits (s.modReg (0x1100100 + 8 * c)) 4 0

/-- OPTICS_INSERT (R524): powered; CAGE_STATE follows at high power, or at once where the cage stays unpowered or its
optics stay in low power. -/
def execOpticsInsert (cage : Nat) (s : State) : Host.Outcome State Fault Refusal :=
  onUnit (decide (cage < 8)) <|
    let s := (s.setCage cage { present := true }).cagePower cage
    if (s.cage cage).powered && !s.lowPower cage then s else s.postCage cage

/-- OPTICS_REMOVE (R524): the lanes of the cage lose their signal, and CAGE_STATE is posted. -/
def execOpticsRemove (cage : Nat) (s : State) : Host.Outcome State Fault Refusal :=
  onUnit (decide (cage < 8)) <|
    if (s.cage cage).present then ((s.setCage cage {}).cageDark cage).postCage cage else s

/-- OPTICS_READY (R522). -/
def execOpticsReady (cage : Nat) (caseTemp : Int) (powerQ : Nat) (s : State) : Host.Outcome State Fault Refusal :=
  onUnit (decide (cage < 8)) <|
    let v := s.cage cage
    if v.powered && !s.lowPower cage then
      (s.setCage cage { v with ready := true, caseTemp, powerQ := min 255 powerQ }).postCage cage
    else s

/-- CAGE_OVERCURRENT (R523): more than BUDGET_W + 3 W, or more than 33 W. -/
def execCageOvercurrent (cage powerQ : Nat) (s : State) : Host.Outcome State Fault Refusal :=
  onUnit (decide (cage < 8)) <|
    let v := s.cage cage
    if v.powered ∧ (4 * s.budgetW cage + 12 < powerQ ∨ 132 < powerQ) then
      let s := s.setCage cage { v with powered := false, ready := false, fault := true, powerQ := min 255 powerQ }
      let s := s.postCage cage
      s.setCage cage { s.cage cage with powerQ := 0 }
    else s

/-! ## Fans -/

/-- Post FAN_STATE: tray present; failed mask; duty. DEDUCED: notes/assumptions/26.md. -/
def State.postFan (s : State) : State :=
  s.boardEv 0x0D10 0 [(1, b2n s.board.tray), (1, ((s.board.failed.map (2 ^ ·)).sum)), (1, s.board.duty)]

/-- Post THERMAL: warning 0 or trip 1; raised 0 or cleared 1; sensor; temperature. DEDUCED: notes/assumptions/26.md. -/
def State.postThermal (s : State) (trip cleared : Bool) (sensor : Nat) (temp : Int) : State :=
  s.boardEv 0x0D11 (16 * b2n trip + sensor) [(1, b2n trip), (1, b2n cleared), (1, sensor),
    (2, (temp % 65536).toNat)]

/-- THERMAL_WARN of failed fans (R535): the spec names no sensor for it, so both fields are free. DESIGN CHOICE:
notes/assumptions/86.md. -/
def State.fanThermal (s : State) (cleared : Bool) : State :=
  let (c, s) := s.draw
  let (d, s) := s.draw
  s.postThermal false cleared (c % 256) d

/-- FAN_FAIL (R535). -/
def execFanFail (fan : Nat) (s : State) : Host.Outcome State Fault Refusal :=
  onUnit (decide (fan < 4)) <|
    if !s.board.tray || s.board.failed.contains fan || decide (s.board.power = .off) then s
    else
      let s := (s.modBoard fun b => { b with failed := b.failed ++ [fan], duty := 100 }).postFan
      if s.board.failed.length = 2 then s.fanThermal false else s

/-- FAN_TRAY_REMOVE (R536). -/
def execFanTrayRemove (s : State) : Host.Outcome State Fault Refusal :=
  .next <| if s.board.tray then (s.modBoard fun b => { b with tray := false }).postFan else s

/-- FAN_TRAY_INSERT (R536). -/
def execFanTrayInsert (s : State) : Host.Outcome State Fault Refusal :=
  .next <|
    if s.board.tray then s
    else
      let two := decide (2 ≤ s.board.failed.length)
      let s := (s.modBoard fun b => { b with tray := true, failed := [], duty := 100 }).postFan
      if two then s.fanThermal true else s

/-! ## Temperatures -/

/-- Sensors in the order of Table 18.11. -/
def sensorCode : Sensor → Nat
  | .junctionA => 0
  | .junctionB => 1
  | .envelope0 => 2
  | .envelope1 => 3
  | .outlet => 4
  | .psu1 => 5
  | .psu2 => 6

/-- Warning limits of Table 18.11. -/
def warnLimit : Sensor → Int
  | .junctionA | .junctionB => 1680
  | .envelope0 | .envelope1 => 1280
  | .outlet => 1120
  | .psu1 | .psu2 => 1600

/-- Trip limits of Table 18.11; none for outlet air and the supplies. -/
def tripLimit : Sensor → Option Int
  | .junctionA | .junctionB => some 1840
  | .envelope0 | .envelope1 => some 1408
  | .outlet | .psu1 | .psu2 => none

/-- A sensor's reading in its register: `MOD_TEMP_STAT[k]` or `TMP_TEMP_STAT`. DESIGN CHOICE: notes/assumptions/92.md. -/
def State.setTemp (s : State) (k : Sensor) (v : Int) : State :=
  let put : Nat → State := fun i => s.modBoard fun b => { b with temps := tabSet 0 b.temps i v }
  match k with
  | .outlet => put 1
  | .junctionA => put 2
  | .junctionB => put 3
  | .psu1 => put 4
  | .psu2 => put 5
  | .envelope0 => s.modTam fun t => { t with temp0 := v }
  | .envelope1 => s.modTam fun t => { t with temp1 := v }

/-- The sensors that the fans' duty follows (R535). -/
def fanSensor : Sensor → Bool
  | .junctionA | .junctionB | .outlet => true
  | .envelope0 | .envelope1 | .psu1 | .psu2 => false

/-- The board controller sets the duty of the fans, at least `lo` and at most 100 % (R535); the spec gives no control law,
so the duty is a free value.  With a fan failed the others stay at 100 %. DESIGN CHOICE: notes/assumptions/95.md. -/
def State.regulateFans (s : State) (sensor : Sensor) (lo : Nat) : State :=
  if !fanSensor sensor || !s.board.failed.isEmpty then s
  else
    let (c, s) := s.draw
    s.modBoard fun b => { b with duty := min 100 lo + c % (101 - min 100 lo) }

/-- `MOD_FAN_CFG.MIN_PCT`. -/
def State.fanMin (s : State) : Nat := bits (s.modReg 0x1100010) 6 0

/-- THERMAL_WARN (R535, Table 18.11): the duty is raised, unless it stands at 100 %. -/
def execThermalWarn (sensor : Sensor) (temp : Int) (s : State) : Host.Outcome State Fault Refusal :=
  .next <|
    if s.board.power = .off ∨ temp < warnLimit sensor ∨ s.board.warned.contains sensor then s
    else
      (((s.setTemp sensor temp).modBoard fun b => { b with warned := b.warned ++ [sensor] }).regulateFans sensor
        s.board.duty).postThermal false false (sensorCode sensor) temp

/-- THERMAL_WARN_CLEAR (R535): the duty follows the falling temperature. -/
def execThermalWarnClear (sensor : Sensor) (temp : Int) (s : State) : Host.Outcome State Fault Refusal :=
  .next <|
    if warnLimit sensor ≤ temp ∨ !s.board.warned.contains sensor then s
    else
      (((s.setTemp sensor temp).modBoard fun b => { b with warned := b.warned.filter (· ≠ sensor) }).regulateFans sensor
        s.fanMin).postThermal false true (sensorCode sensor) temp

/-- Number and write all that a half has waiting. DEDUCED: notes/assumptions/84.md. -/
def State.drainPosts (s : State) (h : Half) : State :=
  let s := s.modHalf h fun x => x.queue.foldl (fun x q => x.number q.2) { x with queue := [] }
  (s.half h).unsent.foldl (State.writeEntry h) (s.modHalf h fun x => { x with unsent := [] })

/-- THERMAL_TRIP (R537): THERMAL is posted, and within the 1 ms before the power goes it reaches the rings; the third
trip within one hour holds the module off. DEDUCED: notes/assumptions/84.md. -/
def execThermalTrip (sensor : Sensor) (temp : Int) (s : State) : Host.Outcome State Fault Refusal :=
  .next <|
    if s.board.power ≠ .on ∨ !((tripLimit sensor).any fun l => decide (l ≤ temp)) then s
    else
      let s := (s.setTemp sensor temp).postThermal true false (sensorCode sensor) temp
      let s := match s.holder with | some x => s.drainPosts x | none => s
      let recent := s.now :: s.board.tripTimes.filter fun t0 => decide (s.now < t0 + 3600000000000)
      let s := s.halvesOff.modBoard fun b =>
        { b with power := .tripped, trips := min 255 (b.trips + 1), tripTimes := recent,
                 heldOff := b.heldOff || decide (3 ≤ recent.length) }
      s.modTam fun t => { t with endCause := 5 }

/-- THERMAL_RESTART (R537): 60 °C or less, unless held off. -/
def execThermalRestart (t0 t1 : Int) (s : State) : Host.Outcome State Fault Refusal :=
  .next <|
    if s.board.power = .tripped ∧ !s.board.heldOff ∧ t0 ≤ 960 ∧ t1 ≤ 960 then
      (s.modTam fun t => t.powerUp true).envelopeCheck t0 t1
    else s

/-! ## The module reference (R528) -/

/-- Post REF_STATE: locked 0, holdover 1 or free run 2; offset in ppb. DEDUCED: notes/assumptions/26.md. -/
def State.postRef (s : State) : State :=
  s.boardEv 0x0D13 0 [(1, match s.board.refState with | 1 => 0 | 2 => 1 | _ => 2),
    (4, (s.board.refPpb % 4294967296).toNat)]

/-- `TIM_TC_CFG[0].REF_IN`, as the half that holds the helm has it. -/
def State.refIn (s : State) : Bool :=
  match s.holder with | some x => bit ((s.img x).reg 0 0xC00100) 30 | none => false

/-- REF_LOCK (R528). DEDUCED: notes/assumptions/87.md. -/
def execRefLock (ppb : Int) (s : State) : Host.Outcome State Fault Refusal :=
  .next <|
    if s.refIn && decide (-10000 ≤ ppb ∧ ppb ≤ 10000) then
      (s.modBoard fun b => { b with refState := 1, refPpb := ppb }).postRef
    else s

/-- REF_LOSS (R528). DEDUCED: notes/assumptions/87.md. -/
def execRefLoss (s : State) : Host.Outcome State Fault Refusal :=
  .next <| if s.board.refState = 1 then (s.modBoard fun b => { b with refState := 2 }).postRef else s

/-! ## Registers that the sideband shows -/

/-- HLM_STAT.STATE (13). -/
def helmCode : HelmSt → Nat
  | .activePaired => 0
  | .activeSolo => 1
  | .relinquished => 2
  | .inStep => 3
  | .out => 4
  | .halted => 5

/-- `HIF_MODULE_STAT`. -/
def State.moduleStat (s : State) : Nat :=
  let h := s.obeyed
  s.modState * 2 ^ 29 + (match s.holder with | some x => b2n (s.img x).service | none => 0) * 2 ^ 28 +
    b2n h.isSome * 2 ^ 27 + (match h with | some .B => 1 | _ => 0) * 2 ^ 26 + helmCode s.a.helm.st * 2 ^ 23 +
    helmCode s.b.helm.st * 2 ^ 20 + b2n s.cfgDefaulted * 2 ^ 19

/-- `TMP_STAT`. DEDUCED: notes/assumptions/85.md. -/
def State.tmpStat (s : State) : Nat :=
  let t := s.tam
  b2n t.seed * 2 ^ 31 + b2n (!t.inAlarm.isEmpty) * 2 ^ 30 + b2n t.pend.isSome * 2 ^ 29 + b2n t.evidenceLost * 2 ^ 28 +
    b2n t.saturated * 2 ^ 27 +
    (if t.cellFailed then 2 else if t.cellLow then 1 else if t.charging then 3 else 0) * 2 ^ 25 + t.evidence

/-- `MOD_THERMAL_STAT`. -/
def Board.thermalStat (b : Board) : Nat :=
  b2n (!b.warned.isEmpty || decide (2 ≤ b.failed.length)) * 2 ^ 31 + b2n b.heldOff * 2 ^ 30 + b.trips

/-- `MOD_PSU_STAT`. -/
def Board.psuStat (b : Board) : Nat :=
  let one : Supply → Nat := fun v => b2n v.ac + 2 * b2n v.dc + 4 * b2n v.fault
  b.loadW * 2 ^ 10 + one b.ps2 * 2 ^ 5 + one b.ps1 * 2 ^ 2 + 2 * b2n b.powerFail

/-- `MOD_FAN_STAT`. -/
def Board.fanStat (b : Board) : Nat :=
  b2n b.tray * 2 ^ 31 + ((b.failed.map (2 ^ ·)).sum) * 2 ^ 24 + b.duty

/-- `MOD_TEMP_STAT[k]`; the junction sensor of a half without power reads 0x8000. DEDUCED: notes/assumptions/85.md. -/
def State.tempStat (s : State) (k : Nat) : Nat :=
  if (k = 2 ∧ !s.a.boot.powered) ∨ (k = 3 ∧ !s.b.boot.powered) then 0x8000
  else (tabGet 0 s.board.temps k % 65536).toNat

/-- `MOD_CAGE_STAT[c]`. -/
def State.cageStat (s : State) (c : Nat) : Nat :=
  let v := s.cage c
  b2n v.present * 2 ^ 31 + b2n v.powered * 2 ^ 30 + b2n v.fault * 2 ^ 29 + b2n v.ready * 2 ^ 28 + v.powerQ * 2 ^ 16 +
    (v.caseTemp % 65536).toNat

/-- SIDEBAND_READ (R527, Table 18.7): answers from step 3 of Table 18.8 on; the layout of the change flags of page 0x50
is not stated, so its value is free. DESIGN CHOICE: notes/assumptions/86.md. -/
def execSidebandRead (page : Nat) (s : State) : Host.Outcome State Fault Refusal :=
  .next <|
    if s.board.power = .off then s
    else match page with
      | 0x00 => s.emit (.sideband page [(48, Config.moduleSerial)])
      | 0x10 => s.emit (.sideband page [(4, s.moduleStat), (4, s.tmpStat), (4, s.board.thermalStat)])
      | 0x20 => s.emit (.sideband page [(4, s.board.psuStat), (4, s.board.fanStat)])
      | 0x30 => s.emit (.sideband page ((List.range 6).map fun k => (4, s.tempStat k)))
      | 0x40 => s.emit (.sideband page ((List.range 8).map fun c => (4, s.cageStat c)))
      | 0x50 =>
        let (c, s) := s.draw
        (s.modBoard fun b => { b with alert := false }).emit (.sideband page [(4, c)])
      | _ => s

end Sys2Proof.Machine
end

