-- ==== Sys2Proof/Machine/Stations.lean ====
section
/-! DEFINITION. The learned-station table (07): its slots and relocation, the STN commands, learning, mooring and aging. -/

namespace Sys2Proof.Machine

open Sys2Proof

/-! ## Layout and lookup (R221–R224) -/

/-- A station key as one number. -/
def stnKeyNat (k : StnKey) : Nat := k.domain * 2 ^ 60 + k.vid * 2 ^ 48 + k.mac
/-- A station key in range. -/
def stnKeyOk (k : StnKey) : Bool := decide (k.domain < 16 ∧ k.vid < 4096 ∧ k.mac < 2 ^ 48)
/-- The group bit of an address. -/
def isGroup (mac : Nat) : Bool := decide (mac / 2 ^ 40 % 2 = 1)

/-- The bucket of a key in a sub-table: two keyed hash functions, the hash key drawn as the module leaves COLD. -/
def Image.bucket (im : Image) (sub k : Nat) : Nat := Config.stnHash sub im.stnHash k % 32768
/-- The 4 slots of a key's bucket in a sub-table. -/
def Image.bucketSlots (im : Image) (sub k : Nat) : List Nat :=
  (List.range 4).map fun i => 131072 * sub + 4 * im.bucket sub k + i
/-- The 8 slots that a lookup of a key reads. -/
def Image.slotsOf (im : Image) (k : Nat) : List Nat := im.bucketSlots 0 k ++ im.bucketSlots 1 k
/-- What a slot holds. -/
def Image.slotAt (im : Image) (i : Nat) : Option (Nat × Stn) := tabGet none im.stn i
/-- The station that a slot holds under a key. -/
def slotHas (k : Nat) : Option (Nat × Stn) → Option Stn
  | some e => if e.1 = k then some e.2 else none
  | none => none
/-- A lookup: the station under a key, in whichever of its slots (R224). -/
def Image.stnAt (im : Image) (k : Nat) : Option Stn := (im.slotsOf k).findSome? fun i => slotHas k (im.slotAt i)
/-- Slots in use. -/
def Image.stnUsed (im : Image) : Nat := im.stn.length

/-- The image with a slot set. -/
def Image.setSlot (im : Image) (i : Nat) (e : Option (Nat × Stn)) : Image := { im with stn := tabSet none im.stn i e }

/-- One slot of a key's, its station changed or removed. -/
def changeSlot (k : Nat) (f : Stn → Option Stn) (t : Tab (Option (Nat × Stn))) (i : Nat) : Tab (Option (Nat × Stn)) :=
  match slotHas k (tabGet none t i) with
  | some v => tabSet none t i ((f v).map fun v => (k, v))
  | none => t

/-- The station under a key changed or removed, in every slot that holds it. -/
def Image.modStn (im : Image) (k : Nat) (f : Stn → Option Stn) : Image :=
  { im with stn := (im.slotsOf k).foldl (changeSlot k f) im.stn }

/-! ## Relocation (R223) -/

/-- The first action of a move: the station's copy is written into its new slot. -/
def Image.copySlot (im : Image) (a b : Nat) : Image := im.setSlot b (im.slotAt a)
/-- One move, with the lookups that began before the copy over: the original is invalid. -/
def Image.moveSlot (im : Image) (a b : Nat) : Image := (im.copySlot a b).setSlot a none

/-- The slots to which the station in a slot may move: those of its other bucket. -/
def Image.otherSlots (im : Image) (i : Nat) : List Nat :=
  match im.slotAt i with
  | some e => im.bucketSlots (1 - i / 131072) e.1
  | none => []

/-- Paths, last slot first, one move longer. -/
def Image.longer (im : Image) (ps : List (List Nat)) : List (List Nat) :=
  ps.flatMap fun p => ((im.otherSlots (p.headD 0)).filter fun i => !p.contains i).map (· :: p)

/-- Breadth-first search for a path that ends at a free slot, with at most so many moves. -/
def Image.findPath (im : Image) : Nat → List (List Nat) → Option (List Nat)
  | 0, ps => ps.find? fun p => (im.slotAt (p.headD 0)).isNone
  | n + 1, ps =>
    match ps.find? fun p => (im.slotAt (p.headD 0)).isNone with
    | some p => some p
    | none => im.findPath n (im.longer ps)

/-- The moves along a path, from its free slot backward. -/
def Image.walk : List Nat → Image → Image
  | b :: a :: r, im => Image.walk (a :: r) (im.moveSlot a b)
  | _, im => im

/-- The path of an insert (R223): at most 4 moves, shortest first, sub-table 0 before 1. DEDUCED:
notes/assumptions/53.md. -/
def Image.pathFor (im : Image) (k : Nat) : Option (List Nat) := im.findPath 4 ((im.slotsOf k).map fun i => [i])

/-- A station written last into the slot that its path frees. -/
def Image.insertAt (im : Image) (p : List Nat) (k : Nat) (v : Stn) : Image :=
  (Image.walk p im).setSlot (p.getLastD 0) (some (k, v))

/-! ## Counts and changes -/

/-- The return entry of a station. -/
def Stn.entry (v : Stn) : Nat := v.port * 4096 + v.vid

/-- The count of a station's return entry changes; a static station is in no count. -/
def Image.countStn (im : Image) (v : Stn) (n : Int) : Image :=
  if v.isStatic then im else im.setChan v.entry ((im.chanAt v.entry).addStn n)

/-- Remove a station. -/
def Image.dropStn (im : Image) (k : Nat) (v : Stn) : Image := (im.countStn v (-1)).modStn k fun _ => none

/-- Key fields of an event payload. -/
def stnFld (k : Nat) : Fld := (8, leNat (keyBytes k))

/-- An insert that finds no path (R222): counted, and reported at most once per second.  Post STN_FULL: slots in use;
inserts failed since the last. -/
def State.stnFull (s : State) (x : Half) : State :=
  let y := s.half x
  let n := y.stnFullCnt + 1
  if y.stnFullAt = 0 ∨ y.stnFullAt - 1 + 1000000000 ≤ s.now then
    (s.modHalf x fun y => { y with stnFullAt := s.now + 1, stnFullCnt := 0 }).post x .learning 0x0205
      [(4, (s.img x).stnUsed), (4, n)]
  else s.modHalf x fun y => { y with stnFullCnt := n }

/-- An insert (R222, R223): whether it succeeded, and the state; a failed one leaves the table unchanged. -/
def State.stnInsert (s : State) (x : Half) (k : Nat) (v : Stn) : Bool × State :=
  match (s.img x).pathFor k with
  | some p => (true, s.modImg x fun im => (im.insertAt p k v).countStn v 1)
  | none => (false, s.stnFull x)

/-- STN_ADD (R228, R47): a static station; one under the same key takes its place. -/
def execStnAdd (h : Hdr) (r : StationRec) (s : State) : Host.Outcome State Fault Refusal :=
  let k := stnKeyNat r.key
  .next <| s.tblCommand h 0x0221
    (fun x => !stnKeyOk r.key || decide (8192 ≤ r.sc) || !(s.img x).isLinePort r.port) (fun _ => [])
    (fun x s =>
      let v : Stn := { sc := r.sc, port := r.port, vid := r.key.vid, isStatic := true, moored := false, hit := false,
                       moves := [], moorAt := 0, lastSeq := 0 }
      match (s.img x).stnAt k with
      | some o => (s.modImg x fun im => (im.countStn o (-1)).modStn k fun _ => some v).done x h 0x0221
      | none =>
        let r := s.stnInsert x k v
        if r.1 then r.2.done x h 0x0221 else r.2.postCpl x (cmdOf h 0x0221) stNoRes 0 [])

/-- STN_DEL. -/
def execStnDel (h : Hdr) (key : StnKey) (s : State) : Host.Outcome State Fault Refusal :=
  .next <| s.tblCommand h 0x0222 (fun _ => !stnKeyOk key) (fun _ => [])
    (fun x s =>
      match (s.img x).stnAt (stnKeyNat key) with
      | some v => (s.modImg x fun im => im.dropStn (stnKeyNat key) v).done x h 0x0222
      | none => s.postCpl x (cmdOf h 0x0222) stDone cfAbsent [])

/-- A mooring ends (R227): a dynamic station with no move recorded. -/
def Stn.release (v : Stn) : Stn := { v with moored := false, moves := [] }

/-- STN_RELEASE (R227). -/
def execStnRelease (h : Hdr) (key : StnKey) (s : State) : Host.Outcome State Fault Refusal :=
  .next <| s.tblCommand h 0x0223
    (fun x => !stnKeyOk key || !((s.img x).stnAt (stnKeyNat key)).any (·.moored)) (fun _ => [])
    (fun x s => (s.modImg x fun im => im.modStn (stnKeyNat key) fun v => some v.release).done x h 0x0223)

/-- A station that a flush names: every criterion that is set holds. -/
def flushes (a : FlushArgs) (k : Nat) (v : Stn) : Bool :=
  (!a.byDomain || decide (k / 2 ^ 60 = a.domain)) && (!a.byPort || decide (v.port = a.port)) &&
    (!a.bySc || decide (v.sc = a.sc)) && (a.includeStatic || !v.isStatic)

/-- The stations of the table with their keys. -/
def Image.stations (im : Image) : List (Nat × Stn) := im.stn.filterMap fun p => p.2

/-- Remove every station that satisfies a condition: which, and the image. -/
def Image.dropStns (im : Image) (c : Nat → Stn → Bool) : List (Nat × Stn) × Image :=
  let gone := im.stations.filter fun p => c p.1 p.2
  (gone, gone.foldl (fun im p => im.dropStn p.1 p.2) im)

/-- STN_FLUSH (R230, R47). -/
def execStnFlush (h : Hdr) (a : FlushArgs) (s : State) : Host.Outcome State Fault Refusal :=
  .next <| s.tblCommand h 0x0224
    (fun x => (a.byDomain && decide (16 ≤ a.domain)) || (a.byPort && !(s.img x).isLinePort a.port) ||
      (a.bySc && decide (8192 ≤ a.sc))) (fun _ => [])
    (fun x s =>
      let r := (s.img x).dropStns (flushes a)
      (s.modImg x fun _ => r.2).done x h 0x0224 [(4, r.1.length)])

/-- A station record of a dump (Table 07.7). DEDUCED: notes/assumptions/27.md. -/
def dumpRec (k : Nat) (v : Stn) : List Fld :=
  [(6, leNat (beBytes 6 (k % 2 ^ 48))), (2, k / 2 ^ 48 % 4096 + k / 2 ^ 60 * 4096),
   (2, v.sc + 8192 * b2n v.isStatic + 16384 * b2n v.moored + 32768 * b2n v.hit), (1, v.port), (1, v.moves.length), (4, 0)]

/-- STN_DUMP (R233). -/
def execStnDump (h : Hdr) (capacity addr : Nat) (s : State) : Host.Outcome State Fault Refusal :=
  .next <| s.tblCommand h 0x0225 (fun _ => decide (2 ^ 32 ≤ capacity)) (fun _ => [])
    (fun x s =>
      let all := (s.img x).stations.map fun p => dumpRec p.1 p.2
      let out := all.take capacity
      s.waitActed x { cmd := cmdOf h 0x0225, on := .dma, status := if capacity < all.length then stNoRes else stDone,
                      cflags := 0, result := [(4, out.length)], area := some (addr, out.flatten), cont := .finish })

/-! ## Aging and mooring (R227, R229) -/

/-- Every station with HIT cleared. -/
def Image.clearHits (im : Image) : Image :=
  { im with stn := im.stn.map fun p => (p.1, p.2.map fun e => (e.1, { e.2 with hit := false })) }

/-- STATION_AGING_SWEEP (R229), every STN_AGE_S. -/
def execStationAgingSweep (s : State) : Host.Outcome State Fault Refusal :=
  .next <| match s.holder with
    | none => s
    | some x =>
      let im := s.img x
      if im.stnAgeS = 0 ∨ s.now < im.stnSweptAt + im.stnAgeS * 1000000000 then s
      else
        let r := im.dropStns fun _ v => !v.isStatic && !v.moored && !v.hit
        let s := s.modImg x fun _ => { r.2.clearHits with stnSweptAt := s.now }
        if im.learnEvt then r.1.foldl (fun s p => s.post x .learning 0x0204 [stnFld p.1, (2, p.2.sc)]) s else s

/-- STATION_MOOR_EXPIRE (R227): MOOR_S after the mooring move; never with MOOR_S 0. -/
def execStationMoorExpire (key : StnKey) (s : State) : Host.Outcome State Fault Refusal :=
  .next <| match s.holder with
    | none => s
    | some x =>
      let im := s.img x
      match im.stnAt (stnKeyNat key) with
      | some v =>
        if v.moored ∧ im.moorS ≠ 0 ∧ v.moorAt + im.moorS * 1000000000 ≤ s.now then
          s.modImg x fun im => im.modStn (stnKeyNat key) fun v => some v.release
        else s
      | none => s

/-! ## Learning (R225–R228) -/

/-- The move at time `t` comes less than 1 s after the fourth-latest recorded move (R227). -/
def moorsNow (moves : List Nat) (t : Nat) : Bool :=
  match moves with
  | [_, _, _, m] => decide ((t : Int) - m < 1000000000 * 65536)
  | _ => false

/-- A learn that finds its key with another result (R226, R227): the move, and the mooring that may follow.  The last
field of STN_MOVED is its own usher number. DEDUCED: notes/assumptions/121.md. -/
def State.stnMove (s : State) (x : Half) (k : Nat) (v : Stn) (r : LearnReq) : State :=
  let t := tvUnits ((s.half x).tb (s.img x).moveTb).value
  let moor := moorsNow v.moves t
  let v' : Stn := { v with sc := r.sc, port := r.port, vid := r.vid, hit := true, moves := (t :: v.moves).take 4,
                           moored := moor, moorAt := if moor then s.now else v.moorAt }
  let s := (s.modImg x fun im => ((im.countStn v (-1)).countStn v' 1).modStn k fun _ => some v').post x .learning 0x0202
      [stnFld k, (2, v.sc), (1, v.port), (2, r.sc), (1, r.port), (8, v.lastSeq), (8, 0)]
  if moor then s.post x .learning 0x0203 [stnFld k, (2, r.sc), (1, r.port), instFld (timeOf t)] else s

/-- A learn request that passes R225, at the table (R226–R228). -/
def State.stnLearn (s : State) (x : Half) (r : LearnReq) : State :=
  let k := stnKeyNat r.key
  match (s.img x).stnAt k with
  | none =>
    let v : Stn := { sc := r.sc, port := r.port, vid := r.vid, isStatic := false, moored := false, hit := true,
                     moves := [], moorAt := 0, lastSeq := 0 }
    let q := s.stnInsert x k v
    if q.1 && (s.img x).learnEvt then q.2.post x .learning 0x0201 [stnFld k, (2, r.sc), (1, r.port)] else q.2
  | some v =>
    if v.moored then s
    else if v.sc = r.sc ∧ v.port = r.port then s.modImg x fun im => im.modStn k fun v => some { v with hit := true }
    else if v.isStatic then s.count x 4 r.port 6
    else s.stnMove x k v r

/-- The learning engine has no room to report, or the deferrable backlog is full: it waits (R36, R396). -/
def HState.learnWaits (x : HState) : Bool := x.srcFull .learning || x.backlogFull

/-- STATION_LEARN (R225, R226): a request that a verified frame has made, with the conditions of R225 at the learning
engine, then the table. -/
def execStationLearn (half : Half) (r : LearnReq) (s : State) : Host.Outcome State Fault Refusal :=
  onUnit (decide (r.port < 32 ∧ r.sc < 8192) && stnKeyOk r.key && decide (r.vid < 4096)) <|
    let x := s.half half
    let im := x.img
    let c := im.chanAt (r.port * 4096 + r.vid)
    if s.holder ≠ some half ∨ !x.learnReqs.contains r ∨ x.learnWaits then s
    else
      let s := s.modHalf half fun x => { x with learnReqs := x.learnReqs.erase r }
      if im.learnEn = false ∨ vRetValid c.cur = false ∨ vLearn c.cur = false then s
      else if c.lock then s.count half 4 r.port 4
      else if vStnMax c.cur ≠ 0 ∧ vStnMax c.cur ≤ c.stnCount then s.count half 4 r.port 5
      else s.stnLearn half r

end Sys2Proof.Machine
end

