-- ==== Sys2Proof/Machine/Packet.lean ====
section
/-! DEFINITION. Frames from a client port in packet mode: classification (07), policing, and the way to the queue of a line
port, or to the hold of a parked SA (06, 08). -/

namespace Sys2Proof.Machine

open Sys2Proof

/-- Client traffic is carried: BOOTING has ended and the module is not ERASED (R464, R546). -/
def State.carries (s : State) : Bool := s.tam.seed && decide (s.phase = .running)

/-! ## Classification (R206–R215, R221) -/

/-- What classification finds. -/
inductive Verdict where
  /-- dropped, with the index of its CLS_PORT count -/
  | drop (idx : Nat)
  /-- transmit SC and class -/
  | to (sc cls : Nat)
deriving DecidableEq, Repr

/-- The trie result for a frame at a port (R214). -/
def Image.trieFor (im : Image) (p : Nat) (f : FrameIn) : Option (BitVec 32) :=
  match im.trieKey p f with
  | some k => (trieFind im.trie.serve k.1 k.2).map (·.2)
  | none => none

/-- The transmit SC that a station lookup gives (R221, R227); none is a miss. -/
def Image.stationFor (im : Image) (domain vid dst : Nat) : Option Nat :=
  if isGroup dst then none
  else match im.stnAt (stnKeyNat { domain, vid, mac := dst }) with
    | some v => if v.moored then none else im.pairedSc v.sc domain
    | none => none

/-- Classify a frame of a port under a channel version. -/
def Image.classify (im : Image) (p : Nat) (v : BitVec 128) (vid : Nat) (f : FrameIn) : Verdict :=
  if !vInValid v then .drop 0
  else if vInMode v = 1 then
    match im.trieFor p f with
    | some r =>
      let w := r.toNat
      if w / 2 ^ 16 % 2 = 1 then .drop 2
      else if im.scDomain .tx (w % 4096) ≠ vDomain v then .drop 3
      else .to (w % 4096) (if w / 2 ^ 15 % 2 = 1 then w / 2 ^ 12 % 8 else vClass v)
    | none => .to (vTxSc v) (vClass v)
  else if vInMode v = 2 then
    .to ((im.stationFor (vDomain v) vid f.dst).getD (vTxSc v)) (vClass v)
  else .to (vTxSc v) (vClass v)

/-! ## Holds (R192, R193, R195) -/

/-- Statistic of a hold: group, and index of a frame held, of a hold expired, of a hold full. The record of a transmit SC shows
none of them (Table 17.3). DEDUCED: notes/assumptions/122.md. -/
def holdStat : Dir → Nat × Nat × Nat × Nat
  | .rx => (6, 9, 10, 11)
  | .tx => (7, 7, 5, 6)

/-- Frames are held for an SA. -/
def HState.holds (x : HState) (d : Dir) (sc an : Nat) : Bool :=
  x.held.any fun e => decide (e.dir = d ∧ e.sc = sc ∧ e.an = an)

/-- Hold a frame for a parked SA, or drop it when the hold's cells or the loads are spent (R193); a hold begins with its first
frame. -/
def State.holdFrame (s : State) (h : Half) (e : Held) : State :=
  let x := s.half h
  let v := x.img.sa e.dir e.sc e.an
  let k := holdStat e.dir
  if x.img.holdCells < x.heldCells + e.cells ∨ (!v.loading ∧ !v.wanted ∧ x.img.maxLoads ≤ x.img.saLoads) then
    s.count h k.1 e.sc k.2.2.2
  else
    let since := if x.holds e.dir e.sc e.an then v.holdAt else s.now
    let s := s.modHalf h fun x =>
      { x with held := x.held ++ [e], img := x.img.setSa e.dir e.sc e.an { v with holdAt := since } }
    (s.startLoad h e.dir e.sc e.an).count h k.1 e.sc k.2.1

/-- A class-0 frame that meets a parked SA (R195): dropped, counted, reported. DEDUCED: notes/assumptions/122.md. -/
def State.expressMiss (s : State) (h : Half) (d : Dir) (sc an : Nat) : State :=
  let s := match d with | .tx => s.count h 7 sc 4 | .rx => s.count h 6 sc 13
  s.postLevel h 0x0B08 (d.idx + 2 * (4 * sc + an)) [(2, sc), (1, d.idx), (1, an)] (.dom ((s.img h).scDomain d sc))

/-- A frame that selects an exhausted SA (R183): dropped, counted, reported once. -/
def State.exhaustedDrop (s : State) (h : Half) (sc an : Nat) : State :=
  let s := s.count h 7 sc 2
  let v := (s.img h).sa .tx sc an
  if v.exhPosted || !s.isActive h then s
  else
    let n := tabGet 0 (s.half h).stats (statKey 7 sc 2)
    (s.modImg h fun im => im.setSa .tx sc an { v with exhPosted := true }).postSc h .tx sc 0x0B02
      [(2, sc), (1, an), (8, n)]

/-! ## From a client port -/

/-- A line port that sends frames: a port of a packet-mode cage, enabled (R3, R47, R203). -/
def Image.lineServes (im : Image) (p : Nat) : Bool := im.pktLine p && im.portEn p

/-- A frame with its transmit SC and class meets the SC's current SA: dropped, held, or admitted to its queue.  The transmit
SecY of a half that is not active uses no key (R411), and its frames go to their queues. DEDUCED: notes/assumptions/122.md. -/
def State.toLine (s : State) (h : Half) (sc cls : Nat) (f : HFrame) : State :=
  let im := s.img h
  let c := im.sc .tx sc
  match c.args with
  | none => s
  | some a =>
    let q := 8 * (32 + a.port) + cls
    if !im.lineServes a.port then s
    else if f.clear || !s.isActive h then s.enqueue h q { f with sc }
    else match c.cur with
      | none => s
      | some an =>
        let v := im.sa .tx sc an
        let f : HFrame := { f with sc, an }
        if v.orphaned then s.count h 7 sc 3
        else if v.exhausted then s.exhaustedDrop h sc an
        else if v.resident then s.enqueue h q f
        else if cls = 0 then s.expressMiss h .tx sc an
        else s.holdFrame h { dir := .tx, sc, an, id := f.id, cells := cellsOf f.len, queue := q, tx := some f }

/-- A port's client PCS restarts on one of its lanes (R49). -/
def HState.restarting (x : HState) (p : Nat) : Bool :=
  (List.range (x.img.portWidth (p / 8))).any fun i => (x.lane (p + i)).pcsRestart

/-- Ingress timestamp of a frame, where its residence time is to be added (R381). -/
def State.stampFor (s : State) (h : Half) (p : Nat) (f : FrameIn) : Option Int :=
  if addsResidence f then some (s.macTime h p f.id false) else none

/-- CLIENT_FRAME_RX (R206, R239, R255–R258, R262, R380, R381): nothing is taken while the client PCS restarts (R49). -/
def execClientFrameRx (half : Half) (port : Nat) (f : FrameIn) (s : State) : Host.Outcome State Fault Refusal :=
  onUnit (decide (port < 32)) <|
    let im := s.img half
    if !(s.half half).up || !im.pktClient port then s
    else
      let s := s.portFec half port f.fec
      if !s.carries || (s.half half).restarting port then s
      else if im.typeAt port f = ptpEtherType ∧ im.ptpEngine port then s.toPtp half port f 0
      else
        let vid := im.vidOf port f.tags
        let v := (im.chanAt (port * 4096 + vid)).cur
        let s := s.modImg half fun im => im.chanHit (port * 4096 + vid)
        match im.classify port v vid f with
        | .drop i => s.count half 4 port i
        | .to sc cls =>
          match (im.sc .tx sc).args with
          | none => s.count half 4 port 0
          | some a =>
            let m := if vPolEn v then s.meter half (vPolicer v) (frameLen f) else (0, false, s)
            let s := m.2.2
            if m.2.1 then s
            else
              let clear := decide (im.typeAt port f = ptpEtherType) && im.ptpClear port
              let body := if m.1 = 1 ∧ !clear then markDei a.clearTags f else f
              s.toLine half sc (if m.1 = 2 then 7 else cls)
                { id := f.id, body, since := s.now, clear, stamp := if clear then s.stampFor half port f else none }

end Sys2Proof.Machine
end

