-- ==== Sys2Proof/Machine/Egress.lean ====
section
/-! DEFINITION. The egress scheduler (R243–R249) with the transmit SecY (R174, R181–R183) and MAC Merge (R196, R246). -/

namespace Sys2Proof.Machine

open Sys2Proof

/-- What a half sends passes the slipways only while they obey its claim (R66). -/
def State.pass (s : State) (h : Half) (o : Out) : State := if s.obeyed = some h then s.emit o else s

/-- A queue's frame list changed. -/
def HState.modQueue (x : HState) (q : Nat) (f : List HFrame → List HFrame) : HState := x.setQueue q (f (x.queue_ q))

/-! ## What a queue offers (R243–R245) -/

/-- The SCs with a frame in a line queue, in order of their first frame. -/
def listScs (l : List HFrame) : List Nat := (l.map (·.sc)).eraseDups

/-- The next SC of a round robin after `last`: the least greater one, else the least. -/
def nextRound (last : Nat) (scs : List Nat) : Option Nat :=
  match (scs.filter fun c => decide (last < c + 1)).min? with
  | some c => some c
  | none => scs.min?

/-- The frame that a queue offers: in a line queue the head of the next SC list whose shaper is eligible; elsewhere the
head. -/
def HState.offer (x : HState) (q : Nat) : Option HFrame :=
  let l := x.queue_ q
  if q < 256 then (l.head?).filter fun f => !f.waits
  else
    let ok := (listScs l).filter fun c => x.eligible (shaperKey .sc c)
    match nextRound (tabGet 0 x.rrLast q) ok with
    | some c => l.find? fun f => decide (f.sc = c)
    | none => none

/-- What a class of an egress port offers while its queue's shaper is eligible. -/
def HState.classOffer (x : HState) (e c : Nat) : Option (Nat × HFrame) :=
  if x.eligible (8 * e + c) then (x.offer (8 * e + c)).map fun f => (8 * e + c, f) else none

/-- The eligible queue of the lowest class with what it offers; class 0 alone while a frame is paused. -/
def HState.pickClass (x : HState) (e : Nat) (express : Bool) : Option (Nat × HFrame) :=
  (List.range (if express then 1 else 8)).findSome? (x.classOffer e)

/-- A frame waits at the head of a queue whose shaper is not eligible: counted once per frame, and for class 0 of a
line port reported at most once per second (R248). -/
def State.shaperHold (s : State) (h : Half) (q : Nat) : State :=
  let x := s.half h
  match x.offer q with
  | some f =>
    if f.stalled || x.eligible q then s
    else
      let s := (s.modHalf h fun x => x.modQueue q fun l => l.map fun g =>
        if g.id = f.id ∧ g.sc = f.sc then { g with stalled := true } else g).count h 8 q 5
      if 256 ≤ q ∧ q % 8 = 0 then
        let p := q / 8 - 32
        let (now, n, a, c) := rateLimit x.heldAt x.heldCnt p s.now 1000000000
        let s := s.modHalf h fun x =>
          { x with heldAt := a, heldCnt := c, heldLast := tabSet 0 x.heldLast p (s.now + 1) }
        if now then s.post h .cores 0x0501 [(1, p), (4, n)] else s
      else s
  | none => s

/-! ## A frame leaves -/

/-- A port sends a frame. -/
def HState.setSending (x : HState) (e : Nat) (v : Option Sending) : HState :=
  { x with sending := tabSet none x.sending e v }

/-- The frame that a port has been sending has left: its shapers are charged with its length on the wire (R249). -/
def State.finishSend (s : State) (h : Half) (e : Nat) : State :=
  match tabGet none (s.half h).sending e with
  | some v =>
    (s.modHalf h fun x =>
      let x := x.charge v.queue v.wire
      let x := if 256 ≤ v.queue then x.charge (shaperKey .sc v.frame.sc) v.wire else x
      x.setSending e none).count h 8 v.queue 4
  | none => s

/-- The frame with its residence time added as it leaves (R381). -/
def State.atEgress (s : State) (h : Half) (e : Nat) (f : HFrame) : FrameIn :=
  match f.stamp with
  | some t => addResidence f.body (s.macTime h e f.id true - t)
  | none => f.body

/-- The transmit timestamp of a frame of the PTP engine (R378, R380). -/
def State.stampSent (s : State) (h : Half) (e : Nat) (f : HFrame) : State :=
  if f.ptpOwn then
    let r := s.timestamp h e f.id true
    r.2.modHalf h fun x => { x with ptp := { x.ptp with tx := some r.1 } }
  else s

/-- Bytes of a frame of so many bytes that go before the 66b block with its last FCS byte (R178). -/
def beforeLast (n : Nat) : Nat := 8 * ((n - 1) / 8)

/-- A frame begins to leave a client port: all of it but the block withheld for its verdict (R178). -/
def State.sendClient (s : State) (h : Half) (e q : Nat) (f : HFrame) : State :=
  if !(s.img h).pktClient e then s
  else
    let bs := withFcs (frameBytes (s.atEgress h e f))
    let s := (s.modHalf h fun x => x.setSending e (some { queue := q, frame := f, wire := bs.length })).pass h
      (if f.unsure then .client e f.id (bs.take (beforeLast bs.length)) none else .client e f.id bs (some false))
    s.stampSent h e f

/-- A frame begins to leave a line port: as it stands, without a SecTAG. -/
def State.sendPlain (s : State) (h : Half) (e q : Nat) (f : HFrame) : State :=
  let bs := withFcs (frameBytes (s.atEgress h e f))
  let most := (s.img h).maxFrame (e - 32)
  let tooLong := decide (most < bs.length)
  let s := s.modHalf h fun x =>
    { x.setSending e (some { queue := q, frame := f, wire := min bs.length most }) with
      rrLast := tabSet 0 x.rrLast q (f.sc + 1) }
  ((if tooLong then s.count h 5 (e - 32) 9 else s).pass h (.frame e f.id (bs.take most) tooLong)).stampSent h e f

/-- A standby's frame leaves its queue and the lane sends idle (R411, R262). -/
def State.sendIdle (s : State) (h : Half) (e q : Nat) (a : ScArgs) (f : HFrame) : State :=
  let wire := frameLen f.body + (if a.includeSci then 32 else 24)
  s.modHalf h fun x =>
    { x.setSending e (some { queue := q, frame := f, wire }) with rrLast := tabSet 0 x.rrLast q (f.sc + 1) }

/-- Receive SCs on a line port. -/
def Image.rxScsOn (im : Image) (p : Nat) : Nat :=
  (im.scRx.filter fun q => q.2.args.any fun a => decide (a.port = p)).length

/-- A transmit SA has used a PN (R181): the next one, what it exhausts, and the count that the copy carries. -/
def State.usePn (s : State) (h : Half) (sc an : Nat) (a : ScArgs) (v : Sa) : State :=
  let pn := v.pn + 1
  let s := s.modHalf h fun x =>
    { x with pnUsed := tabSet 0 x.pnUsed (4 * sc + an) (tabGet 0 x.pnUsed (4 * sc + an) + 1),
             img := x.img.setSa .tx sc an
               { v with pn, lastUse := s.now, exhausted := decide (lastPn a.suite < pn) } }
  s.pnReached h sc an

/-- Encrypt a frame and send it on its line port (R172, R174, R181): one too long is cut off, and has used its PN. -/
def State.sendLine (s : State) (h : Half) (e q an : Nat) (a : ScArgs) (v : Sa) (f : HFrame) : State :=
  let im := s.img h
  let k := im.key v.handle
  let n := (restBytes f.body a.clearTags).length
  let t := sentTag a (decide (1 < im.rxScsOn a.port)) an v.pn n
  let bs := withFcs (protectFrame a t (sakBytes a.suite k.key) (frameIv a.suite a.sci v.ssci k.salt v.pn) f.body)
  let most := im.maxFrame a.port
  let tooLong := decide (most < bs.length)
  let s := s.modHalf h fun x =>
    { x.setSending e (some { queue := q, frame := { f with an }, wire := min bs.length most }) with
      rrLast := tabSet 0 x.rrLast q (f.sc + 1) }
  let s := if tooLong then s.count h 5 a.port 9 else (s.count h 7 f.sc 1).count h 5 a.port 11 n
  (s.pass h (.frame e f.id (bs.take most) tooLong)).usePn h f.sc an a v

/-- A frame that the scheduler picked for a line port meets its SC's current SA; one whose SA has been parked since is held,
and comes back to its place. PRESUMED: notes/assumptions/49.md. -/
def State.encrypt (s : State) (h : Half) (e q : Nat) (f : HFrame) : State :=
  let im := s.img h
  let c := im.sc .tx f.sc
  match c.args with
  | none => s
  | some a =>
    if !s.isActive h then s.sendIdle h e q a f
    else match c.cur with
      | none => s
      | some an =>
        let v := im.sa .tx f.sc an
        let f : HFrame := { f with an }
        if v.orphaned then s.count h 7 f.sc 3
        else if v.exhausted then s.exhaustedDrop h f.sc an
        else if v.resident then s.sendLine h e q an a v f
        else if q % 8 = 0 then s.expressMiss h .tx f.sc an
        else s.holdFrame h { dir := .tx, sc := f.sc, an, id := f.id, cells := cellsOf f.len, queue := q, back := true,
                             tx := some f }

/-- The picked frame leaves by its port. -/
def State.sendFrame (s : State) (h : Half) (e q : Nat) (f : HFrame) : State :=
  if e < 32 then s.sendClient h e q f
  else if !(s.img h).lineServes (e - 32) then s
  else if f.clear then s.sendPlain h e q f
  else s.encrypt h e q f

/-! ## MAC Merge (R196, R246) -/

/-- A frame in progress may pause at `n` bytes: its port preempts, it is preemptable, an express frame may leave, and both
fragments are long enough (IEEE 802.3br). PRESUMED: notes/assumptions/50.md. -/
def HState.mayPause (x : HState) (e n : Nat) (v : Sending) : Bool :=
  decide (32 ≤ e) && decide (tabGet 0 x.preempt (e - 32) = 2) && decide (v.queue % 8 ≠ 0) &&
    (x.classOffer e 0).isSome &&
    decide (v.from_ + 64 * (1 + x.img.addFrag (e - 32)) ≤ n + 4 ∧ n + 64 ≤ v.wire)

/-- Start the next frame of a port: an express frame, the frame that paused, or the eligible queue of the lowest class. -/
def State.startNext (s : State) (h : Half) (e : Nat) : State :=
  let s := (List.range 8).foldl (fun s c => s.shaperHold h (8 * e + c)) s
  let x := s.half h
  let p := tabGet none x.paused e
  match x.pickClass e p.isSome, p with
  | some v, _ => (s.modHalf h fun x => x.modQueue v.1 fun l => l.erase v.2).sendFrame h e v.1 v.2
  | none, some v =>
    (s.modHalf h fun x => { x.setSending e (some v) with paused := tabSet none x.paused e none }).pass h
      (.resume e v.frame.id v.from_)
  | none, none => s

/-- SCHEDULER_PICK (R245, R246): the port can start a frame, or pause the one in progress for an express frame.
  A frame whose verdict is awaited has not left, and a port whose PCS restarts sends none (R49). PRESUMED:
notes/assumptions/50.md. -/
def execSchedulerPick (half : Half) (v : PickAt) (s : State) : Host.Outcome State Fault Refusal :=
  onUnit (decide (v.egress < 64)) <|
    let x := s.half half
    let egress := v.egress
    if !x.up || (decide (egress < 32) && x.restarting egress) then s
    else match v.gone, tabGet none x.sending egress with
      | some n, some v =>
        if x.mayPause egress n v then
          ((s.modHalf half fun x =>
              { x.setSending egress none with paused := tabSet none x.paused egress (some { v with from_ := n }) }).pass half
            (.pause egress v.frame.id n)).startNext half egress
        else s
      | some _, none => s
      | none, some v => if v.frame.unsure then s else (s.finishSend half egress).startNext half egress
      | none, none => s.startNext half egress

/-- PREEMPT_VERIFY (R196): line port; succeeded 0 or failed 1; ADD_FRAG in use.  A half that sends idle (R411) cannot
verify. PRESUMED: notes/assumptions/50.md. -/
def execPreemptVerify (half : Half) (port : Nat) (ok : Bool) (s : State) : Host.Outcome State Fault Refusal :=
  onUnit (decide (port < 32)) <|
    let x := s.half half
    if s.isActive half && decide (tabGet 0 x.preempt port = 1) then
      (s.modHalf half fun x => { x with preempt := tabSet 0 x.preempt port (if ok then 2 else 3) }).post half .cores
        0x0B07 [(1, port), (1, b2n (!ok)), (1, x.img.addFrag port)]
    else s

end Sys2Proof.Machine
end

