-- ==== Sys2Proof/Machine/LineRx.lean ====
section
/-! DEFINITION. Frames from a packet-mode line port (R171–R178), their verdicts (R177, R180), and the end of holds
(R192, R193). -/

namespace Sys2Proof.Machine

open Sys2Proof

/-! ## SCs and packet numbers (R176, R185) -/

/-- The full PN of a received frame (R185): recovered for an XPN suite from the lowest acceptable PN. -/
def recoverPn (u : Suite) (low lapn : Nat) : Nat :=
  if suiteXpn u then
    let up := lapn / 2 ^ 32
    if lapn / 2 ^ 31 % 2 = 1 ∧ low / 2 ^ 31 % 2 = 0 then (up + 1) * 2 ^ 32 + low else up * 2 ^ 32 + low
  else low

/-- The receive SC of a frame (R176): by its explicit SCI, or the port's default receive SC, its first. -/
def Image.rxScFor (im : Image) (port : Nat) (t : SecTag) : Option Nat :=
  (im.scRx.find? fun p => p.2.args.any fun a => decide (a.port = port) && (!t.sc || decide (a.sci = t.sci))).map
    Prod.fst

/-- The replay check (R176): rejected when replay protection is on and the PN lies below the lowest acceptable PN. -/
def Image.late (im : Image) (sc an pn : Nat) : Bool :=
  (im.sc .rx sc).args.any (·.replayProtect) && decide (pn < (im.sa .rx sc an).pn)

/-- Length of a frame on the line, its FCS included. -/
def lineLen (f : LineFrameIn) : Nat :=
  16 + 4 * f.tags.length + (match f.secTag with | some t => (secTagBytes t).length | none => 2) + f.data.length +
    f.icv.length

/-! ## The return direction (R207, R208, R241) -/

/-- The channel version that a return lookup reads now. -/
def Image.retVersion (im : Image) (entry : Nat) : BitVec 128 := (im.chanAt entry).cur

/-- Where a version's return part sends a frame: its queue; nothing where it is not valid, or names a port that is no client
port in packet mode any more (R49). -/
def Image.retQueue (im : Image) (v : BitVec 128) : Option Nat :=
  if vRetValid v && im.pktClient (vRetPort v) then some (8 * vRetPort v + vRetClass v) else none

/-- A frame as delivered enters the queue of its return part (R241): the queue that admits it, and the state. -/
def State.toClient (s : State) (h : Half) (port entry : Nat) (v : BitVec 128) (f : HFrame) : Option Nat × State :=
  let s := s.modImg h fun im => im.chanHit entry
  match (s.img h).retQueue v with
  | none => (none, s.count h 4 port 1)
  | some q => (if ((s.half h).refuses q).isNone then some q else none, s.enqueue h q f)

/-- What the learning engine is to learn from a frame that verifies (R225). -/
def Image.learnOf (im : Image) (sc port vid src : Nat) (v : BitVec 128) : Option LearnReq :=
  if vRetValid v && vLearn v && !isGroup src then
    some { key := { domain := im.scDomain .rx sc, vid, mac := src }, sc, port, vid }
  else none

/-! ## Decrypting -/

/-- A frame decrypts (R173, R177, R178): it enters its client queue, its verdict awaited.  A lookup that it has made already
stands (R208). -/
def State.decrypt (s : State) (h : Half) (port sc pn : Nat) (t : SecTag) (f : LineFrameIn)
    (was : Option (Nat × BitVec 128)) : State :=
  let im := s.img h
  match (im.sc .rx sc).args with
  | none => s
  | some a =>
    let v := im.sa .rx sc t.an
    let k := im.key v.handle
    let sci := if t.sc then t.sci else a.sci
    let r := validateFrame a.confOffset (sakBytes a.suite k.key) (frameIv a.suite sci v.ssci k.salt pn) f t
    let g := delivered f r.1
    let vid := im.vidOf port g.tags
    let entry := port * 4096 + vid
    let ver := match was with
      | some w => if w.1 = entry then w.2 else im.retVersion entry
      | none => im.retVersion entry
    let q := s.toClient h port entry ver
      { id := f.id, body := g, sc, an := t.an, since := s.now, unsure := true, waits := im.portVerifyFirst port }
    (q.2.modHalf h fun x => { x with rxFrames := x.rxFrames ++
        [{ id := f.id, sc, an := t.an, pn, queue := q.1, port, c := t.c, icvOk := r.2,
           learn := im.learnOf sc port vid f.src ver }] }).count h 5 port (if t.e then 7 else 6) f.data.length

/-- A frame with its SA resident: replay-checked, then decrypted. -/
def State.checkPn (s : State) (h : Half) (port sc : Nat) (t : SecTag) (f : LineFrameIn)
    (was : Option (Nat × BitVec 128)) : State :=
  let im := s.img h
  let pn := recoverPn (im.scSuite .rx sc) t.pn (im.sa .rx sc t.an).pn
  if im.late sc t.an pn then s.count h 6 sc 3 else s.decrypt h port sc pn t f was

/-- A frame with a SecTAG (R176).  Which class it has where its SA is parked follows from its tags in clear. DEDUCED:
notes/assumptions/122.md. -/
def State.lineSecTag (s : State) (h : Half) (port : Nat) (f : LineFrameIn) (t : SecTag) : State :=
  let im := s.img h
  let strict := im.portStrict port || t.c
  if !secTagOk true t f.data.length then s.count h 5 port 2
  else match im.rxScFor port t with
  | none => s.count h 5 port (if strict then 4 else 3)
  | some sc =>
    let v := im.sa .rx sc t.an
    let entry := port * 4096 + im.vidOf port f.tags
    let ver := im.retVersion entry
    if !secTagOk (suiteXpn (im.scSuite .rx sc)) t f.data.length then s.count h 5 port 2
    else if !v.inst then s.count h 6 sc (if strict then 6 else 7)
    else if v.orphaned then s.count h 6 sc 12
    else if v.resident then s.checkPn h port sc t f none
    else if !s.isActive h then s
    else if vRetValid ver && decide (vRetClass ver = 0) then s.expressMiss h .rx sc t.an
    else s.holdFrame h { dir := .rx, sc, an := t.an, id := f.id, cells := cellsOf (lineLen f),
                         rx := some { port, tag := t, f, entry, ver } }

/-- A frame read without a SecTAG (R171, R380, R381). -/
def State.lineUntagged (s : State) (h : Half) (port : Nat) (f : LineFrameIn) : State :=
  let im := s.img h
  let g := plainFrame f
  let ptp := decide (im.typeAt port g = ptpEtherType)
  if f.etherType = 0x888E then s.toControl h 0 (port / 8) (cellsOf (lineLen f))
  else if f.etherType = 0x88B5 then s.toControl h 1 (port / 8) (cellsOf (lineLen f))
  else if ptp && im.ptpEngine (32 + port) then s.toPtp h (32 + port) g (port / 8)
  else if !s.carries then s
  else
    let clear := ptp && im.ptpClear (32 + port)
    let entry := port * 4096 + im.vidOf port g.tags
    if !clear && im.portStrict port then s.count h 5 port 1
    else
      ((if clear then s else s.count h 5 port 0).toClient h port entry (im.retVersion entry)
        { id := f.id, body := g, since := s.now, stamp := if clear then s.stampFor h (32 + port) g else none }).2

/-- LINE_FRAME_RX (R171, R173, R176, R380, R381). -/
def execLineFrameRx (half : Half) (port : Nat) (f : LineFrameIn) (s : State) : Host.Outcome State Fault Refusal :=
  onUnit (decide (port < 32)) <|
    let im := s.img half
    if !(s.half half).up || !im.lineServes port then s
    else
      let s := s.portFec half (32 + port) f.fec
      match tagSeen (im.portClearTags port) f with
      | some t => if s.carries then s.lineSecTag half port f t else s
      | none => s.lineUntagged half port (unread f)

/-! ## Verdicts (R177, R178, R180) -/

/-- The lowest acceptable PN after a frame that verifies: it never falls. -/
def raisePn (lapn pn window : Nat) : Nat := max lapn (pn + 1 - window)

/-- Report a failed frame: SECY_ICV_FAIL at most once per 1.024 µs per receive SC (R180).  Half; SC; AN; frames
failed, poisoned and dropped since the last event. -/
def State.icvFail (s : State) (h : Half) (r : RxFrame) (poisoned : Bool) : State :=
  let x := s.half h
  let last := tabGet 0 x.icvAt r.sc
  let (a, b, c) := tabGet (0, 0, 0) x.icvCnt r.sc
  let n := (a + 1, b + b2n poisoned, c + b2n (!poisoned))
  if last = 0 ∨ last - 1 + 1024 ≤ s.now then
    (s.modHalf h fun x => { x with icvAt := tabSet 0 x.icvAt r.sc (s.now + 1),
                                   icvCnt := tabSet (0, 0, 0) x.icvCnt r.sc (0, 0, 0) }).postSc h .rx r.sc 0x0B05
      [(1, h.idx), (2, r.sc), (1, r.an), (4, n.1), (4, n.2.1), (4, n.2.2)]
  else s.modHalf h fun x => { x with icvCnt := tabSet (0, 0, 0) x.icvCnt r.sc n }

/-- The active half sends a learn request on its way through the usher (R225, R226). -/
def State.learnFrom (s : State) (h : Half) (r : RxFrame) : State :=
  match r.learn with
  | some l => if s.isActive h then s.modHalf h fun x => { x with learnReqs := x.learnReqs ++ [l] } else s
  | none => s

/-- A frame verifies (R177): the lowest acceptable PN rises, and the first one under an SA is reported (R188). -/
def State.verified (s : State) (h : Half) (r : RxFrame) : State :=
  let im := s.img h
  let v := im.sa .rx r.sc r.an
  let win := match (im.sc .rx r.sc).args with | some a => a.replayWindow | none => 0
  let s := s.count h 6 r.sc (if r.pn < v.pn then 2 else 0)
  if !v.inst then s
  else
    let s := s.modImg h fun im => im.setSa .rx r.sc r.an
      { v with pn := raisePn v.pn r.pn win, usePosted := true, lastUse := s.now,
               usedAt := if v.usePosted then v.usedAt else s.now }
    if v.usePosted then s else s.postSc h .rx r.sc 0x0B04 [(2, r.sc), (1, r.an), (8, r.pn)]

/-- The copies of a frame in its client queue changed. -/
def State.inQueue (s : State) (h : Half) (r : RxFrame) (f : HFrame → Option HFrame) : State :=
  match r.queue with
  | some q => s.modHalf h fun x => x.modQueue q fun l => l.filterMap fun g => if g.id = r.id then f g else some g
  | none => s

/-- A frame that has its verdict is sure, and waits no longer (R178). -/
def HFrame.settle (g : HFrame) : HFrame := { g with unsure := false, waits := false }

/-- The frame is still in its queue: it has not begun to leave the hall. -/
def HState.notBegun (x : HState) (r : RxFrame) : Bool :=
  match r.queue with
  | some q => (x.queue_ q).any fun g => decide (g.id = r.id)
  | none => true

/-- The frame is leaving by its client port, its last block withheld. -/
def HState.leaving (x : HState) (r : RxFrame) : Option Sending :=
  match r.queue with
  | some q => (tabGet none x.sending (q / 8)).filter fun v => decide (v.frame.id = r.id) && v.frame.unsure
  | none => none

/-- The end of a frame that is leaving by its client port: the rest of it, or error blocks (R178). -/
def State.endClient (s : State) (h : Half) (r : RxFrame) (good : Bool) : State :=
  match (s.half h).leaving r with
  | none => s
  | some v =>
    let e := v.queue / 8
    let bs := withFcs (frameBytes v.frame.body)
    (s.modHalf h fun x => x.setSending e (some { v with frame := v.frame.settle })).pass h
      (.client e r.id (if good then bs.drop (beforeLast bs.length) else []) (some (!good)))

/-- A frame that is delivered: sure in its queue, or its end sent. -/
def State.release_ (s : State) (h : Half) (r : RxFrame) : State :=
  (s.inQueue h r fun g => some g.settle).endClient h r true

/-- A failed frame that the standard discards (R178, R180): dropped whole before it begins to leave, poisoned after. -/
def State.discardFrame (s : State) (h : Half) (r : RxFrame) : State :=
  let poisoned := !(s.half h).notBegun r
  let s := s.count h 6 r.sc 5
  let s := if poisoned then (s.count h 6 r.sc 8).endClient h r false else s.inQueue h r fun _ => none
  s.icvFail h r poisoned

/-- FRAME_VERDICT (R177, R178, R180, R225): what the line MAC found wrong with the frame fails it. DESIGN CHOICE:
notes/assumptions/6.md. PRESUMED: notes/assumptions/49.md. -/
def execFrameVerdict (half : Half) (frame : Nat) (marked fcs length : Bool) (s : State) :
    Host.Outcome State Fault Refusal :=
  .next <|
    let x := s.half half
    match x.rxFrames.find? fun r => decide (r.id = frame) with
    | none => s
    | some r =>
      let s := s.modHalf half fun x => { x with rxFrames := x.rxFrames.erase r }
      if r.icvOk && !(marked || fcs || length) then ((s.verified half r).learnFrom half r).release_ half r
      else if !x.img.portStrict r.port && !r.c then (s.count half 6 r.sc 4).release_ half r
      else s.discardFrame half r

/-! ## Holds end (R192, R193) -/

/-- HOLD_EXPIRE (R193): the hold to which a frame belongs has lasted as long as it may; its frames are dropped, and
counted. -/
def execHoldExpire (half : Half) (frame : Nat) (s : State) : Host.Outcome State Fault Refusal :=
  .next <|
    let x := s.half half
    match x.held.find? fun e => decide (e.id = frame) with
    | none => s
    | some e =>
      if s.now < (x.img.sa e.dir e.sc e.an).holdAt + x.img.holdNs then s
      else (s.dropHeld half e.dir e.sc e.an (holdStat e.dir).2.2.1).2

/-- A queue that had let a frame go takes it back in front (R192), under R239. -/
def State.requeue (s : State) (h : Half) (q : Nat) (f : HFrame) : State :=
  match (s.half h).refuses q with
  | some c => s.refused_ h q c
  | none => s.modHalf h fun x => x.modQueue q fun l => f :: l

/-- A held frame leaves its hold: a transmit frame enters its queue; a received one is replay-checked and decrypts. -/
def State.releaseHeldFrame (h : Half) (s : State) (e : Held) : State :=
  match e.tx, e.rx with
  | some f, _ => s.enqueue h e.queue f
  | none, some r => s.checkPn h r.port e.sc r.tag r.f (some (r.entry, r.ver))
  | none, none => s

/-- A frame that comes back to the front of its queue. -/
def State.requeueHeld (h : Half) (s : State) (e : Held) : State :=
  match e.tx with
  | some f => s.requeue h e.queue f
  | none => s

/-- Release every frame held for an SA, in order of arrival (R192): those that had left their queues come back in front. -/
def State.releaseSa (s : State) (h : Half) (d : Dir) (sc an : Nat) : State :=
  let mine := (s.half h).held.filter fun e => decide (e.dir = d ∧ e.sc = sc ∧ e.an = an)
  let s := s.modHalf h fun x => { x with held := x.held.filter fun e => !decide (e.dir = d ∧ e.sc = sc ∧ e.an = an) }
  let s := (mine.filter (·.back)).reverse.foldl (State.requeueHeld h) s
  (mine.filter fun e => !e.back).foldl (State.releaseHeldFrame h) s

end Sys2Proof.Machine
end

