-- ==== Sys2Proof/Machine/Loads.lean ====
section
/-! DEFINITION. The end of a parked SA's load (R194, R199, R201, R184). -/

namespace Sys2Proof.Machine

open Sys2Proof

/-- Statistic of frames that a failed load drops: orphaned drops of the SC. -/
def loadDropIdx : Dir → Nat
  | .rx => 12
  | .tx => 3

/-- A load that fails (R194, R199, R201): held frames dropped and counted, SECY_WHARF_FAIL posted, the SA stays parked, a
change of AN that waited for it does not happen. -/
def State.loadFails (s : State) (x : Half) (d : Dir) (sc an status : Nat) : State :=
  let r := s.dropHeld x d sc an (loadDropIdx d)
  let s := r.2.modImg x fun im =>
    (im.setSa d sc an { im.sa d sc an with loading := false, wanted := false }).dropNext d sc an
  ((s.postSc x d sc 0x0B06 [(2, sc), (1, d.idx), (1, an), (1, status), (4, r.1)]).endSaWait x d sc an
    (some status)).nextLoad x

/-- What refuses a load: the blob in the wharf (R276), the key and its parent (R201). -/
def State.loadRefused (s : State) (x : Half) (d : Dir) (sc an : Nat) : Option Nat :=
  let hd := ((s.img x).sa d sc an).handle
  let blob := s.blobFails x hd ((s.half x).wharfAt hd)
  lowest ((blob.isSome, (blob.map (·.2.2)).getD stKeyInvalid) :: (s.img x).saFails d sc an)

/-- The SA is in key RAM: its pending advance applies (R184), and one past its last PN is exhausted (R183). -/
def State.loaded (s : State) (x : Half) (d : Dir) (sc an : Nat) : State :=
  let im := s.img x
  let v := im.sa d sc an
  let pn := v.pn + v.advance
  let s := s.modImg x fun im => im.setSa d sc an
    { v with pn, advance := 0,
             exhausted := v.exhausted || (decide (d = .tx) && decide (lastPn (im.scSuite d sc) < pn)) }
  let s := s.makeResident x d sc an
  if d = .tx then s.pnReached x sc an else s

/-- A load is complete: the change of AN that waited for it takes effect, the held frames leave in order, the commands that
waited complete with their own status, and a load that waits starts. -/
def State.loadDone (s : State) (x : Half) (d : Dir) (sc an : Nat) : State :=
  let next := decide (d = .tx) && decide (((s.img x).sc .tx sc).next = some an)
  let s := s.loaded x d sc an
  let s := if next then (s.activateNow x sc an).mkaLoaded x sc an else s
  ((s.releaseSa x d sc an).endSaWait x d sc an none).nextLoad x

/-- SA_LOAD_COMPLETE (R190, R194, R199, R201): a load that finds no room and no SA to park stays pending. -/
def execSaLoadComplete (half : Half) (dir : Dir) (sc an : Nat) (s : State) : Host.Outcome State Fault Refusal :=
  onUnit (decide (sc < scCount dir ∧ an < 4)) <|
    if s.holder ≠ some half ∨ ((s.img half).sa dir sc an).loading = false then s
    else match s.loadRefused half dir sc an with
      | some st => s.loadFails half dir sc an st
      | none =>
        let r := s.saRoom half dir
        if r.1 then r.2.loadDone half dir sc an else s

end Sys2Proof.Machine
end

