-- ==== Sys2Proof/Machine/Protected.lean ====
section
/-! DEFINITION. Protected memory and the protection units of the management cores (14). -/

namespace Sys2Proof.Machine

open Sys2Proof

/-! ## DRAM (R428–R442) -/

/-- Bytes of the data region, and its lines. -/
def dataBytes : Nat := 0x380000000
def dataLines : Nat := 234881024

/-- The regions of Table 14.1. -/
inductive DramRegion where
  | data | tags | minors | majors | tree
deriving DecidableEq, Repr

/-- The region of a byte of DRAM (R428). -/
def dramRegion (a : Nat) : DramRegion :=
  if a < 0x380000000 then .data
  else if a < 0x3F0000000 then .tags
  else if a < 0x3FE000000 then .minors
  else if a < 0x3FFC00000 then .majors
  else .tree

/-- Where the tag of a line, the minor line of a page and the major line of a group lie (Table 14.1). -/
def tagAddr (line : Nat) : Nat := 0x380000000 + 8 * line
def minorAddr (page : Nat) : Nat := 0x3F0000000 + 64 * page
def majorAddr (group : Nat) : Nat := 0x3FE000000 + 64 * group

/-- A byte of the data region; 0 where nothing has been written since initialisation (R433). DEDUCED:
notes/assumptions/15.md. -/
def memRead (m : List Host.Cell) (a : Nat) : BitVec 8 := tabGet 0 m a

/-- The data region with a byte written, in canonical form. -/
def memWrite (m : List Host.Cell) (a : Nat) (v : BitVec 8) : List Host.Cell := tabSet 0 m a v

/-- The canonical form of the data region: addresses rise strictly, and no entry is 0. -/
def Memory.wf (m : List Host.Cell) : Bool := tabWf 0 m

/-- Write `n` bytes of a little-endian value from an address on. -/
def memStore (m : List Host.Cell) (a : Nat) : Nat → Nat → List Host.Cell
  | 0, _ => m
  | n + 1, v => memStore (memWrite m a (BitVec.ofNat 8 v)) (a + 1) n (v / 256)

/-- Minor counter of a line. -/
def Dram.minorOf (d : Dram) (line : Nat) : Nat := tabGet 0 d.minor line

/-- Major counter of a page: the major base and what the page has risen since (R433, R434). -/
def Dram.majorOf (d : Dram) (page : Nat) : Nat := d.base * 2 ^ 48 + tabGet 0 d.major page

/-- A write raises the line's minor counter (R437), or re-encrypts its page (R438). -/
def Dram.countWrite (d : Dram) (line : Nat) : Dram :=
  if d.minorOf line < 255 then { d with minor := tabSet 0 d.minor line (d.minorOf line + 1) }
  else
    let p := line / 64
    { d with minor := (List.range 64).foldl (fun t i => tabDel t (64 * p + i)) d.minor,
             major := tabSet 0 d.major p (tabGet 0 d.major p + 1),
             reenc := min (2 ^ 32 - 1) (d.reenc + 1) }

/-- The lines that `size` bytes from `addr` touch, ascending. -/
def linesOf (addr size : Nat) : List Nat :=
  (List.range ((addr + size - 1) / 64 + 1 - addr / 64)).map (addr / 64 + ·)

/-- The part of a write that falls in one line. -/
def Dram.writeLine (addr size data : Nat) (d : Dram) (line : Nat) : Dram :=
  let lo := max addr (64 * line)
  let hi := min (addr + size) (64 * line + 64)
  { d.countWrite line with data := memStore d.data lo (hi - lo) (data / 2 ^ (8 * (lo - addr))) }

/-! ## What lies in DRAM (R429–R431) -/

/-- The 64 bytes of a line in clear. -/
def Dram.lineBytes (d : Dram) (line : Nat) : List (BitVec 8) := (List.range 64).map fun i => memRead d.data (64 * line + i)

/-- A line in clear as four words, one for each key-stream block. -/
def Dram.lineWords (d : Dram) (line : Nat) : List Nat := wordsOf 4 ((d.lineBytes line).map BitVec.toNat)

/-- major[63:0] ‖ minor[7:0] ‖ line index[31:0] ‖ 24 bits more (R429, R430). -/
def counterBlock (major minor line low : Nat) : Nat :=
  major % 2 ^ 64 * 2 ^ 64 + minor % 256 * 2 ^ 56 + line % 2 ^ 32 * 2 ^ 24 + low

/-- Key-stream block `b` of a line under a counter pair (R429). -/
def lineStream (key : List Nat) (major minor line b : Nat) : Nat := aes key (counterBlock major minor line b)

/-- The words of a line encrypted, or decrypted, under a counter pair (R429). -/
def lineCrypt (key : List Nat) (major minor line : Nat) (ws : List Nat) : List Nat :=
  ws.zipIdx.map fun p => p.1 ^^^ lineStream key major minor line p.2

/-- The tag of a line: the first 64 bits of GHASH over its ciphertext, masked under its counter pair (R430). -/
def lineTag (key : List Nat) (major minor line : Nat) (cipher : List Nat) : Nat :=
  (ghash (aes key 0) (cipher ++ [512]) ^^^ aes key (counterBlock major minor line (3 * 2 ^ 22))) / 2 ^ 64

/-- A line as DRAM holds it: ciphertext and tag. -/
def HState.sealLine (x : HState) (line : Nat) : List Nat × Nat :=
  let d := x.dram
  let c := lineCrypt x.inlineKey (d.majorOf (line / 64)) (d.minorOf line) line (d.lineWords line)
  (c, lineTag x.tagKey (d.majorOf (line / 64)) (d.minorOf line) line c)

/-- The content of a counter group: the major line of its 8 pages, then their 8 minor lines (R431).  DEDUCED:
notes/assumptions/117.md. -/
def Dram.groupBytes (d : Dram) (g : Nat) : List Nat :=
  ((List.range 8).flatMap fun i => leBytes 8 (d.majorOf (8 * g + i))) ++
    (List.range 512).map fun i => d.minorOf (512 * g + i) % 256

/-- The hash of a group (kind 1, level 0) or node (kind 2): the first 64 bits of CMAC (R431). DEDUCED:
notes/assumptions/117.md. -/
def treeMac (key : List Nat) (kind level index : Nat) (content : List Nat) : Nat :=
  cmac key ([kind, level] ++ leBytes 4 index ++ content) / 2 ^ 64

/-- The hash of group `i` (level 0), or of node `i` of a level, whose content is the hashes of the 8 objects it covers
(R431), with every changed object of the counter cache written (R432). -/
def HState.treeHash (x : HState) : Nat → Nat → Nat
  | 0, i => treeMac x.tagKey 1 0 i (x.dram.groupBytes i)
  | l + 1, i => treeMac x.tagKey 2 (l + 1) i ((List.range 8).flatMap fun c => beBytes 8 (x.treeHash l (8 * i + c)))

/-- Nodes of a level of the tree, level 0 being the groups (Table 14.3). -/
def treeNodes (level : Nat) : Nat := 458752 / 8 ^ level

/-- The root: the 14 hashes of the level-5 nodes, on the chip (R431). -/
def HState.treeRoot (x : HState) : List Nat := (List.range (treeNodes 5)).map (x.treeHash 5)

/-- One line of a write: its counter rises, its new content is encrypted and leaves with its tag; where the minor
counter is spent, the whole page leaves (R437, R438). -/
def State.writeLine (h : Half) (addr size data : Nat) (s : State) (line : Nat) : State :=
  let full := decide (255 ≤ (s.half h).dram.minorOf line)
  let s := s.modHalf h fun x => { x with dram := x.dram.writeLine addr size data line }
  let ls := if full then (List.range 64).map (64 * (line / 64) + ·) else [line]
  ls.foldl (fun s l => s.emit (.dram h l ((s.half h).sealLine l).1 ((s.half h).sealLine l).2)) s

/-- Kind codes of `PMM_DRAM_STAT.FAIL_KIND`. -/
def failCode : DramFail → Nat
  | .tag => 1
  | .group => 2
  | .node => 3
  | .uncorrectable => 4

/-- Where a failure lies (R440): the line, the major line of its group, or a place that only the failure shows. DESIGN
CHOICE: notes/assumptions/79.md. -/
def failAddrOf (line : Nat) (free : Nat) : DramFail → Nat
  | .tag => 64 * line
  | .group => majorAddr (line / 512)
  | .node | .uncorrectable => free % 2 ^ 36

/-- The agent of `PMM_FAIL_HI`: the tree walk for what only a walk reads, otherwise the access. DESIGN CHOICE:
notes/assumptions/79.md. -/
def failAgentOf (agent : Nat) : DramFail → Nat
  | .group | .node => 3
  | .tag | .uncorrectable => agent

/-- A DRAM integrity failure (R439, R440): recorded, and the half halts with cause 2. DESIGN CHOICE:
notes/assumptions/79.md. -/
def State.dramFails (s : State) (h : Half) (agent line : Nat) (k : DramFail) : State :=
  let (c, s) := s.draw
  let s := s.modHalf h fun x => { x with dram := { x.dram with
    failKind := failCode k, failAddr := failAddrOf line c k, failAgent := failAgentOf agent k } }
  s.haltHalf h 2 0

/-- The counter cache takes a group; a full one gives up a group that is free (R432). DESIGN CHOICE:
notes/assumptions/79.md. -/
def Dram.hold (d : Dram) (g c : Nat) : Dram :=
  { d with cache := (if d.cache.length < 1536 then d.cache else d.cache.eraseIdx (c % 1536)) ++ [g] }

/-- A counter group is brought into the cache by a walk of the tree, unless it is there (R436). -/
def State.needGroup (s : State) (h : Half) (g : Nat) : State :=
  if (s.half h).dram.cache.contains g then s
  else
    let (c, s) := s.draw
    (s.modHalf h fun x => { x with dram := { x.dram.hold g c with
      walks := min (2 ^ 32 - 1) (x.dram.walks + 1) } }).happen h 0x51 0 1

/-- What an access to a line meets (R439), from what DRAM returns: a walk where its group is not cached, then the line
where it `reads` it. -/
def HState.lineFails (x : HState) (line : Nat) (b : DramIn) (reads : Bool) : Option DramFail :=
  let g := line / 512
  let walks := !x.dram.cache.contains g
  let major := x.dram.majorOf (line / 64)
  if b.bad && (walks || reads) then some .uncorrectable
  else if walks && (b.node.any fun n => decide (1 ≤ n.1 ∧ n.1 ≤ 5 ∧
      treeMac x.tagKey 2 n.1 (g / 8 ^ n.1) n.2 ≠ x.treeHash n.1 (g / 8 ^ n.1))) then some .node
  else if walks && (b.group.any fun c => decide (treeMac x.tagKey 1 0 g c ≠ x.treeHash 0 g)) then some .group
  else if reads && (b.line.any fun l => decide (lineTag x.tagKey major (x.dram.minorOf line) line l.1 ≠ l.2)) then
    some .tag
  else none

/-- The bytes that a line opens to: as it was written, or what DRAM returns in its place. -/
def HState.lineOpened (x : HState) (line : Nat) (b : DramIn) : List (BitVec 8) :=
  match b.line with
  | none => x.dram.lineBytes line
  | some l => ((lineCrypt x.inlineKey (x.dram.majorOf (line / 64)) (x.dram.minorOf line) line l.1).flatMap wordBytes).map
      (BitVec.ofNat 8)

/-- Single-bit errors that a half's DRAM controller has corrected (R442). DEDUCED: notes/assumptions/96.md. -/
def State.corrected (s : State) (h : Half) (n : Nat) : State :=
  s.modHalf h fun x => { x with dram := { x.dram with
    corr := min (2 ^ 32 - 1) (x.dram.corr + n), corrNew := min 65535 (x.dram.corrNew + n) } }

/-- DRAM_READ (R435, R436, R439, R442): the line is released once its tag, and the walk if its group is not cached,
verify; the errors corrected on the way are counted. DEDUCED: notes/assumptions/15.md. -/
def execDramRead (half : Half) (agent line corr walked : Nat) (bus : DramIn) (s : State) :
    Host.Outcome State Fault Refusal :=
  onUnit (decide (agent < 7 ∧ line < dataLines)) <|
    let x := s.half half
    if !x.up || !x.dram.init then s
    else
      let s := s.corrected half (if line / 512 ∈ x.dram.cache then corr else corr + walked)
      match x.lineFails line bus true with
      | some k => s.dramFails half agent line k
      | none => (s.needGroup half (line / 512)).emit (.line half line (x.lineOpened line bus))

/-- The lines of a write in ascending order, each with what DRAM returns for it, up to the first that fails.  A whole-line
write reads no line unless it re-encrypts the page (R437, R438). -/
def State.writeLines (h : Half) (agent addr size data : Nat) : List (Nat × DramIn) → State → State
  | [], s => s
  | (line, b) :: r, s =>
    let x := s.half h
    let full := decide (255 ≤ x.dram.minorOf line)
    let part := decide (64 * line < addr ∨ addr + size < 64 * line + 64)
    match x.lineFails line b (full || part) with
    | some k => s.dramFails h (if full then 4 else if part then 2 else agent) line k
    | none => State.writeLines h agent addr size data r (State.writeLine h addr size data (s.needGroup h (line / 512)) line)

/-- DRAM_WRITE (R437–R440): one step per line, ascending; a failed read writes nothing of its line and halts the
half. DESIGN CHOICE: notes/assumptions/79.md. -/
def execDramWrite (half : Half) (agent addr size data : Nat) (bus : List DramIn) (s : State) :
    Host.Outcome State Fault Refusal :=
  onUnit (decide (agent < 7 ∧ 0 < size ∧ addr + size ≤ dataBytes)) <|
    let x := s.half half
    if !x.up || !x.dram.init then s
    else State.writeLines half agent addr size data ((linesOf addr size).zipIdx.map fun p => (p.1, bus.getD p.2 {})) s

/-- DRAM_INIT_DONE (R433): zeros everywhere, minors 0, majors at the restart count's base.  Its keys need the run
number of the claiming half (R542). -/
def execDramInitDone (half : Half) (s : State) : Host.Outcome State Fault Refusal :=
  .next <|
    let x := s.half half
    if !x.up || !x.boot.ready || s.holder.isNone || x.dram.init then s
    else (s.deriveDram half).modHalf half fun x =>
      { x with boot := { x.boot with dramDone := true },
               dram := { x.dram with data := [], minor := [], major := [], base := x.restarts, init := true,
                                     cache := [] } }

/-! ## Protection units (R447–R452) -/

/-- Level and access type codes of `PROT_FAULT_INFO`. -/
def levelCode : Level → Nat
  | .secure => 0
  | .system => 1
  | .user => 2
def typeCode : AccessType → Nat
  | .read => 0
  | .write => 1
  | .execute => 2

/-- A region holds a byte. -/
def Region.holds (r : Region) (a : Nat) : Bool :=
  bit r.base 0 && decide (64 * bits r.base 31 6 ≤ a ∧ a ≤ 64 * bits r.limit 31 6 + 63)

/-- A region's permission for a level and access type (`PROT_PERM`). -/
def Region.allows (r : Region) (l : Level) (t : AccessType) : Bool :=
  bit r.perm (6 - 3 * levelCode l + (2 - typeCode t))

/-- The lowest-numbered enabled region that holds a byte (R448). -/
def ProtUnit.governs (u : ProtUnit) (a : Nat) : Option Nat :=
  (List.range 16).find? fun r => (tabGet {} u.regions r : Region).holds a

/-- The unit's own registers in the core map. -/
def isUnitReg (a : Nat) : Bool := decide (0xFFF00000 ≤ a ∧ a < 0xFFF0010C)

/-- Why an access may not touch a byte: the region that governs it, or 16 for the unit's registers below the secure
level (R448, R449). -/
def ProtUnit.forbids (u : ProtUnit) (l : Level) (t : AccessType) (a : Nat) : Option Nat :=
  if isUnitReg a && decide (l ≠ .secure) then some 16
  else match u.governs a with
    | some r => if (tabGet {} u.regions r : Region).allows l t then none else some r
    | none => none

/-- A core's protection unit. -/
def HState.unit (x : HState) (core : Nat) : ProtUnit := tabGet {} x.prot core

/-- A protection fault (R452): recorded, counted, and posted at most once per ms per core.  Half; core; level; type;
address; governing region. -/
def State.protFault (s : State) (h : Half) (core : Nat) (l : Level) (t : AccessType) (a r : Nat) : State :=
  let u := (s.half h).unit core
  let u : ProtUnit := { u with info := BitVec.ofNat 32 (r * 2 ^ 27 + levelCode l * 2 ^ 25 + typeCode t * 2 ^ 23),
                               addr := a }
  let post := u.at_ = 0 ∨ u.at_ - 1 + 1000000 ≤ s.now
  let set : ProtUnit → State := fun u => s.modHalf h fun x => { x with prot := tabSet {} x.prot core u }
  if post then
    ((set { u with at_ := s.now + 1, cnt := 0 }).postEv h .cores
      { code := 0x0D0B, origin := h, absorbed := u.cnt,
        payload := [(1, h.idx), (1, core), (1, levelCode l), (1, typeCode t), (4, a), (1, r)],
        route := .pf, key := 0, times := (s.half h).times }).happen h 0x41 core 1
  else (set { u with cnt := u.cnt + 1 }).happen h 0x41 core 1

/-- The first forbidden byte of an access, with its reason, and how many bytes before it are permitted (R450). -/
def ProtUnit.firstForbidden (u : ProtUnit) (l : Level) (t : AccessType) (a : Nat) : Nat → Nat → Nat × Option Nat
  | 0, k => (k, none)
  | n + 1, k =>
    match u.forbids l t (a + k) with
    | some r => (k, some r)
    | none => u.firstForbidden l t a n (k + 1)

/-- A register of a protection unit as the secure level reads it (R449). -/
def ProtUnit.readReg (u : ProtUnit) (off : Nat) : Nat :=
  let r : Region := tabGet {} u.regions (off / 16)
  if off < 0x100 then
    match off % 16 with
    | 0 => r.base.toNat
    | 4 => r.limit.toNat
    | 8 => r.perm.toNat
    | _ => 0
  else if off = 0x104 then u.info.toNat
  else if off = 0x108 then u.addr
  else 0

/-- What a permitted access brings: an aligned word read in the unit's own registers, its value. -/
def State.regAccess (s : State) (h : Half) (core : Nat) (ty : AccessType) (addr n : Nat) : State :=
  if isUnitReg addr && decide (ty = .read ∧ n = 4 ∧ addr % 4 = 0) then
    s.emit (.read (((s.half h).unit core).readReg (addr - 0xFFF00000)))
  else s

/-- PROCESSOR_ACCESS (R450): permitted parts complete in ascending order up to the first forbidden one. -/
def execProcessorAccess (half : Half) (core : Nat) (level : Level) (ty : AccessType) (addr size : Nat) (s : State) :
    Host.Outcome State Fault Refusal :=
  onUnit (decide (core < 5 ∧ 0 < size ∧ addr + size ≤ 2 ^ 32)) <|
    let x := s.half half
    if !x.up then s
    else
      let r := (x.unit core).firstForbidden level ty addr size 0
      let s := if 0 < r.1 then (s.emit (.access half core ty addr r.1)).regAccess half core ty addr r.1 else s
      match r.2 with
      | some g => s.protFault half core level ty (addr + r.1) g
      | none => s

/-- A region register after a write; LIMIT below BASE is out of range (R42). -/
def Region.write (r : Region) (part : Nat) (w : Word) : Region :=
  match part with
  | 0 => { r with base := BitVec.ofNat 32 (64 * bits w 31 6 + bits w 0 0) }
  | 4 => if bits w 31 6 < bits r.base 31 6 then r else { r with limit := BitVec.ofNat 32 (64 * bits w 31 6) }
  | 8 => { r with perm := BitVec.ofNat 32 (bits w 8 0) }
  | _ => r

/-- PROT_REGION_WRITE (R449, R451): `offset` counts from 0xFFF0_0000; below the secure level it faults. -/
def execProtRegionWrite (half : Half) (core : Nat) (level : Level) (offset : Nat) (w : Word) (s : State) :
    Host.Outcome State Fault Refusal :=
  onUnit (decide (core < 5 ∧ offset < 0x100)) <|
    let x := s.half half
    if !x.up then s
    else if level ≠ .secure then s.protFault half core level .write (0xFFF00000 + offset) 16
    else s.modHalf half fun x =>
      let u := x.unit core
      let g := (tabGet {} u.regions (offset / 16) : Region).write (offset % 16) w
      { x with prot := tabSet {} x.prot core { u with regions := tabSet {} u.regions (offset / 16) g } }

/-- PROT_FENCE (R449, R451): every access checked before it has completed, since each access is one step. -/
def execProtFence (half : Half) (core : Nat) (level : Level) (_ : Word) (s : State) :
    Host.Outcome State Fault Refusal :=
  onUnit (decide (core < 5)) <|
    if (s.half half).up && decide (level ≠ .secure) then s.protFault half core level .write 0xFFF00100 16
    else s

end Sys2Proof.Machine
end

