-- ==== Sys2Proof/Machine/Reads.lean ====
section
/-! DEFINITION. The reads that change state: read-clear registers, reads that latch the upper bits of the same value,
the counter window, and the wrap of a programmable counter (R14, R43, R508–R513, R519). -/

namespace Sys2Proof.Machine

open Sys2Proof

/-- A register read returns a value; a function that does not reach the register receives 0 (R41). DEDUCED:
notes/assumptions/17.md. -/
def State.readAs (s : State) (fn off value : Nat) (act : State → State) : State :=
  if reaches fn off then (act s).emit (.read value) else s.emit (.read 0)

/-- USHER_SEQ_LO_READ (R43). -/
def execUsherSeqLoRead (half : Half) (fn : Nat) (s : State) : Host.Outcome State Fault Refusal :=
  let n := (s.img half).seq
  onUnit (decide (fn < 16)) <| s.readAs fn 0x200 (n % 2 ^ 32) fun s =>
    s.modHalf half fun x => { x with seqHi := n / 2 ^ 32 }

/-- KEY_RUN_LO_READ (R302). -/
def execKeyRunLoRead (half : Half) (fn : Nat) (s : State) : Host.Outcome State Fault Refusal :=
  let n := s.flash.run
  onUnit (decide (fn < 16)) <| s.readAs fn 0x900200 (n % 2 ^ 32) fun s =>
    s.modHalf half fun x => { x with runHi := n / 2 ^ 32 }

/-- HSS_NEXT_LO_READ (R366). -/
def execHssNextLoRead (half : Half) (fn : Nat) (s : State) : Host.Outcome State Fault Refusal :=
  let n := (s.img half).hssNext
  onUnit (decide (fn < 16)) <| s.readAs fn 0xB00004 (n % 2 ^ 32) fun s =>
    s.modHalf half fun x => { x with hssHi := n / 2 ^ 32 }

/-- PEER_HEALTH_LO_READ (R427). -/
def execPeerHealthLoRead (half : Half) (fn : Nat) (s : State) : Host.Outcome State Fault Refusal :=
  let n := (s.half half).helm.peerHealth
  onUnit (decide (fn < 16)) <| s.readAs fn 0xD0000C (n % 2 ^ 32) fun s =>
    s.modHalf half fun x => { x with healthHi := n / 2 ^ 32 }

/-- PMM_FAIL_LO_READ (R454): the agent in bits [7:4] of the latched word, address bits [35:32] below. -/
def execPmmFailLoRead (half : Half) (fn : Nat) (s : State) : Host.Outcome State Fault Refusal :=
  let d := (s.half half).dram
  onUnit (decide (fn < 16)) <| s.readAs fn 0xE00004 (d.failAddr % 2 ^ 32) fun s =>
    s.modHalf half fun x => { x with failHi := 16 * d.failAgent + d.failAddr / 2 ^ 32 % 16 }

/-- TIM_TB_NS_READ (R370). -/
def execTimTbNsRead (half : Half) (fn n : Nat) (s : State) : Host.Outcome State Fault Refusal :=
  let b : TBase := tabGet {} (s.half half).tbs n
  onUnit (decide (fn < 16 ∧ n < 4)) <| s.readAs fn (0xC00010 + 0x20 * n) b.ns fun s =>
    s.modHalf half fun x => { x with tbs := tabSet {} x.tbs n { b with latSec := b.sec, latSub := b.sub } }

/-- FIFO_CERR_READ (R37): the FIFO that `GLB_FIFO_SEL` selects; an index that is not implemented reads 0. -/
def execFifoCerrRead (half : Half) (fn : Nat) (s : State) : Host.Outcome State Fault Refusal :=
  let i := bits ((s.half half).reg 0 0x300) 9 0
  let f : Fifo := tabGet {} (s.half half).fifos i
  onUnit (decide (fn < 16)) <| s.readAs fn 0x30C (if i < 640 then f.cerr else 0) fun s =>
    if i < 640 then s.modHalf half fun x => { x with fifos := tabSet {} x.fifos i { f with cerr := 0 } } else s

/-- The errors that a pattern checker counts while PATTERN is 1 or 2 (`LNE_PRBS_ERR`), of those found since the last
read. DEDUCED: notes/assumptions/96.md. -/
def State.prbsErrors (s : State) (half : Half) (lane errors : Nat) : Nat :=
  let p := (s.img half).lanePattern lane
  min (2 ^ 32 - 1) (((s.half half).lane lane).prbsErr + if p = 1 ∨ p = 2 then errors else 0)

/-- PRBS_ERR_READ. DEDUCED: notes/assumptions/96.md. -/
def execPrbsErrRead (half : Half) (fn lane errors : Nat) (s : State) : Host.Outcome State Fault Refusal :=
  let l := (s.half half).lane lane
  onUnit (decide (fn < 16 ∧ lane < 64)) <| s.readAs fn (0x201400 + 4 * lane) (s.prbsErrors half lane errors) fun s =>
    s.modHalf half fun x => x.setLane lane { l with prbsErr := 0 }

/-- PKE_LATE_READ (R345). -/
def execPkeLateRead (half : Half) (fn : Nat) (s : State) : Host.Outcome State Fault Refusal :=
  onUnit (decide (fn < 16)) <| s.readAs fn 0xB00014 (s.half half).pke.late fun s =>
    s.modHalf half fun x => { x with pke := { x.pke with late := 0 } }

/-- PMM_REENC_CNT_READ (R438). -/
def execPmmReencCntRead (half : Half) (fn : Nat) (s : State) : Host.Outcome State Fault Refusal :=
  onUnit (decide (fn < 16)) <| s.readAs fn 0xE0000C (s.half half).dram.reenc fun s =>
    s.modHalf half fun x => { x with dram := { x.dram with reenc := 0 } }

/-- PMM_WALK_CNT_READ (R436). -/
def execPmmWalkCntRead (half : Half) (fn : Nat) (s : State) : Host.Outcome State Fault Refusal :=
  onUnit (decide (fn < 16)) <| s.readAs fn 0xE00010 (s.half half).dram.walks fun s =>
    s.modHalf half fun x => { x with dram := { x.dram with walks := 0 } }

/-- PMM_CORR_READ (R442). -/
def execPmmCorrRead (half : Half) (fn : Nat) (s : State) : Host.Outcome State Fault Refusal :=
  onUnit (decide (fn < 16)) <| s.readAs fn 0xE00014 (s.half half).dram.corr fun s =>
    s.modHalf half fun x => { x with dram := { x.dram with corr := 0 } }

/-- DB_STAT_READ (R493): FORWARDED above UNSENT, both cleared. -/
def execDbStatRead (half : Half) (fn : Nat) (s : State) : Host.Outcome State Fault Refusal :=
  let x := s.half half
  onUnit (decide (fn < 16)) <| s.readAs fn 0x100008 (65536 * tabGet 0 x.dbFwdCnt fn + tabGet 0 x.dbUnsent fn) fun s =>
    s.modHalf half fun x => { x with dbFwdCnt := tabSet 0 x.dbFwdCnt fn 0, dbUnsent := tabSet 0 x.dbUnsent fn 0 }

/-- RING_ERR_READ (R486): STALLED, CAUSE and ERRORS, of which the read clears ERRORS. -/
def execRingErrRead (half : Half) (fn ring : Nat) (s : State) : Host.Outcome State Fault Refusal :=
  let x := s.half half
  let g := (x.img.fnSt fn).ring ring
  let v := b2n g.stalled * 2 ^ 31 + g.cause * 2 ^ 28 + tabGet 0 x.ringErr (4 * fn + ring)
  onUnit (decide (fn < 16 ∧ ring < 4)) <| s.readAs fn (0x100114 + 0x20 * ring) v fun s =>
    s.modHalf half fun x => { x with ringErr := tabSet 0 x.ringErr (4 * fn + ring) 0 }

/-! ## Programmable counters (R504–R513, R519) -/

/-- One counter of a half. -/
def HState.ctr (x : HState) (i : Nat) : Ctr := tabGet {} x.ctrs i

/-- The 64-bit word of a counter (R504). -/
def Ctr.word (c : Ctr) : Nat := c.val + b2n c.sticky * 2 ^ 63

/-- CNT_VAL_LO_READ (R519): STICKY and value [47:32] are latched. -/
def execCntValLoRead (half : Half) (fn i : Nat) (s : State) : Host.Outcome State Fault Refusal :=
  let w := ((s.half half).ctr i).word
  onUnit (decide (fn < 16 ∧ i < 256)) <| s.readAs fn (0x1000008 + 0x10 * i) (w % 2 ^ 32) fun s =>
    s.modHalf half fun x => { x with ctrHi := tabSet 0 x.ctrHi i (w / 2 ^ 32) }

/-- The BAR4 page of a function shows a counter (R513). -/
def HState.winOpen (x : HState) (fn i : Nat) : Bool :=
  decide (i < 256) && decide (bits (x.ctr i).cfg 27 24 = fn) && bit (x.reg 0 0x1001000) fn

/-- A 4-byte read of the window by its dword: the low one latches the high one of the same sample. -/
def HState.winDword (x : HState) (fn d : Nat) : Nat × HState :=
  let i := d / 2
  if !x.winOpen fn i then (0, x)
  else if d % 2 = 0 then
    let w := (x.ctr i).word
    (w % 2 ^ 32, { x with winHi := tabSet 0 x.winHi i (w / 2 ^ 32) })
  else (tabGet 0 x.winHi i, x)

/-- A read of dwords in ascending order (R512): both dwords of one counter make one atomic read (R511). DEDUCED:
notes/assumptions/18.md. -/
def HState.winRead (fn : Nat) : Nat → Nat → HState → Nat × HState
  | 0, _, x => (0, x)
  | 1, d, x => x.winDword fn d
  | n + 2, d, x =>
    if d % 2 = 0 then
      let w := if x.winOpen fn (d / 2) then (x.ctr (d / 2)).word else 0
      let r := HState.winRead fn n (d + 2) x
      (w + 2 ^ 64 * r.1, r.2)
    else
      let r := x.winDword fn d
      let q := HState.winRead fn (n + 1) (d + 1) r.2
      (r.1 + 2 ^ 32 * q.1, q.2)

/-- COUNTER_WINDOW_READ (R511–R513): `bytes` from an offset of the function's page. DEDUCED: notes/assumptions/17.md,
notes/assumptions/18.md. -/
def execCounterWindowRead (half : Half) (fn offset bytes : Nat) (s : State) : Host.Outcome State Fault Refusal :=
  let first := offset / 4
  let r := HState.winRead fn ((offset + bytes + 3) / 4 - first) first (s.half half)
  onUnit (decide (fn < 16 ∧ 1 ≤ bytes ∧ offset + bytes ≤ 4096)) <|
    (s.setHalf half r.2).emit (.read (r.1 / 2 ^ (8 * (offset % 4)) % 2 ^ (8 * bytes)))

/-- The increments of a counter in one nanosecond that the step may bring (R507): 4 in MODE 0, 1 in the others.  Retired
instructions have no step of their own, so for EVENT 0x40 the step brings as many as were retired. DESIGN CHOICE:
notes/assumptions/19.md. -/
def Ctr.mayAdd (c : Ctr) (n : Nat) : Bool :=
  bit c.cfg 31 &&
    (decide (bits c.cfg 23 16 = 0x40) ||
      decide (2 ^ 48 ≤ c.val + n ∧ n ≤ (if bits c.cfg 29 28 = 0 then 4 else 1)))

/-- COUNTER_WRAP (R508, R509): an increment that takes the value past 2^48 − 1. DESIGN CHOICE:
notes/assumptions/19.md. -/
def execCounterWrap (half : Half) (i n : Nat) (s : State) : Host.Outcome State Fault Refusal :=
  onUnit (decide (i < 256)) <|
    if (s.half half).up && ((s.half half).ctr i).mayAdd n then s.ctrAdd half i n else s

end Sys2Proof.Machine
end

