-- ==== Sys2Proof/Machine/Receive.lean ====
section
/-! DEFINITION. What the receivers deliver: lane frames with the hail messages that they complete (R85), and the messages
of the tributary message channel (R117), to hail processing, reassembly and the key-change protocol. -/

namespace Sys2Proof.Machine

open Sys2Proof

/-! ## Peer messages (Tables 10.1 and 10.4) -/

/-- The header of a piece (Table 10.1). -/
def pieceOf (bs : List Nat) : Piece :=
  let f := fun a n => beNat (bytesAt bs a n)
  { ty := f 0 1, version := f 1 1, sender := f 2 2 % 8192, session := f 4 4, piece := f 8 1, pieces := f 9 1,
    total := f 10 2, data := bs.drop 16 }

/-- The body of a hail (Table 10.4). DEDUCED: notes/assumptions/100.md. -/
def hailOf (bs : List Nat) : HailBody :=
  { mdomain := leNat (bytesAt bs 0 16), member := beNat (bytesAt bs 16 2) % 8192, hailMs := beNat (bytesAt bs 18 2),
    digest := leNat (bytesAt bs 20 48), run := beNat (bytesAt bs 68 8), caps := beNat (bytesAt bs 76 4),
    seq := beNat (bytesAt bs 80 2) }

/-- A peer message, whole, on a carrier instance (Table 10.2): each half hears hails; the half that holds the helm takes the
others. -/
def State.takePeer (s : State) (half : Half) (c : Carrier) (ty session : Nat) (b : List Nat) : State :=
  if ty = 0x20 then (if b.length = 96 then s.hailHeard half c (hailOf b) else s)
  else if s.holder ≠ some half then s
  else match ty with
    | 0x21 => if b.length = 48 then s.charterReq half c (leNat b) else s
    | 0x22 => s.takeCharter half c b
    | 0x30 => s.takeOffer half c session b
    | 0x31 => s.takeReply half c session b
    | 0x32 => s.takeFinish half c session b
    | 0x33 => s.takeDone half c session b
    | 0x34 => s.takeAbort half c session (b.headD 0)
    | _ => s

/-- A piece arrives, and the message that it completes takes effect (R307). -/
def State.pieceCame (s : State) (half : Half) (c : Carrier) (p : Piece) : State :=
  let r := (s.half half).takePiece s.now c p
  let s := s.setHalf half r.2
  match r.1 with
  | some b => s.takePeer half c p.ty p.session b
  | none => s

/-- PEER_PIECE_RX (R307). -/
def execPeerPieceRx (half : Half) (c : Carrier) (p : Piece) (s : State) : Host.Outcome State Fault Refusal :=
  onUnit (carrierOk c) <| if (s.half half).up then s.pieceCame half c p else s

/-- A message of a lane's hail channel or a tributary's message channel, its CRC-32C still after it: a piece (R307). DESIGN
CHOICE: notes/assumptions/116.md. -/
def State.peerMessage (s : State) (half : Half) (c : Carrier) (bs : List Nat) : State :=
  s.pieceCame half c (pieceOf (bs.take (bs.length - 4)))

/-- LANE_FRAME_RX (R93, R81–R88, R97–R99): a lane frame at the predicted position of a lane in SYNC; a hail message that it
completes is delivered with its lane (R85). -/
def execLaneFrameRx (half : Half) (lane : Nat) (f : LaneFrameIn) (s : State) : Host.Outcome State Fault Refusal :=
  onUnit (decide (lane < 32)) <|
    if !(s.half half).up || !((s.half half).rxLane lane).sync then s
    else
      let r := s.laneFrame half lane f
      match r.1 with
      | some m => r.2.peerMessage half (.lane lane) m
      | none => r.2

/-! ## The tributary message channel (R117) -/

/-- A key-change message at the half that holds the helm (Table 05.5). -/
def State.keyMessage (s : State) (half : Half) (t : Nat) (bytes : List Nat) : State :=
  let f := fun a n => beNat (bytesAt bytes a n)
  let kcv := leNat (bytesAt bytes 8 8)
  if decide (s.holder ≠ some half) || decide (bytes.length ≠ 28) || decide (f 1 1 ≠ 1) then s
  else match f 0 1 with
    | 0x11 => s.keyNext half t (f 2 4) (f 6 1) kcv (f 16 2 % 8192)
    | 0x12 => s.keyReady half t (f 2 4) kcv
    | 0x13 => s.keyConfirm half t (f 2 4)
    | 0x14 => s.keyRefuse half t (f 2 4) (f 7 1)
    | _ => s

/-- TMC_MESSAGE_RX (R117, Table 05.5): the message that a tributary's channel delivered first and that waits is taken: a
key-change message by its associations, a piece of a peer message by reassembly.  A type that the module does not know, or
another version, is ignored. -/
def execTmcMessageRx (half : Half) (t : Nat) (bytes : List Nat) (s : State) : Host.Outcome State Fault Refusal :=
  onUnit (decide (t < 32)) <|
    let x := s.half half
    if !x.up || !x.img.termTrib t || decide ((x.trib t).tmcRx.head? ≠ some bytes) then s
    else
      let s := s.modHalf half fun y => y.setTrib t { y.trib t with tmcRx := (y.trib t).tmcRx.drop 1 }
      if pieceType (bytes.getD 0 0) then s.peerMessage half (.trib t) bytes else s.keyMessage half t bytes

end Sys2Proof.Machine
end

