-- ==== Sys2Proof/Machine/Tamper.lean ====
section
/-! DEFINITION. The tamper controller (15): alarms and their responses, sources that leave alarm, the backup cell. -/

namespace Sys2Proof.Machine

open Sys2Proof

/-- The half that a source names (Table 15.1). -/
def srcHalf (src : Nat) : Option Half :=
  if src = 16 ∨ src = 18 then some .A else if src = 17 ∨ src = 19 then some .B else none

/-- The source is watched now: GLITCH and BUS on mains only, CELL_EXHAUST on the cell alone. -/
def Tamper.watches (t : Tamper) (src : Nat) : Bool :=
  if t.onCell then decide (src < 16 ∨ src = 20) else decide (src < 20)

/-- The map of a source: bit 2 ERASE, bit 1 HALT_HALF, bit 0 REPORT (R458). -/
def State.tmpMap (s : State) (src : Nat) : Word := s.modReg (0xF00100 + 4 * src)

/-- The halves that a list of alarms halts under their maps (R457, R458). -/
def State.halts (s : State) (alarms : List Nat) : List Half :=
  alarms.filterMap fun src => if bit (s.tmpMap src) 1 || decide (src = 18 ∨ src = 19) then srcHalf src else none

/-- A halt that would leave no half running (R467). DEDUCED: notes/assumptions/81.md. -/
def State.leavesNone (s : State) (hs : List Half) (h : Half) : Bool :=
  decide ((s.half h.other).haltCause ≠ 0) || hs.contains h.other

/-- Responses carried out for an alarm: on the cell every alarm erases (R470); a halt that leaves no half running is an
erasure. DEDUCED: notes/assumptions/81.md. -/
def State.responses (s : State) (alarms : List Nat) (src : Nat) : Nat :=
  if s.tam.onCell then 5
  else
    let hs := s.halts alarms
    let m := s.tmpMap src
    let mine := (srcHalf src).filter fun h => hs.contains h && (bit m 1 || decide (src = 18 ∨ src = 19))
    match mine with
    | some h => if s.leavesNone hs h then 5 else 1 + 2 + 4 * bits m 2 2
    | none => 1 + 4 * bits m 2 2

/-- The bit of each source. -/
def srcMask (srcs : List Nat) : Nat := (srcs.map (2 ^ ·)).sum

/-- An erasure of E (R462, R463, R468–R470).  Decisions within 5 µs of an ERASE decision join it (R466). DEDUCED:
notes/assumptions/80.md. -/
def State.erase (s : State) (srcs : List Nat) : State :=
  let t := s.tam
  let mask := srcMask srcs
  let joins := t.erasedAt.any fun t0 => decide (s.now < t0 + 5000)
  let t := { t with seed := false, erasedMask := if joins then t.erasedMask ||| mask else mask }
  if t.onCell then
    let p : Pending := t.pend.getD { target := t.evidence, mask := 0, seconds := s.cellSeconds }
    { s with tam := { t with
        erasedAt := if joins then t.erasedAt else some s.now,
        pend := some { p with target := if joins && t.pend.isSome then p.target else t.nextTarget,
                              mask := p.mask ||| mask } } }
  else if joins then { s with tam := t }
  else ({ s with tam := { t.burn t.nextTarget with erasedAt := some s.now, pend := none } }).endRun 3

/-- TAMPER_ALARM (R455, R461, R465–R467): sources enter alarm together; those not latched raise alarms, by ascending
source. DESIGN CHOICE: notes/assumptions/5.md. DEDUCED: notes/assumptions/80.md. -/
def execTamperAlarm (srcs : List Nat) (s : State) : Host.Outcome State Fault Refusal :=
  onUnit (srcs.all fun i => decide (i < 21)) <|
    let enter := (List.range 21).filter fun i => srcs.contains i && s.tam.watches i && !s.tam.inAlarm.contains i
    if enter.isEmpty then s
    else
      let alarms := enter.filter fun i => !s.tam.latched.contains i
      let resp := alarms.map fun i => (i, s.responses alarms i)
      let erasing := (resp.filter fun r => decide (4 ≤ r.2)).map (·.1)
      let hs := s.halts alarms
      let sec := s.cellSeconds
      let s := s.modTam fun t => { t with inAlarm := t.inAlarm ++ enter, latched := t.latched ++ alarms }
      let onCell := s.tam.onCell
      let s := s.modTam fun t => resp.foldl (fun t r => t.logAlarm r.1 r.2 sec) t
      let s :=
        if !erasing.isEmpty then s.erase erasing
        else if onCell then s
        else hs.foldl (fun s h => s.haltHalf h (if alarms.contains (18 + h.idx) then 3 else 4) 0) s
      match s.holder with
      | some x => s.alerted.postLog x
      | none => s.alerted

/-- A source may leave alarm: a temperature source only when both envelope sensors (in 1/16 °C) are 5 °C inside its limit,
at −25 °C and at 90 °C (R461). -/
def mayLeave (src : Nat) (t0 t1 : Int) : Bool :=
  if src = 12 then decide (-400 ≤ t0 ∧ -400 ≤ t1) else if src = 13 then decide (t0 ≤ 1440 ∧ t1 ≤ 1440) else true

/-- SOURCE_LEAVES_ALARM (R461): the source's condition has ended, with the envelope sensors as they then read. -/
def execSourceLeavesAlarm (v : SourceEnd) (s : State) : Host.Outcome State Fault Refusal :=
  onUnit (decide (v.src < 21)) <|
    let s := s.modTam fun t => { t with temp0 := v.sensor0, temp1 := v.sensor1 }
    if mayLeave v.src v.sensor0 v.sensor1 then s.modTam fun t => { t with inAlarm := t.inAlarm.filter (· ≠ v.src) } else s

/-- Post CELL_STATE: voltage; holdup in days; low 0, failed 1 or restored 2. -/
def State.postCell (s : State) (what : Nat) : State :=
  s.boardEv 0x0C05 0 [(2, s.tam.cellMv), (2, s.tam.holdup), (1, what)]

/-- CELL_CHECK (R472): on mains, once per minute. DESIGN CHOICE: notes/assumptions/92.md. -/
def execCellCheck (mv holdupDays : Nat) (failed charging : Bool) (s : State) : Host.Outcome State Fault Refusal :=
  .next <|
    if s.tam.onCell then s
    else
      let o := s.tam
      let low := decide (holdupDays < 30)
      let s := s.modTam fun t => { t with cellMv := min 4095 mv, holdup := min 65535 holdupDays, cellLow := low,
                                          cellFailed := failed, charging }
      let s := if low && !o.cellLow then s.postCell 0 else s
      let s := if failed && !o.cellFailed then s.postCell 1 else s
      if (o.cellLow && !low) || (o.cellFailed && !failed) then s.postCell 2 else s

end Sys2Proof.Machine
end

