-- ==== Sys2Proof/Machine/Dispatch.lean ====
section
/-! DEFINITION. What each command or happening does: one arm per constructor. -/

namespace Sys2Proof.Machine

open Sys2Proof

/-- The effect of a step on everything but the queue. -/
def exec (i : Instr) (s : State) : Host.Outcome State Fault Refusal :=
  match i with
  | .tribSwitch h t side alt tb at_ => Sys2Proof.Machine.execTribSwitch h t side alt tb at_ s
  | .tribForce h t dir act => Sys2Proof.Machine.execTribForce h t dir act s
  | .tribCipherBind h t handle => Sys2Proof.Machine.execTribCipherBind h t handle s
  | .tribKeyStep h t tb at_ => Sys2Proof.Machine.execTribKeyStep h t tb at_ s
  | .tribCipherUnbind h t => Sys2Proof.Machine.execTribCipherUnbind h t s
  | .secyScCreate h a => Sys2Proof.Machine.execSecyScCreate h a s
  | .secyScDelete h dir sc => Sys2Proof.Machine.execSecyScDelete h dir sc s
  | .secySaInstall h a => Sys2Proof.Machine.execSecySaInstall h a s
  | .secySaActivate h sc an w => Sys2Proof.Machine.execSecySaActivate h sc an w s
  | .secySaRetire h dir sc an => Sys2Proof.Machine.execSecySaRetire h dir sc an s
  | .secySaPin h dir sc an pin => Sys2Proof.Machine.execSecySaPin h dir sc an pin s
  | .secySaRead h dir sc an => Sys2Proof.Machine.execSecySaRead h dir sc an s
  | .chanWrite h index flip holdLock unlock clearHw version => Sys2Proof.Machine.execChanWrite h index flip holdLock unlock clearHw version s
  | .chanRead h index addr => Sys2Proof.Machine.execChanRead h index addr s
  | .chanBulk h first count addr flip recs => Sys2Proof.Machine.execChanBulk h first count addr flip recs s
  | .trieAdd h p => Sys2Proof.Machine.execTrieAdd h p s
  | .trieDel h p => Sys2Proof.Machine.execTrieDel h p s
  | .trieBulk h count addr recs => Sys2Proof.Machine.execTrieBulk h count addr recs s
  | .trieRebuildBegin h => Sys2Proof.Machine.execTrieRebuildBegin h s
  | .trieRebuildCommit h => Sys2Proof.Machine.execTrieRebuildCommit h s
  | .trieRebuildAbort h => Sys2Proof.Machine.execTrieRebuildAbort h s
  | .trieLookup h family addr => Sys2Proof.Machine.execTrieLookup h family addr s
  | .stnAdd h r => Sys2Proof.Machine.execStnAdd h r s
  | .stnDel h k => Sys2Proof.Machine.execStnDel h k s
  | .stnRelease h k => Sys2Proof.Machine.execStnRelease h k s
  | .stnFlush h a => Sys2Proof.Machine.execStnFlush h a s
  | .stnDump h capacity addr => Sys2Proof.Machine.execStnDump h capacity addr s
  | .pairWrite h sc entry => Sys2Proof.Machine.execPairWrite h sc entry s
  | .shaperSet h a => Sys2Proof.Machine.execShaperSet h a s
  | .shaperRead h kind index => Sys2Proof.Machine.execShaperRead h kind index s
  | .policerSet h pol cir cbs ebs => Sys2Proof.Machine.execPolicerSet h pol cir cbs ebs s
  | .policerRead h pol => Sys2Proof.Machine.execPolicerRead h pol s
  | .sampleRead h first count addr restart => Sys2Proof.Machine.execSampleRead h first count addr restart s
  | .keyAreaSet h domain addr len => Sys2Proof.Machine.execKeyAreaSet h domain addr len s
  | .domainCreate h domain => Sys2Proof.Machine.execDomainCreate h domain s
  | .keyImport h a => Sys2Proof.Machine.execKeyImport h a s
  | .keyReplace h handle g addr material kcv => Sys2Proof.Machine.execKeyReplace h handle g addr material kcv s
  | .keyInvalidate h handle => Sys2Proof.Machine.execKeyInvalidate h handle s
  | .keyFree h handle => Sys2Proof.Machine.execKeyFree h handle s
  | .keyQuery h handle addr => Sys2Proof.Machine.execKeyQuery h handle addr s
  | .keyProvenance h handle challenge addr => Sys2Proof.Machine.execKeyProvenance h handle challenge addr s
  | .envelopeRenew h addr len auth => Sys2Proof.Machine.execEnvelopeRenew h addr len auth s
  | .pairingSet h index p => Sys2Proof.Machine.execPairingSet h index p s
  | .pairingClear h index => Sys2Proof.Machine.execPairingClear h index s
  | .peerQuery h member addr => Sys2Proof.Machine.execPeerQuery h member addr s
  | .peerRelease h member => Sys2Proof.Machine.execPeerRelease h member s
  | .zkaStart h index => Sys2Proof.Machine.execZkaStart h index s
  | .zkaCancel h session => Sys2Proof.Machine.execZkaCancel h session s
  | .caBind h index a => Sys2Proof.Machine.execCaBind h index a s
  | .caUnbind h index => Sys2Proof.Machine.execCaUnbind h index s
  | .rekeySet h kind index tb first period => Sys2Proof.Machine.execRekeySet h kind index tb first period s
  | .rekeyClear h kind index => Sys2Proof.Machine.execRekeyClear h kind index s
  | .pkeCurveLoad h slot addr c => Sys2Proof.Machine.execPkeCurveLoad h slot addr c s
  | .pkeCurveClear h slot => Sys2Proof.Machine.execPkeCurveClear h slot s
  | .pkeVerify h a => Sys2Proof.Machine.execPkeVerify h a s
  | .pkeDigest h hash len addr message => Sys2Proof.Machine.execPkeDigest h hash len addr message s
  | .pkeIdentity h addr => Sys2Proof.Machine.execPkeIdentity h addr s
  | .pkeAttest h challenge addr => Sys2Proof.Machine.execPkeAttest h challenge addr s
  | .pkeCharterRead h addr capacity => Sys2Proof.Machine.execPkeCharterRead h addr capacity s
  | .timeSet h tb at_ => Sys2Proof.Machine.execTimeSet h tb at_ s
  | .timeOffset h tb theta at_ => Sys2Proof.Machine.execTimeOffset h tb theta at_ s
  | .timeRead h addr => Sys2Proof.Machine.execTimeRead h addr s
  | .schedList h addr capacity => Sys2Proof.Machine.execSchedList h addr capacity s
  | .schedCancel h entry => Sys2Proof.Machine.execSchedCancel h entry s
  | .latencyRead h t addr => Sys2Proof.Machine.execLatencyRead h t addr s
  | .helmHandover h w returnMs => Sys2Proof.Machine.execHelmHandover h w returnMs s
  | .helmHalfHalt h target => Sys2Proof.Machine.execHelmHalfHalt h target s
  | .helmHalfRestart h target => Sys2Proof.Machine.execHelmHalfRestart h target s
  | .cfgSave h => Sys2Proof.Machine.execCfgSave h s
  | .cfgExport h addr capacity => Sys2Proof.Machine.execCfgExport h addr capacity s
  | .cfgImport h addr len img => Sys2Proof.Machine.execCfgImport h addr len img s
  | .moduleSet h service => Sys2Proof.Machine.execModuleSet h service s
  | .statsSnapshot h group first count addr => Sys2Proof.Machine.execStatsSnapshot h group first count addr s
  | .fwStage h addr len img => Sys2Proof.Machine.execFwStage h addr len img s
  | .fwActivate h target slot => Sys2Proof.Machine.execFwActivate h target slot s
  | .fwCommit h => Sys2Proof.Machine.execFwCommit h s
  | .fwQuery h addr => Sys2Proof.Machine.execFwQuery h addr s
  | .birthRead h addr capacity => Sys2Proof.Machine.execBirthRead h addr capacity s
  | .enrolAnchor h addr anchor => Sys2Proof.Machine.execEnrolAnchor h addr anchor s
  | .enrolCharter h addr charter => Sys2Proof.Machine.execEnrolCharter h addr charter s
  | .idgenAdvance h addr len auth => Sys2Proof.Machine.execIdgenAdvance h addr len auth s
  | .decommission h addr len auth => Sys2Proof.Machine.execDecommission h addr len auth s
  | .cmdPiDoorbell half fn value width descs => Sys2Proof.Machine.execCmdPiDoorbell half fn value width descs s
  | .tblPiDoorbell half fn value width descs => Sys2Proof.Machine.execTblPiDoorbell half fn value width descs s
  | .cplCiDoorbell half fn value width => Sys2Proof.Machine.execCplCiDoorbell half fn value width s
  | .evtCiDoorbell half fn value width => Sys2Proof.Machine.execEvtCiDoorbell half fn value width s
  | .phaseRetryExpire fn table => Sys2Proof.Machine.execPhaseRetryExpire fn table s
  | .msixDelayExpire fn ring => Sys2Proof.Machine.execMsixDelayExpire fn ring s
  | .ringEnable half fn ring value => Sys2Proof.Machine.execRingEnable half fn ring value s
  | .ringDisable half fn ring value => Sys2Proof.Machine.execRingDisable half fn ring value s
  | .functionLevelReset half fn => Sys2Proof.Machine.execFunctionLevelReset half fn s
  | .registerWrite half fn offset value => Sys2Proof.Machine.execRegisterWrite half fn offset value s
  | .lanePwrWrite half fn lane value => Sys2Proof.Machine.execLanePwrWrite half fn lane value s
  | .lanePwrMoveDone half lane => Sys2Proof.Machine.execLanePwrMoveDone half lane s
  | .cageModeWrite half fn value => Sys2Proof.Machine.execCageModeWrite half fn value s
  | .cageSplitWrite half fn value => Sys2Proof.Machine.execCageSplitWrite half fn value s
  | .clientModeWrite half fn value => Sys2Proof.Machine.execClientModeWrite half fn value s
  | .groupEnableWrite half fn g value => Sys2Proof.Machine.execGroupEnableWrite half fn g value s
  | .groupRetime half fn g value => Sys2Proof.Machine.execGroupRetime half fn g value s
  | .tribEnable half fn t value => Sys2Proof.Machine.execTribEnable half fn t value s
  | .tribDisable half fn t value => Sys2Proof.Machine.execTribDisable half fn t value s
  | .pktPortEnable half fn port value => Sys2Proof.Machine.execPktPortEnable half fn port value s
  | .xpnThreshHiWrite half fn value => Sys2Proof.Machine.execXpnThreshHiWrite half fn value s
  | .usherSeqLoRead half fn => Sys2Proof.Machine.execUsherSeqLoRead half fn s
  | .keyRunLoRead half fn => Sys2Proof.Machine.execKeyRunLoRead half fn s
  | .hssNextLoRead half fn => Sys2Proof.Machine.execHssNextLoRead half fn s
  | .peerHealthLoRead half fn => Sys2Proof.Machine.execPeerHealthLoRead half fn s
  | .pmmFailLoRead half fn => Sys2Proof.Machine.execPmmFailLoRead half fn s
  | .cntValLoRead half fn n => Sys2Proof.Machine.execCntValLoRead half fn n s
  | .timTbNsRead half fn n => Sys2Proof.Machine.execTimTbNsRead half fn n s
  | .fifoCerrRead half fn => Sys2Proof.Machine.execFifoCerrRead half fn s
  | .prbsErrRead half fn lane errors => Sys2Proof.Machine.execPrbsErrRead half fn lane errors s
  | .pkeLateRead half fn => Sys2Proof.Machine.execPkeLateRead half fn s
  | .pmmReencCntRead half fn => Sys2Proof.Machine.execPmmReencCntRead half fn s
  | .pmmWalkCntRead half fn => Sys2Proof.Machine.execPmmWalkCntRead half fn s
  | .pmmCorrRead half fn => Sys2Proof.Machine.execPmmCorrRead half fn s
  | .dbStatRead half fn => Sys2Proof.Machine.execDbStatRead half fn s
  | .ringErrRead half fn ring => Sys2Proof.Machine.execRingErrRead half fn ring s
  | .cntCfgWrite half fn n value => Sys2Proof.Machine.execCntCfgWrite half fn n value s
  | .cntThreshWrite half fn n value => Sys2Proof.Machine.execCntThreshWrite half fn n value s
  | .counterWindowRead half fn offset bytes => Sys2Proof.Machine.execCounterWindowRead half fn offset bytes s
  | .counterWrap half idx n => Sys2Proof.Machine.execCounterWrap half idx n s
  | .tmpLatchClear half fn value => Sys2Proof.Machine.execTmpLatchClear half fn value s
  | .tmpLockSet half fn value => Sys2Proof.Machine.execTmpLockSet half fn value s
  | .cagePowerEnWrite half fn cage value => Sys2Proof.Machine.execCagePowerEnWrite half fn cage value s
  | .protRegionWrite half core level offset value => Sys2Proof.Machine.execProtRegionWrite half core level offset value s
  | .protFence half core level value => Sys2Proof.Machine.execProtFence half core level value s
  | .processorAccess half core level ty addr size => Sys2Proof.Machine.execProcessorAccess half core level ty addr size s
  | .sidebandRead page => Sys2Proof.Machine.execSidebandRead page s
  | .mainsApplied ps1 ps2 t0 t1 => Sys2Proof.Machine.execMainsApplied ps1 ps2 t0 t1 s
  | .envelopeColdRecheck t0 t1 => Sys2Proof.Machine.execEnvelopeColdRecheck t0 t1 s
  | .halfRailFail half => Sys2Proof.Machine.execHalfRailFail half s
  | .bootStart half => Sys2Proof.Machine.execBootStart half s
  | .halfReady half => Sys2Proof.Machine.execHalfReady half s
  | .halfBClaimTimeout => Sys2Proof.Machine.execHalfBClaimTimeout s
  | .boot half => Sys2Proof.Machine.execBoot half s
  | .dramInitDone half => Sys2Proof.Machine.execDramInitDone half s
  | .hssStateRebuilt half => Sys2Proof.Machine.execHssStateRebuilt half s
  | .bootingEnd => Sys2Proof.Machine.execBootingEnd s
  | .powerFail => Sys2Proof.Machine.execPowerFail s
  | .railsOff => Sys2Proof.Machine.execRailsOff s
  | .psuState supply ac dc fault loadW => Sys2Proof.Machine.execPsuState supply ac dc fault loadW s
  | .modReset lowMs => Sys2Proof.Machine.execModReset lowMs s
  | .perst half => Sys2Proof.Machine.execPerst half s
  | .opticsInsert cage => Sys2Proof.Machine.execOpticsInsert cage s
  | .opticsRemove cage => Sys2Proof.Machine.execOpticsRemove cage s
  | .opticsReady cage caseTemp powerQ => Sys2Proof.Machine.execOpticsReady cage caseTemp powerQ s
  | .cageOvercurrent cage powerQ => Sys2Proof.Machine.execCageOvercurrent cage powerQ s
  | .fanFail fan => Sys2Proof.Machine.execFanFail fan s
  | .fanTrayRemove => Sys2Proof.Machine.execFanTrayRemove s
  | .fanTrayInsert => Sys2Proof.Machine.execFanTrayInsert s
  | .thermalWarn sensor temp => Sys2Proof.Machine.execThermalWarn sensor temp s
  | .thermalTrip sensor temp => Sys2Proof.Machine.execThermalTrip sensor temp s
  | .thermalRestart t0 t1 => Sys2Proof.Machine.execThermalRestart t0 t1 s
  | .refLock ppb => Sys2Proof.Machine.execRefLock ppb s
  | .refLoss => Sys2Proof.Machine.execRefLoss s
  | .ppsEdge tc edge => Sys2Proof.Machine.execPpsEdge tc edge s
  | .ppsLoss tc => Sys2Proof.Machine.execPpsLoss tc s
  | .ppsOutputPulse tc => Sys2Proof.Machine.execPpsOutputPulse tc s
  | .servoSample tb src theta dt => Sys2Proof.Machine.execServoSample tb src theta dt s
  | .servoHoldover tb => Sys2Proof.Machine.execServoHoldover tb s
  | .ptpMessageRx port m => Sys2Proof.Machine.execPtpMessageRx port m s
  | .schedFire entry => Sys2Proof.Machine.execSchedFire entry s
  | .schedLateFire entry => Sys2Proof.Machine.execSchedLateFire entry s
  | .signalChange half lane signal lock => Sys2Proof.Machine.execSignalChange half lane signal lock s
  | .laneAdapted half lane ctle eyeV eyeH => Sys2Proof.Machine.execLaneAdapted half lane ctle eyeV eyeH s
  | .slipwaySupply lane dir supply good => Sys2Proof.Machine.execSlipwaySupply lane dir supply good s
  | .slipwayFault lane dir sense => Sys2Proof.Machine.execSlipwayFault lane dir sense s
  | .ferryLaneLock half v => Sys2Proof.Machine.execFerryLaneLock half v s
  | .ferryLaneUnlock half v => Sys2Proof.Machine.execFerryLaneUnlock half v s
  | .ferryLaneAdmit half v => Sys2Proof.Machine.execFerryLaneAdmit half v s
  | .halfHalt half cause fifo => Sys2Proof.Machine.execHalfHalt half cause fifo s
  | .paceGovernorRun half pace fifos => Sys2Proof.Machine.execPaceGovernorRun half pace fifos s
  | .laneFrameTx half arrived => Sys2Proof.Machine.execLaneFrameTx half arrived s
  | .pointerAdjust half t side => Sys2Proof.Machine.execPointerAdjust half t side s
  | .fasMatch half lane pos mfas => Sys2Proof.Machine.execFasMatch half lane pos mfas s
  | .soundingCheck half lane pos fasErrors mfas => Sys2Proof.Machine.execSoundingCheck half lane pos fasErrors mfas s
  | .laneFrameRx half lane f => Sys2Proof.Machine.execLaneFrameRx half lane f s
  | .retimeInForce half g => Sys2Proof.Machine.execRetimeInForce half g s
  | .degWindowEnd half scope => Sys2Proof.Machine.execDegWindowEnd half scope s
  | .containerRowRx half t side slot mfas => Sys2Proof.Machine.execContainerRowRx half t side slot mfas s
  | .tmcMessageRx half t bytes => Sys2Proof.Machine.execTmcMessageRx half t bytes s
  | .clientFault half v => Sys2Proof.Machine.execClientFault half v s
  | .clientFaultClear half t => Sys2Proof.Machine.execClientFaultClear half t s
  | .spanVerdict half t blocks => Sys2Proof.Machine.execSpanVerdict half t blocks s
  | .keyNextRx t epoch spanKib kcv member => Sys2Proof.Machine.execKeyNextRx t epoch spanKib kcv member s
  | .keyReadyRx t epoch kcv => Sys2Proof.Machine.execKeyReadyRx t epoch kcv s
  | .keyConfirmRx t epoch cfc0 => Sys2Proof.Machine.execKeyConfirmRx t epoch cfc0 s
  | .keyRefuseRx t epoch cause => Sys2Proof.Machine.execKeyRefuseRx t epoch cause s
  | .keyNextResend t => Sys2Proof.Machine.execKeyNextResend t s
  | .epochSwitch t => Sys2Proof.Machine.execEpochSwitch t s
  | .txKeyRetire t => Sys2Proof.Machine.execTxKeyRetire t s
  | .txKeyRevert t => Sys2Proof.Machine.execTxKeyRevert t s
  | .rxKeyRetire t => Sys2Proof.Machine.execRxKeyRetire t s
  | .keyConfirmResend t => Sys2Proof.Machine.execKeyConfirmResend t s
  | .spanCountRekey t => Sys2Proof.Machine.execSpanCountRekey t s
  | .clientFrameRx half port f => Sys2Proof.Machine.execClientFrameRx half port f s
  | .schedulerPick half v => Sys2Proof.Machine.execSchedulerPick half v s
  | .lineFrameRx half port f => Sys2Proof.Machine.execLineFrameRx half port f s
  | .frameVerdict half frame marked fcs length => Sys2Proof.Machine.execFrameVerdict half frame marked fcs length s
  | .stationLearn half r => Sys2Proof.Machine.execStationLearn half r s
  | .saLoadComplete half dir sc an => Sys2Proof.Machine.execSaLoadComplete half dir sc an s
  | .holdExpire half frame => Sys2Proof.Machine.execHoldExpire half frame s
  | .preemptVerify half port ok => Sys2Proof.Machine.execPreemptVerify half port ok s
  | .refillTick half => Sys2Proof.Machine.execRefillTick half s
  | .channelAgingSweep => Sys2Proof.Machine.execChannelAgingSweep s
  | .stationAgingSweep => Sys2Proof.Machine.execStationAgingSweep s
  | .stationMoorExpire k => Sys2Proof.Machine.execStationMoorExpire k s
  | .trieNodeRelease => Sys2Proof.Machine.execTrieNodeRelease s
  | .trieBankRelease => Sys2Proof.Machine.execTrieBankRelease s
  | .cascadeGraceEnd handle => Sys2Proof.Machine.execCascadeGraceEnd handle s
  | .keyLoad handle dmaOk blob => Sys2Proof.Machine.execKeyLoad handle dmaOk blob s
  | .keyCommitDurable handle => Sys2Proof.Machine.execKeyCommitDurable handle s
  | .journalCompaction done => Sys2Proof.Machine.execJournalCompaction done s
  | .hailSend c => Sys2Proof.Machine.execHailSend c s
  | .peerPieceRx half c p => Sys2Proof.Machine.execPeerPieceRx half c p s
  | .reassemblyTimeout half c ty sender session => Sys2Proof.Machine.execReassemblyTimeout half c ty sender session s
  | .hailRx half c b => Sys2Proof.Machine.execHailRx half c b s
  | .carrierLoss member c => Sys2Proof.Machine.execCarrierLoss member c s
  | .peerMoorExpire member => Sys2Proof.Machine.execPeerMoorExpire member s
  | .zkaAutoStart pairing => Sys2Proof.Machine.execZkaAutoStart pairing s
  | .zkaOfferRx c m => Sys2Proof.Machine.execZkaOfferRx c m s
  | .zkaAnswerRx c m => Sys2Proof.Machine.execZkaAnswerRx c m s
  | .zkaFinishRx c m => Sys2Proof.Machine.execZkaFinishRx c m s
  | .zkaDoneRx c session body => Sys2Proof.Machine.execZkaDoneRx c session body s
  | .zkaAbortRx c session cause => Sys2Proof.Machine.execZkaAbortRx c session cause s
  | .charterReqRx c sender digest => Sys2Proof.Machine.execCharterReqRx c sender digest s
  | .charterRx c sender charter => Sys2Proof.Machine.execCharterRx c sender charter s
  | .zkaFinishResend session => Sys2Proof.Machine.execZkaFinishResend session s
  | .zkaSessionTimeout session => Sys2Proof.Machine.execZkaSessionTimeout session s
  | .zkaClosedExpire session => Sys2Proof.Machine.execZkaClosedExpire session s
  | .mkpduRx ca f => Sys2Proof.Machine.execMkpduRx ca f s
  | .mkaHello ca => Sys2Proof.Machine.execMkaHello ca s
  | .mkaLifeExpire ca what => Sys2Proof.Machine.execMkaLifeExpire ca what s
  | .cwyReplaceStep t => Sys2Proof.Machine.execCwyReplaceStep t s
  | .pkeRelease half lane completedAt selfOk => Sys2Proof.Machine.execPkeRelease half lane completedAt selfOk s
  | .pkeKatDone half ok => Sys2Proof.Machine.execPkeKatDone half ok s
  | .crossingEnd half drained => Sys2Proof.Machine.execCrossingEnd half drained s
  | .crossingCopyRx half n => Sys2Proof.Machine.execCrossingCopyRx half n s
  | .crossingAckRx half n => Sys2Proof.Machine.execCrossingAckRx half n s
  | .copyNakRx half first => Sys2Proof.Machine.execCopyNakRx half first s
  | .frameMark half bits => Sys2Proof.Machine.execFrameMark half bits s
  | .relinquish half => Sys2Proof.Machine.execRelinquish half s
  | .takeoverSilent half => Sys2Proof.Machine.execTakeoverSilent half s
  | .reclaim half => Sys2Proof.Machine.execReclaim half s
  | .haltRx half => Sys2Proof.Machine.execHaltRx half s
  | .claimPreferredSeen half => Sys2Proof.Machine.execClaimPreferredSeen half s
  | .claimLoss half => Sys2Proof.Machine.execClaimLoss half s
  | .finalSeal half => Sys2Proof.Machine.execFinalSeal half s
  | .handoverReclaim half => Sys2Proof.Machine.execHandoverReclaim half s
  | .rejoinRequest half => Sys2Proof.Machine.execRejoinRequest half s
  | .rejoinComplete half => Sys2Proof.Machine.execRejoinComplete half s
  | .selftestRun half test ok => Sys2Proof.Machine.execSelftestRun half test ok s
  | .usherEvent half src => Sys2Proof.Machine.execUsherEvent half src s
  | .dramRead half agent line corr walked bus => Sys2Proof.Machine.execDramRead half agent line corr walked bus s
  | .dramWrite half agent addr size data bus => Sys2Proof.Machine.execDramWrite half agent addr size data bus s
  | .tamperAlarm srcs => Sys2Proof.Machine.execTamperAlarm srcs s
  | .cellCheck mv holdupDays failed charging => Sys2Proof.Machine.execCellCheck mv holdupDays failed charging s
  | .flashRecordDurable id => Sys2Proof.Machine.execFlashRecordDurable id s
  | .dmaTransferEnd h ok => Sys2Proof.Machine.execDmaTransferEnd h ok s
  | .sourceLeavesAlarm v => Sys2Proof.Machine.execSourceLeavesAlarm v s
  | .pcieLinkChange half up => Sys2Proof.Machine.execPcieLinkChange half up s
  | .thermalWarnClear sensor temp => Sys2Proof.Machine.execThermalWarnClear sensor temp s
  | .clientPcsRestartDone half lane => Sys2Proof.Machine.execClientPcsRestartDone half lane s

end Sys2Proof.Machine
end

