-- ==== Sys2Proof/Machine/Tick.lean ====
section
/-! DEFINITION. What the clock does while nothing is commanded: one tick of 1 ns of the module reference, which the time
bases (R367) and the counters in MODE 1 and 2 (R506) count. -/

namespace Sys2Proof.Machine

open Sys2Proof

/-- The level that a counter in MODE 1 compares (Table 17.1). -/
def HState.level (x : HState) (ev obj : Nat) : Nat :=
  match ev with
  | 0x02 => (tabGet {} x.fifos obj : Fifo).occ
  | 0x22 => if obj < 512 then x.queueCells obj else tabGet 0 x.cqCells (obj - 512)
  | 0x23 => x.heldCells
  | 0x32 => x.helm.backlogKib
  | 0x61 => x.gov.paces.getD obj 0
  | _ => 0

/-- The condition that a counter in MODE 2 counts (Table 17.1). -/
def HState.condition (x : HState) (ev obj : Nat) : Bool :=
  match ev with
  | 0x13 => !(x.rxLane obj).sync
  | 0x60 => x.gov.paceLimit
  | _ => false

/-- A counter adds 1 at this tick (R506). -/
def HState.ticks (x : HState) (c : Ctr) : Bool :=
  let ev := bits c.cfg 23 16
  let obj := bits c.cfg 9 0
  bit c.cfg 31 &&
    (decide (bits c.cfg 29 28 = 1 ∧ c.thresh < x.level ev obj) || (decide (bits c.cfg 29 28 = 2) && x.condition ev obj))

/-- A tick on one half: its time bases and counters stand still while it is in COLD or halted (R504). DESIGN CHOICE:
notes/assumptions/1.md. -/
def State.tickHalf (s : State) (h : Half) : State :=
  let x := s.half h
  if x.up then
    (x.ctrs.foldl (fun s p => if x.ticks p.2 then s.ctrAdd h p.1 1 else s) s).modHalf h fun x => x.advanceTbs 1
  else s

/-- One tick of the module reference. DESIGN CHOICE: notes/assumptions/1.md. -/
def State.tick (s : State) : State := ({ s with now := s.now + 1 }.tickHalf .A).tickHalf .B

end Sys2Proof.Machine
end

