-- ==== Sys2Proof/Machine/Step.lean ====
section
/-! DEFINITION. One step of the block: the step at the front of the queue, or a tick of the clock while nothing waits. -/

namespace Sys2Proof.Machine

open Sys2Proof

/-- Take the front of the queue and run it with the rest of the queue; with nothing waiting, the reference ticks (R1,
R28, R29). DESIGN CHOICE: notes/assumptions/1.md, notes/assumptions/2.md. -/
def step (s : State) : Host.Outcome State Fault Refusal :=
  match s.pending with
  | c :: rest => exec c { s with pending := rest }
  | [] => .next s.tick

/-- The state with the step that a table word spells at the front of its queue: no word of the table spells one.
DESIGN CHOICE: notes/assumptions/2.md. -/
def State.withFetchWord (s : State) (nbits w : Nat) : State :=
  match decodeTableWord nbits w with
  | some c => { s with pending := c :: s.pending }
  | none => s

end Sys2Proof.Machine
end

