-- ==== Sys2Proof/Machine/Views.lean ====
section
/-! DEFINITION. What each register reads as: the read-only and read-clear registers as views of the state, the others as
they are kept (R14, R41), what each transmit lane sends, and the indicators of the front face (R520).  A read that
changes nothing is no step. -/

namespace Sys2Proof.Machine

open Sys2Proof

/-- A word of fields: value and lowest bit of each. -/
def fieldsAt (fs : List (Nat × Nat)) : Nat := (fs.map fun f => f.1 * 2 ^ f.2).sum

/-- A flag and its bit. -/
def flagAt (b : Bool) (i : Nat) : Nat × Nat := (b2n b, i)

/-- The word of a mask. -/
def maskOf (n : Nat) (f : Nat → Bool) : Nat := ((List.range n).map fun i => b2n (f i) * 2 ^ i).sum

/-- How many entries of a table meet a condition. -/
def countIf {α : Type} (t : Tab α) (f : Nat → α → Bool) : Nat := (t.filter fun p => f p.1 p.2).length

/-! ## GLB and LNE (01, 02) -/

/-- `GLB_HALT_CAUSE`. -/
def HState.haltStat (x : HState) : Nat :=
  fieldsAt [(x.haltCause, 28), (if x.haltCause = 1 then x.haltFifo else 0, 0)]

/-- `GLB_PACE_STAT`; a slowest pace above 4,095 ps is shown modulo 4,096. DESIGN CHOICE: notes/assumptions/127.md. -/
def HState.paceStat (x : HState) : Nat :=
  let g := x.gov
  fieldsAt [flagAt g.paceLimit 31, flagAt g.rateFloor 30, (g.group % 16, 24), ((g.vcore - 680) / 5, 12),
    (g.slowest % 4096, 0)]

/-- `GLB_FIFO_CFG`, `GLB_FIFO_STAT` and `GLB_FIFO_CERR` of the FIFO that `GLB_FIFO_SEL` selects; an index that is not
implemented reads 0 (R39). -/
def HState.fifoWord (x : HState) (what : Nat) : Nat :=
  let i := bits (x.reg 0 0x300) 9 0
  let f : Fifo := tabGet {} x.fifos i
  if 640 ≤ i then 0
  else match what with
    | 0 => f.level
    | 1 => fieldsAt [(f.occ % 65536, 16), (Config.fifoCapacity i % 65536, 0)]
    | _ => f.cerr

/-- `LNE_LANE_STAT[n]` of a half. -/
def State.laneStat (s : State) (h : Half) (n : Nat) : Nat :=
  let l := (s.half h).lane n
  let ok : Dir → Bool := fun d =>
    let v : Slip := tabGet {} s.slips (slipKey n d)
    decide (s.board.power = .on) && !v.lost1 && !v.lost2 && !(decide (d = .tx) && v.inactive)
  fieldsAt [flagAt l.signal 31, flagAt l.lock 30, flagAt l.adapted 29, flagAt (ok .rx) 28, flagAt (ok .tx) 27,
    (l.pwrNow, 22), (l.ctle % 64, 16), (l.eyeV % 256, 8), (l.eyeH % 256, 0)]

/-- `LNE_FERRY_STAT`. -/
def HState.ferryStat (x : HState) : Nat :=
  let lane : Nat → FerryLane := tabGet {} x.ferry
  fieldsAt [flagAt x.ferryUp 31, (countIf x.ferry fun _ v => v.inUse, 24), (maskOf 8 fun k => (lane k).inUse, 8),
    (maskOf 8 fun k => (lane k).locked, 0)]

/-! ## CWY, TRB and L1C (03, 04, 05) -/

/-- `CWY_GROUP_STAT[g]`. -/
def HState.groupStat (x : HState) (g : Nat) : Nat :=
  let v := x.grp g
  let ad := (x.img.groupLanes g).filter (x.admitted g)
  fieldsAt [flagAt v.gsm 31, flagAt v.gobValid 30, (ad.length, 16),
    (match v.ref with | some k => x.img.laneLpos g k | none => 0, 11),
    ((ad.map fun k => lanBuffers (x.rxLane k).advance).sum, 0)]

/-- `CWY_LANE_STAT[k]`: a masked defect reads 0 (R102). DEDUCED: notes/assumptions/97.md. -/
def HState.cwyLaneStat (x : HState) (k : Nat) : Nat :=
  let l := x.rxLane k
  let d := x.laneShown k
  fieldsAt [flagAt l.sync 31, flagAt (!l.sync && !x.los k) 30, (d % 2, 29), (d / 2 % 2, 28), (d / 4 % 2, 27),
    (d / 8 % 2, 26), (d / 16 % 2, 25), (l.lpos.getD 0, 19), (l.gid.getD 0, 15), (l.snds.length, 11),
    (min 53 (lanBuffers l.advance - 2), 0)]

/-- `TRB_SIDE_STAT[t][s]` (R134): a masked defect reads 0. -/
def HState.sideStat (x : HState) (t : Nat) (sd : Side) : Nat :=
  let d := x.sideShown t sd
  if !x.img.tribEn t || !(x.img.tribSides t).contains sd then 0
  else fieldsAt [flagAt (x.sideFailed t sd) 31, (d % 2, 30), (d / 2 % 2, 29), (d / 4 % 2, 28), (d / 8 % 2, 27),
    (d / 16 % 2, 26), (d / 32 % 2, 25), (d / 64 % 2, 24), (d / 128 % 2, 23), (d / 256 % 2, 22),
    flagAt (x.img.altInUse t sd) 21, (((x.side t sd).slot 0).cur, 0)]

/-- The states of four key slots. -/
def slotStates (l : List KeySlot) : Nat := ((List.range 4).map fun i => (l.getD i {}).st * 4 ^ i).sum

/-- `L1C_TX_STAT[t]`. -/
def HState.l1cTxStat (x : HState) (t : Nat) : Nat :=
  let a := x.img.txA t
  fieldsAt [(match a.st with | .noKey => 0 | .run => 1 | .announced => 2 | .switched => 3, 30),
    (x.sentFlags t / 32 % 2, 29), flagAt a.orphaned 28, (slotStates a.slots, 0)]

/-- `L1C_TX_EPOCH[t]` and `L1C_RX_EPOCH[t]`. -/
def Image.txEpoch (im : Image) (t : Nat) : Nat := match (im.txA t).inSt 2 with | some k => k.epoch | none => 0
def Image.rxEpoch (im : Image) (t : Nat) : Nat := match (im.rxA t).inSt 2 with | some k => k.epoch | none => 0

/-- `L1C_RX_STAT[t]`. -/
def HState.l1cRxStat (x : HState) (t : Nat) : Nat :=
  let a := x.img.rxA t
  fieldsAt [flagAt (x.trib t).nokey 31, flagAt (x.trib t).acf 30, flagAt a.orphaned 29, (slotStates a.slots, 0)]

/-! ## PKT, CLS and HAL (06, 07, 08) -/

/-- `PKT_PORT_STAT[p]`. -/
def HState.portStat (x : HState) (p : Nat) : Nat :=
  let v := tabGet 0 x.preempt p
  fieldsAt [flagAt (decide (v = 2)) 31, (v, 29),
    (countIf x.img.scRx fun _ c => match c.args with | some a => decide (a.port = p) | none => false, 0)]

/-- `PKT_RES_STAT` and `PKT_PIN_STAT`. -/
def Image.resStat (im : Image) : Nat :=
  fieldsAt [(countIf im.saTx fun _ a => a.resident, 16), (countIf im.saRx fun _ a => a.resident, 0)]
def Image.pinStat (im : Image) : Nat :=
  fieldsAt [(countIf im.saTx fun _ a => a.pinned, 16), (countIf im.saRx fun _ a => a.pinned, 0)]

/-- `CLS_STN_STAT`. -/
def Image.stnStat (im : Image) : Nat :=
  fieldsAt [(min 8191 (im.stn.filterMap Prod.snd |>.filter fun e => e.2.moored).length, 19), (im.stn.length, 0)]

/-- `CLS_TRIE_STAT`. -/
def Image.trieStat (im : Image) : Nat :=
  fieldsAt [flagAt im.trie.serving 31, flagAt im.trie.rebuild 30, (famCount im.trie.serve 4 + famCount im.trie.serve 6, 0)]

/-- `CLS_TRIE_FREE[g]`, g from 1: nodes that await release are not free (R217). -/
def Image.trieFree (im : Image) (g : Nat) : Nat :=
  let at_ : List Nat → Nat := fun l => l.getD (g - 1) 0
  let waiting := (im.trie.pending.map fun p => at_ p.1).sum
  if g = 0 then 0
  else fieldsAt [(if im.trie.rebuild then at_ triePools - at_ (trieUse im.trie.idle) else 0, 16),
    (at_ triePools - at_ (trieUse im.trie.serve) - waiting, 0)]

/-- `HAL_SHARED_STAT`: cells beyond the shared pool stand in the writing margin. -/
def HState.sharedStat (x : HState) : Nat :=
  fieldsAt [(min 8192 ((x.beyond : Int) - x.img.sharedPool).toNat, 18), ((x.img.sharedPool - x.beyond).toNat, 0)]

/-- The conditions of R265 hold for a line port; rates in Mb/s, 200,000 a lane. -/
def HState.expressMet (x : HState) (now p : Nat) : Bool :=
  let v := x.img.shaper (shaperKey .queue (8 * (32 + p)))
  let last := tabGet 0 x.heldLast p
  x.img.portEn p && v.en && decide (4 * v.rate ≤ 200000 * x.img.portWidth (4 + p / 8)) && decide (v.burst = 0) &&
    decide (tabGet 0 x.preempt p = 2) && decide (last = 0 ∨ last - 1 + 1000000000 ≤ now) && !x.gov.paceLimit

/-! ## KEY, ZKA and PKE (09, 10, 11) -/

/-- `KEY_DOMAIN_STAT[d]`. -/
def Image.domainStat (im : Image) (d : Nat) : Nat :=
  fieldsAt [((im.key (mkHandle 3 d 0)).st, 29), flagAt (im.cascades.any fun c => decide (hDomain c.root = d)) 28,
    (countIf im.keys fun h e => decide (hLanding h = 4 ∧ hDomain h = d ∧ e.st ≠ 0), 0)]

/-- `KEY_STAT`. -/
def Image.keyStat (im : Image) : Nat :=
  fieldsAt [(im.gangways.length, 25), (im.resident4, 12),
    (countIf im.keys fun h e => decide (hLanding h = 4) && e.pinned, 0)]

/-- `KEY_JOURNAL_STAT`. -/
def Flash.journalStat (f : Flash) : Nat := fieldsAt [flagAt f.compacting 31, (100 * f.used / journalUnits, 0)]

/-- `ZKA_MEMBER_STAT`. -/
def Flash.memberStat (f : Flash) : Nat :=
  fieldsAt [flagAt f.charter.isSome 31, (match f.charter with | some c => c.member | none => 0, 0)]

/-- `ZKA_PEER_STAT`. -/
def Image.peerStat (im : Image) : Nat :=
  fieldsAt [((im.sessions.filter fun z => decide (z.st ≠ .closed)).length, 22),
    (countIf im.peers fun _ v => v.any (·.moored.isSome), 11), (countIf im.peers fun _ v => v.isSome, 0)]

/-- `PKE_STAT`. -/
def HState.pkeStat (x : HState) : Nat :=
  let p := x.pke
  fieldsAt [flagAt p.ok 31, flagAt x.gov.paceLimit 30, (countIf p.lanes fun _ v => v.isSome, 27),
    (maskOf 8 fun k => (tabGet none x.img.curves k).isSome, 16), (p.queue.length, 0)]

/-- `PKE_ID`. -/
def State.pkeId (s : State) (h : Half) : Nat :=
  fieldsAt [(s.flash.idgen, 28), (s.flash.rollback, 16), ((s.half h).boot.svn, 8)]

/-! ## TIM, HLM, PMM and TMP (12, 13, 14, 15) -/

/-- The registers `TIM_TB_*[n]` that show a time base. -/
def HState.tbWord (x : HState) (n what : Nat) : Nat :=
  let b := x.tb n
  match what with
  | 0 => fieldsAt [flagAt b.valid 31, (match b.st with | .free => 0 | .acquiring => 1 | .locked => 2 | .holdover => 3, 29),
      ((b.rate % 2 ^ 20).toNat, 0)]
  | 1 => b.latSec % 2 ^ 32
  | 2 => b.latSec / 2 ^ 32
  | 3 => b.ns
  | _ => b.latSub

/-- `TIM_SCHED_STAT`. -/
def Image.schedStat (im : Image) : Nat :=
  fieldsAt [(countIf im.sched fun _ v => v.any fun e => decide (0 < e.period), 16),
    (countIf im.sched fun _ v => v.isSome, 0)]

/-- `HLM_STAT`. -/
def State.helmStat (s : State) (h : Half) : Nat :=
  let x := s.half h
  fieldsAt [flagAt (decide (s.obeyed = some h)) 31, (h.idx, 30), (helmCode x.helm.st, 27),
    flagAt (s.half h.other).helm.claim 26, flagAt x.helm.rejoining 25, (x.restarts, 0)]

/-- `HLM_GEN`. -/
def State.helmGen (s : State) : Nat := match s.obeyed with | some h => (s.half h).helm.gen | none => 0

/-- `HLM_CROSSING`. -/
def HState.crossingWord (x : HState) : Nat := (if x.helm.st.active then x.helm.crossing else x.helm.acked) % 2 ^ 32

/-- `HLM_COPY_STAT`. -/
def HState.copyStat (x : HState) : Nat :=
  fieldsAt [(x.helm.backlogKib, 19), (x.helm.fillPct, 12), (x.helm.resent, 0)]

/-- `PMM_DRAM_STAT`: a re-encryption is whole within its step. DEDUCED: notes/assumptions/97.md. -/
def Dram.stat (d : Dram) : Nat :=
  fieldsAt [flagAt d.init 31, (d.failKind, 27), (d.cache.length, 16), (d.base, 0)]

/-- `PROT_FAULT_INFO` and `PROT_FAULT_ADDR` of a core, at the secure level. -/
def HState.protWord (x : HState) (core off : Nat) : Nat :=
  if off = 0xFFF00104 then (x.unit core).info.toNat else if off = 0xFFF00108 then (x.unit core).addr else 0

/-- `TMP_SRC_STAT` and `TMP_LATCH`. -/
def Tamper.srcStat (t : Tamper) : Nat := maskOf 21 fun i => t.inAlarm.contains i
def Tamper.latchWord (t : Tamper) : Nat := maskOf 21 fun i => t.latched.contains i

/-- `TMP_CELL_STAT` and `TMP_TEMP_STAT`. -/
def Tamper.cellStat (t : Tamper) : Nat := fieldsAt [(t.holdup, 16), (t.cellMv, 0)]
def Tamper.tempStat (t : Tamper) : Nat := fieldsAt [((t.temp1 % 65536).toNat, 16), ((t.temp0 % 65536).toNat, 0)]

/-- `TMP_MESH_STAT[l]`: what a loop measures is open. DEDUCED: notes/assumptions/97.md. -/
def State.meshStat (s : State) (l : Nat) : Nat :=
  let r := Config.reading (0xF00020 + 4 * l) s.now
  fieldsAt [flagAt (bit (s.modReg 0xF0000C) l && !s.tam.onCell) 31, (r % 4097, 16), (r / 4097 % 65536, 0)]

/-! ## HIF and CNT (16, 17) -/

/-- `HIF_ID`. DEDUCED: notes/assumptions/97.md. -/
def hifId (h : Half) (fn : Nat) : Nat :=
  fieldsAt [(0x6402, 16), (fn, 12), (h.idx, 11)]

/-- A ring of a function as a half shows it: `HIF_RING_COUNT` and `HIF_RING_ERR`. -/
def HState.ringCount (x : HState) (fn r : Nat) : Nat := ((x.img.fnSt fn).ring r).count % 2 ^ 32
def HState.ringErrWord (x : HState) (fn r : Nat) : Nat :=
  let g := (x.img.fnSt fn).ring r
  fieldsAt [flagAt g.stalled 31, (g.cause, 28), (tabGet 0 x.ringErr (4 * fn + r), 0)]

/-- The registers of counter `i`. -/
def HState.ctrWord (x : HState) (i what : Nat) : Nat :=
  let c := x.ctr i
  match what with
  | 0 => c.cfg.toNat
  | 1 => c.thresh
  | 2 => c.word % 2 ^ 32
  | _ => tabGet 0 x.ctrHi i

/-- `MOD_REF_STAT`. -/
def Board.refStat (b : Board) : Nat := fieldsAt [(b.refState, 30), ((b.refPpb % 2 ^ 24).toNat, 0)]

/-! ## One register -/

/-- Index of an offset in an array of registers. -/
def indexIn (base stride count off : Nat) : Option Nat :=
  if base ≤ off ∧ (off - base) % stride = 0 ∧ (off - base) / stride < count then some ((off - base) / stride) else none

/-- Arrays of status registers: base, stride, count and the word of each. -/
def State.statusArrays (s : State) (h : Half) (fn : Nat) : List (Nat × Nat × Nat × (Nat → Nat)) :=
  let x := s.half h
  [ (0x20100C, 0x10, 64, s.laneStat h), (0x201400, 4, 64, fun n => (x.lane n).prbsErr),
    (0x300108, 0x10, 16, x.groupStat), (0x301000, 0x10, 32, x.cwyLaneStat),
    (0x400004, 0x100, 32, fun t => x.sideStat t .A), (0x400008, 0x100, 32, fun t => x.sideStat t .B),
    (0x500004, 0x20, 32, x.l1cTxStat), (0x500008, 0x20, 32, x.img.txEpoch), (0x50000C, 0x20, 32, x.l1cRxStat),
    (0x500010, 0x20, 32, x.img.rxEpoch), (0x600004, 0x10, 32, x.portStat), (0x700120, 4, 7, x.img.trieFree),
    (0x900004, 0x10, 16, x.img.domainStat), (0x900008, 0x10, 16, x.img.count5), (0xC00004, 0x20, 4, (x.tbWord · 0)),
    (0xC00008, 0x20, 4, (x.tbWord · 1)), (0xC0000C, 0x20, 4, (x.tbWord · 2)), (0xC00010, 0x20, 4, (x.tbWord · 3)),
    (0xC00014, 0x20, 4, (x.tbWord · 4)), (0xF00020, 4, 8, s.meshStat), (0x10010C, 0x20, 4, x.ringCount fn),
    (0x100114, 0x20, 4, x.ringErrWord fn), (0x1000000, 0x10, 256, (x.ctrWord · 0)),
    (0x1000004, 0x10, 256, (x.ctrWord · 1)),
    (0x1000008, 0x10, 256, (x.ctrWord · 2)), (0x100000C, 0x10, 256, (x.ctrWord · 3)), (0x1100020, 4, 6, s.tempStat),
    (0x1100104, 8, 8, s.cageStat) ]

/-- Single status registers. -/
def State.statusWord (s : State) (h : Half) (fn off : Nat) : Option Nat :=
  let x := s.half h
  match off with
  | 0x000010 => some x.haltStat
  | 0x000104 => some x.paceStat
  | 0x000200 => some (x.img.seq % 2 ^ 32)
  | 0x000204 => some x.seqHi
  | 0x000304 => some (x.fifoWord 0)
  | 0x000308 => some (x.fifoWord 1)
  | 0x00030C => some (x.fifoWord 2)
  | 0x100000 => some (hifId h fn)
  | 0x100004 => some s.moduleStat
  | 0x100008 => some (65536 * tabGet 0 x.dbFwdCnt fn + tabGet 0 x.dbUnsent fn)
  | 0x200004 => some x.img.cfgGen
  | 0x202000 => some x.ferryStat
  | 0x600304 => some x.img.resStat
  | 0x600308 => some x.img.pinStat
  | 0x700108 => some x.img.stnStat
  | 0x700110 => some x.img.trieStat
  | 0x800004 => some x.img.framePool
  | 0x800008 => some x.sharedStat
  | 0x800014 => some (maskOf 32 (x.expressMet s.now))
  | 0x900200 => some (s.flash.run % 2 ^ 32)
  | 0x900204 => some x.runHi
  | 0x900208 => some x.img.keyStat
  | 0x90020C => some s.flash.journalStat
  | 0xA00000 => some s.flash.memberStat
  | 0xA00020 => some x.img.peerStat
  | 0xB00000 => some x.pkeStat
  | 0xB00004 => some (x.img.hssNext % 2 ^ 32)
  | 0xB00008 => some x.hssHi
  | 0xB0000C => some (s.pkeId h)
  | 0xB00014 => some x.pke.late
  | 0xC00304 => some x.img.schedStat
  | 0xD00000 => some (s.helmStat h)
  | 0xD00004 => some s.helmGen
  | 0xD00008 => some x.crossingWord
  | 0xD0000C => some (x.helm.peerHealth % 2 ^ 32)
  | 0xD00010 => some x.healthHi
  | 0xD00014 => some x.copyStat
  | 0xE00000 => some x.dram.stat
  | 0xE00004 => some (x.dram.failAddr % 2 ^ 32)
  | 0xE00008 => some x.failHi
  | 0xE0000C => some x.dram.reenc
  | 0xE00010 => some x.dram.walks
  | 0xE00014 => some x.dram.corr
  | 0xE00018 => some (2 ^ 31)
  | 0xF00000 => some s.tmpStat
  | 0xF00004 => some s.tam.srcStat
  | 0xF00008 => some s.tam.latchWord
  | 0xF00010 => some s.tam.cellStat
  | 0xF00014 => some s.tam.tempStat
  | 0x1100000 => some s.board.psuStat
  | 0x1100014 => some s.board.fanStat
  | 0x1100040 => some s.board.thermalStat
  | 0x1100044 => some s.board.refStat
  | _ => none

/-- A register that is no status register, as it is kept; an offset of no register reads 0 (R41). -/
def State.keptWord (s : State) (h : Half) (fn off : Nat) : Nat :=
  match regSpecOf off with
  | none => 0
  | some r => match r.home with
    | .paired => ((s.img h).reg fn off).toNat
    | .half => ((s.half h).reg fn off).toNat
    | .module => (s.modReg off).toNat

/-- What a read of a register through a function of a half returns: 0 where the function does not reach it (R41).
DEDUCED: notes/assumptions/97.md. -/
def State.readWord (s : State) (h : Half) (fn off : Nat) : Nat :=
  if !reaches fn off then 0
  else match s.statusWord h fn off with
    | some w => w
    | none =>
      match (s.statusArrays h fn).findSome? fun a => (indexIn a.1 a.2.1 a.2.2.1 off).map a.2.2.2 with
      | some w => w
      | none => s.keptWord h fn off

/-! ## What a transmit lane gives at its cage pin (R64–R67, R111, Table 19.2) -/

/-- The signal of a transmit lane: electrical idle, nothing after a slipway fault, a test pattern, lane frames, packet
frames and idle, Local Fault ordered sets at the nominal or at the held rate, or the stream of a tributary. -/
inductive LaneOut where
  | idle | stopped | prbs13 | prbs31 | laneFrames | packets
  | localFault (held : Bool)
  | stream (t : Nat)
deriving DecidableEq, Repr

/-- Client egress on client lane n (R49, R111, R135, R136, R138, R158, R464, Table 19.2): tributary t carries the port of
the lane. DEDUCED: notes/assumptions/101.md. -/
def State.clientOut (s : State) (x : HState) (n : Nat) : LaneOut :=
  let im := x.img
  let t := n - n % im.portWidth (n / 8)
  if s.phase ≠ .running || !s.tam.seed || (x.lane n).pcsRestart then .localFault false
  else if !im.clientCwy n then .packets
  else if !im.termTrib t then .localFault false
  else if x.delivers t then .stream t
  else .localFault true

/-- What lane index n gives at its cage pin: the slipway passes the half whose claim it obeys (R64), is idle without one
(R65) and while the halves have no power (R534), and stays stopped after a fault (R67); a lane in QUIET or DEEP sends
nothing (Table 02.4). DEDUCED: notes/assumptions/101.md. -/
def State.laneOut (s : State) (n : Nat) : LaneOut :=
  if s.board.power ≠ .on then .idle
  else if (tabGet {} s.slips (slipKey n .tx) : Slip).stopped then .stopped
  else match s.obeyed with
    | none => .idle
    | some h =>
      let x := s.half h
      if !(x.lane n).inActive then .idle
      else if x.img.lanePattern n = 1 then .prbs13
      else if x.img.lanePattern n = 2 then .prbs31
      else if n < 32 then s.clientOut x n
      else if x.img.cageCwy ((n - 32) / 8) then .laneFrames
      else .packets

/-! ## The sideband signals of HC1 (Table 18.4) -/

/-- What the module drives on the sideband, in the state that each signal names. -/
structure SidebandPins where
  /-- MGMT_ALERT# is low -/
  alert      : Bool
  linkUpA    : Bool
  linkUpB    : Bool
  /-- HALF_FAULT_A# and HALF_FAULT_B# are low -/
  halfFaultA : Bool
  halfFaultB : Bool
  /-- TAMPER_IND# is low -/
  tamperInd  : Bool
deriving DecidableEq, Repr

/-- The sideband runs from the standby rail (R527). DEDUCED: notes/assumptions/98.md. -/
def State.sidebandPins (s : State) : SidebandPins :=
  let on := decide (s.board.power ≠ .off)
  { alert := on && s.board.alert, linkUpA := s.a.boot.linkUp, linkUpB := s.b.boot.linkUp,
    halfFaultA := on && decide (s.a.haltCause ≠ 0), halfFaultB := on && decide (s.b.haltCause ≠ 0),
    tamperInd := on && !s.tam.seed }

/-! ## The indicators of the front face (Table 18.2, R520) -/

/-- What an indicator shows. -/
inductive Lamp where
  | off | green | greenBlinking | amber | amberBlinking | red
deriving DecidableEq, Repr

/-- STATE: off without mains; amber blinking while no half holds the helm. -/
def State.stateLamp (s : State) : Lamp :=
  if s.board.power = .off then .off
  else if s.modState = 5 then .red
  else if s.phase = .cold then .off
  else if s.holder = none then .amberBlinking
  else match s.modState with
    | 1 => .amberBlinking
    | 2 => .amber
    | 3 => .green
    | _ => .greenBlinking

/-- A and B. DEDUCED: notes/assumptions/98.md. -/
def State.halfLamp (s : State) (h : Half) : Lamp :=
  match (s.half h).helm.st with
  | .activePaired | .activeSolo => .green
  | .inStep => .amber
  | .out => .amberBlinking
  | .relinquished | .halted =>
    if !(s.half h).boot.powered && decide ((s.half h).haltCause = 0) then .off
    else if (s.half h).haltCause ≠ 0 then .red else .amberBlinking

/-- A cage: its 8 lanes are client lanes for cages 0–3 and line lanes for 4–7. DEDUCED: notes/assumptions/98.md. -/
def State.cageLamp (s : State) (c : Nat) : Lamp :=
  let v := s.cage c
  if v.fault then .amber
  else if !v.present || !v.powered then .off
  else match s.holder with
    | some h =>
      if (List.range 8).all fun i =>
          let l := (s.half h).lane (8 * c + i)
          l.inActive && l.signal
        then .green else .off
    | none => .off

end Sys2Proof.Machine
end

