-- ==== Sys2Proof/WellFormed.lean ====
section
/-! DEFINITION. Which operands a step can have: a command's fields as wide as its descriptor holds them (R487), and for
a happening a unit (lane, tributary, cage, core …) that the module has. -/

namespace Sys2Proof

/-- A header: one of 16 functions, a 32-bit position and TAG. -/
def hdrWf (h : Hdr) : Bool := decide (h.fn < 16 ∧ h.pos < 2 ^ 32 ∧ h.tag < 2 ^ 32)
/-- A time base value as Table 12.1 holds it. -/
def timeWf (t : TimeVal) : Bool := decide (t.seconds < 2 ^ 64 ∧ t.nanos < 2 ^ 32 ∧ t.subns < 2 ^ 16)
def instantWf (i : Instant) : Bool := timeWf i.time
def whenWf : When → Bool
  | .immediate => true
  | .scheduled tb i => decide (tb < 255) && instantWf i
def scWf (a : ScArgs) : Bool :=
  decide (a.port < 256 ∧ a.sci < 2 ^ 64 ∧ a.confOffset < 256 ∧ a.domain < 256 ∧ a.clearTags < 256 ∧
    a.replayWindow < 2 ^ 32)
def saWf (a : SaArgs) : Bool :=
  decide (a.sc < 2 ^ 16 ∧ a.an < 256 ∧ a.handle < 2 ^ 32 ∧ a.pn < 2 ^ 64 ∧ a.ssci < 2 ^ 32)
def prefixWf (p : PrefixRec) : Bool := decide (p.family < 256 ∧ p.len < 256 ∧ p.bits < 2 ^ 64)
/-- The key of a station (07): domain, VLAN ID, MAC address. -/
def stnWf (k : StnKey) : Bool := decide (k.domain < 16 ∧ k.vid < 4096 ∧ k.mac < 2 ^ 48)
def stationWf (r : StationRec) : Bool := stnWf r.key && decide (r.sc < 2 ^ 16 ∧ r.port < 256)
def flushWf (a : FlushArgs) : Bool := decide (a.domain < 256 ∧ a.port < 256 ∧ a.sc < 2 ^ 16)
def shaperWf (a : ShaperArgs) : Bool := decide (a.index < 2 ^ 32 ∧ a.rate < 2 ^ 64 ∧ a.burst < 2 ^ 32) && whenWf a.w
def importWf (a : ImportArgs) : Bool :=
  decide (a.parent < 2 ^ 32 ∧ a.kind < 256 ∧ a.addr < 2 ^ 64 ∧ a.material < 2 ^ 256 ∧ a.salt < 2 ^ 96)
def pairingWf (p : Pairing) : Bool :=
  decide (p.member < 2 ^ 16 ∧ p.object < 2 ^ 16 ∧ p.domain < 256 ∧ p.tag < 2 ^ 32 ∧ p.target < 2 ^ 32)
def caWf (a : CaArgs) : Bool :=
  decide (a.port < 256 ∧ a.handle < 2 ^ 32 ∧ a.ckn.length < 256 ∧ a.priority < 256 ∧ a.confOffset < 256 ∧
    a.clearTags < 256) && a.ckn.all fun b => decide (b < 256)
def listWf {α : Type} (f : α → Bool) (l : List α) : Bool := l.all f
def doorbellWf (fn value width : Nat) : Bool := decide (fn < 16 ∧ value < 2 ^ (8 * width))
/-- A carrier instance of Table 10.3. -/
def carrierWf : Carrier → Bool
  | .lane k => decide (k < 32)
  | .trib t => decide (t < 32)
  | .port p => decide (p < 32)
def scopeWf : DegScope → Bool
  | .lane k => decide (k < 32)
  | .side t _ => decide (t < 32)
/-- Bytes. -/
def bytesWf (bs : List Nat) : Bool := bs.all fun b => decide (b < 256)
/-- The contents of a host buffer of so many bytes. -/
def bufferWf (addr len : Nat) (bs : List Nat) : Bool := decide (addr < 2 ^ 64 ∧ len < 2 ^ 32 ∧ bs.length = len) && bytesWf bs
def verifyWf (a : VerifyArgs) : Bool := bytesWf a.key && bytesWf a.msg && bytesWf a.sig && decide (a.msg.length < 2 ^ 32)
/-- A peer message of a session, whole. -/
def bodyWf (session : Nat) (bs : List Nat) : Bool := decide (session < 2 ^ 32 ∧ bs.length ≤ 16128) && bytesWf bs
/-- A lane frame as received (Table 03.1). -/
def frameWf (f : LaneFrameIn) : Bool :=
  decide (f.ovh.length = 56 ∧ f.payload.length = 1020) && bytesWf f.ovh && f.payload.all fun w => decide (w.1 < 2 ^ 128)
/-- What comes while a lane frame is sent. -/
def txWf (v : TxIn) : Bool :=
  (v.client.all fun p => decide (p.1 < 32)) && v.hub.all fun w => decide (w.t < 32 ∧ w.pos < 1018)
/-- A VLAN tag, an Ethernet frame, and a frame from a line with its SecTAG. -/
def vlanWf (v : Vlan) : Bool := decide ((v.tpid = 0x8100 ∨ v.tpid = 0x88A8) ∧ v.tci < 2 ^ 16)
def etherWf (f : FrameIn) : Bool :=
  decide (f.dst < 2 ^ 48 ∧ f.src < 2 ^ 48 ∧ f.etherType < 2 ^ 16) && f.tags.all vlanWf && bytesWf f.payload
def secTagWf (t : SecTag) : Bool := decide (t.an < 4 ∧ t.sl < 256 ∧ t.pn < 2 ^ 32 ∧ t.sci < 2 ^ 64)
def lineWf (f : LineFrameIn) : Bool :=
  decide (f.dst < 2 ^ 48 ∧ f.src < 2 ^ 48 ∧ f.etherType < 2 ^ 16 ∧ f.icv.length = (if f.secTag.isSome then 16 else 0)) &&
    f.tags.all vlanWf && f.secTag.all secTagWf && bytesWf f.data && bytesWf f.icv
/-- Cipher lanes, lanes and table regions of Table 13.3. -/
def testWf : SelfTest → Bool
  | .gcm lane => decide (lane < 16384)
  | .eye lane _ _ => decide (lane < 64)
  | .table region => decide (region < 2432)
  | _ => true

/-- A well-formed step. -/
def Instr.wf : Instr → Bool
  | .tribSwitch h t _ _ tb at_ => hdrWf h && decide (t < 256 ∧ tb < 256) && instantWf at_
  | .tribForce h t _ _ => hdrWf h && decide (t < 256)
  | .tribCipherBind h t handle => hdrWf h && decide (t < 256 ∧ handle < 2 ^ 32)
  | .tribKeyStep h t tb at_ => hdrWf h && decide (t < 256 ∧ tb < 256) && instantWf at_
  | .tribCipherUnbind h t => hdrWf h && decide (t < 256)
  | .secyScCreate h a => hdrWf h && scWf a
  | .secyScDelete h _ sc => hdrWf h && decide (sc < 2 ^ 16)
  | .secySaInstall h a => hdrWf h && saWf a
  | .secySaActivate h sc an w => hdrWf h && decide (sc < 2 ^ 16 ∧ an < 256) && whenWf w
  | .secySaRetire h _ sc an => hdrWf h && decide (sc < 2 ^ 16 ∧ an < 256)
  | .secySaPin h _ sc an _ => hdrWf h && decide (sc < 2 ^ 16 ∧ an < 256)
  | .secySaRead h _ sc an => hdrWf h && decide (sc < 2 ^ 16 ∧ an < 256)
  | .chanWrite h index _ _ _ _ _ => hdrWf h && decide (index < 2 ^ 32)
  | .chanRead h index addr => hdrWf h && decide (index < 2 ^ 32 ∧ addr < 2 ^ 64)
  | .chanBulk h first count addr _ _ => hdrWf h && decide (first < 2 ^ 32 ∧ count < 2 ^ 32 ∧ addr < 2 ^ 64)
  | .trieAdd h p => hdrWf h && prefixWf p
  | .trieDel h p => hdrWf h && prefixWf p
  | .trieBulk h count addr recs => hdrWf h && decide (count < 2 ^ 32 ∧ addr < 2 ^ 64) && listWf prefixWf recs
  | .trieRebuildBegin h => hdrWf h
  | .trieRebuildCommit h => hdrWf h
  | .trieRebuildAbort h => hdrWf h
  | .trieLookup h family addr => hdrWf h && decide (family < 256 ∧ addr < 2 ^ 128)
  | .stnAdd h r => hdrWf h && stationWf r
  | .stnDel h k => hdrWf h && stnWf k
  | .stnRelease h k => hdrWf h && stnWf k
  | .stnFlush h a => hdrWf h && flushWf a
  | .stnDump h capacity addr => hdrWf h && decide (capacity < 2 ^ 32 ∧ addr < 2 ^ 64)
  | .pairWrite h sc _ => hdrWf h && decide (sc < 2 ^ 16)
  | .shaperSet h a => hdrWf h && shaperWf a
  | .shaperRead h _ index => hdrWf h && decide (index < 2 ^ 32)
  | .policerSet h pol cir cbs ebs => hdrWf h && decide (pol < 2 ^ 16 ∧ cir < 2 ^ 64 ∧ cbs < 2 ^ 32 ∧ ebs < 2 ^ 32)
  | .policerRead h pol => hdrWf h && decide (pol < 2 ^ 16)
  | .sampleRead h first count addr _ => hdrWf h && decide (first < 2 ^ 32 ∧ count < 2 ^ 32 ∧ addr < 2 ^ 64)
  | .keyAreaSet h domain addr len => hdrWf h && decide (domain < 256 ∧ addr < 2 ^ 64 ∧ len < 2 ^ 32)
  | .domainCreate h domain => hdrWf h && decide (domain < 256)
  | .keyImport h a => hdrWf h && importWf a
  | .keyReplace h handle g addr material _ => hdrWf h && decide (handle < 2 ^ 32 ∧ g < 2 ^ 32 ∧ addr < 2 ^ 64) && decide (material < 2 ^ 256)
  | .keyInvalidate h handle => hdrWf h && decide (handle < 2 ^ 32)
  | .keyFree h handle => hdrWf h && decide (handle < 2 ^ 32)
  | .keyQuery h handle addr => hdrWf h && decide (handle < 2 ^ 32 ∧ addr < 2 ^ 64)
  | .keyProvenance h handle challenge addr => hdrWf h && decide (handle < 2 ^ 32 ∧ challenge < 2 ^ 256 ∧ addr < 2 ^ 64)
  | .envelopeRenew h addr len auth => hdrWf h && bufferWf addr len auth
  | .pairingSet h index p => hdrWf h && decide (index < 2 ^ 32) && pairingWf p
  | .pairingClear h index => hdrWf h && decide (index < 2 ^ 32)
  | .peerQuery h member addr => hdrWf h && decide (member < 2 ^ 16 ∧ addr < 2 ^ 64)
  | .peerRelease h member => hdrWf h && decide (member < 2 ^ 16)
  | .zkaStart h index => hdrWf h && decide (index < 2 ^ 32)
  | .zkaCancel h session => hdrWf h && decide (session < 2 ^ 32)
  | .caBind h index a => hdrWf h && decide (index < 2 ^ 32) && caWf a
  | .caUnbind h index => hdrWf h && decide (index < 2 ^ 32)
  | .rekeySet h _ index tb first period => hdrWf h && decide (index < 2 ^ 32 ∧ tb < 256 ∧ period < 2 ^ 32) && instantWf first
  | .rekeyClear h _ index => hdrWf h && decide (index < 2 ^ 32)
  | .pkeCurveLoad h slot addr _ => hdrWf h && decide (slot < 256 ∧ addr < 2 ^ 64)
  | .pkeCurveClear h slot => hdrWf h && decide (slot < 256)
  | .pkeVerify h a => hdrWf h && verifyWf a
  | .pkeDigest h hash len addr message => hdrWf h && decide (hash < 256) && bufferWf addr len message
  | .pkeIdentity h addr => hdrWf h && decide (addr < 2 ^ 64)
  | .pkeAttest h challenge addr => hdrWf h && decide (challenge < 2 ^ 256 ∧ addr < 2 ^ 64)
  | .pkeCharterRead h addr capacity => hdrWf h && decide (addr < 2 ^ 64 ∧ capacity < 2 ^ 32)
  | .timeSet h tb at_ => hdrWf h && decide (tb < 256) && instantWf at_
  | .timeOffset h tb _ at_ => hdrWf h && decide (tb < 256) && instantWf at_
  | .timeRead h addr => hdrWf h && decide (addr < 2 ^ 64)
  | .schedList h addr capacity => hdrWf h && decide (addr < 2 ^ 64 ∧ capacity < 2 ^ 32)
  | .schedCancel h entry => hdrWf h && decide (entry < 2 ^ 16)
  | .latencyRead h t addr => hdrWf h && decide (t < 256 ∧ addr < 2 ^ 64)
  | .helmHandover h w returnMs => hdrWf h && decide (returnMs < 2 ^ 32) && whenWf w
  | .helmHalfHalt h _ => hdrWf h
  | .helmHalfRestart h _ => hdrWf h
  | .cfgSave h => hdrWf h
  | .cfgExport h addr capacity => hdrWf h && decide (addr < 2 ^ 64 ∧ capacity < 2 ^ 32)
  | .cfgImport h addr len img => hdrWf h && bufferWf addr len img
  | .moduleSet h _ => hdrWf h
  | .statsSnapshot h group first count addr => hdrWf h && decide (group < 256 ∧ first < 2 ^ 32 ∧ count < 2 ^ 32 ∧ addr < 2 ^ 64)
  | .fwStage h addr len img => hdrWf h && bufferWf addr len img
  | .fwActivate h _ slot => hdrWf h && decide (slot < 256)
  | .fwCommit h => hdrWf h
  | .fwQuery h addr => hdrWf h && decide (addr < 2 ^ 64)
  | .birthRead h addr capacity => hdrWf h && decide (addr < 2 ^ 64 ∧ capacity < 2 ^ 32)
  | .enrolAnchor h addr anchor => hdrWf h && bufferWf addr 184 anchor
  | .enrolCharter h addr charter => hdrWf h && bufferWf addr 3972 charter
  | .idgenAdvance h addr len auth => hdrWf h && bufferWf addr len auth
  | .decommission h addr len auth => hdrWf h && bufferWf addr len auth
  | .cmdPiDoorbell _ fn value width _ => doorbellWf fn value width
  | .tblPiDoorbell _ fn value width _ => doorbellWf fn value width
  | .cplCiDoorbell _ fn value width => doorbellWf fn value width
  | .evtCiDoorbell _ fn value width => doorbellWf fn value width
  | .phaseRetryExpire fn table => decide (fn < 16 ∧ (table = false ∨ fn = 0))
  | .msixDelayExpire fn ring => decide (fn < 16 ∧ (ring = 1 ∨ ring = 2))
  | .ringEnable _ fn ring _ => decide (fn < 16 ∧ ring < 4)
  | .ringDisable _ fn ring _ => decide (fn < 16 ∧ ring < 4)
  | .functionLevelReset _ fn => decide (fn < 16)
  | .registerWrite _ fn _ _ => decide (fn < 16)
  | .lanePwrWrite _ fn lane _ => decide (fn < 16 ∧ lane < 64)
  | .lanePwrMoveDone _ lane => decide (lane < 64)
  | .cageModeWrite _ fn _ => decide (fn < 16)
  | .cageSplitWrite _ fn _ => decide (fn < 16)
  | .clientModeWrite _ fn _ => decide (fn < 16)
  | .groupEnableWrite _ fn g _ => decide (fn < 16 ∧ g < 16)
  | .groupRetime _ fn g _ => decide (fn < 16 ∧ g < 16)
  | .tribEnable _ fn t _ => decide (fn < 16 ∧ t < 32)
  | .tribDisable _ fn t _ => decide (fn < 16 ∧ t < 32)
  | .pktPortEnable _ fn port _ => decide (fn < 16 ∧ port < 32)
  | .xpnThreshHiWrite _ fn _ => decide (fn < 16)
  | .usherSeqLoRead _ fn => decide (fn < 16)
  | .keyRunLoRead _ fn => decide (fn < 16)
  | .hssNextLoRead _ fn => decide (fn < 16)
  | .peerHealthLoRead _ fn => decide (fn < 16)
  | .pmmFailLoRead _ fn => decide (fn < 16)
  | .cntValLoRead _ fn i => decide (fn < 16 ∧ i < 256)
  | .timTbNsRead _ fn n => decide (fn < 16 ∧ n < 4)
  | .fifoCerrRead _ fn => decide (fn < 16)
  | .prbsErrRead _ fn lane _ => decide (fn < 16 ∧ lane < 64)
  | .pkeLateRead _ fn => decide (fn < 16)
  | .pmmReencCntRead _ fn => decide (fn < 16)
  | .pmmWalkCntRead _ fn => decide (fn < 16)
  | .pmmCorrRead _ fn => decide (fn < 16)
  | .dbStatRead _ fn => decide (fn < 16)
  | .ringErrRead _ fn ring => decide (fn < 16 ∧ ring < 4)
  | .cntCfgWrite _ fn i _ => decide (fn < 16 ∧ i < 256)
  | .cntThreshWrite _ fn i _ => decide (fn < 16 ∧ i < 256)
  | .counterWindowRead _ fn offset bytes => decide (fn < 16 ∧ 1 ≤ bytes ∧ offset + bytes ≤ 4096)
  | .counterWrap _ i _ => decide (i < 256)
  | .tmpLatchClear _ fn _ => decide (fn < 16)
  | .tmpLockSet _ fn _ => decide (fn < 16)
  | .cagePowerEnWrite _ fn cage _ => decide (fn < 16 ∧ cage < 8)
  | .protRegionWrite _ core _ offset _ => decide (core < 5 ∧ offset < 0x100)
  | .protFence _ core _ _ => decide (core < 5)
  | .processorAccess _ core _ _ addr size => decide (core < 5 ∧ 0 < size ∧ addr + size ≤ 2 ^ 32)
  | .sidebandRead _ => true
  | .mainsApplied _ _ _ _ => true
  | .envelopeColdRecheck _ _ => true
  | .halfRailFail _ => true
  | .bootStart _ => true
  | .halfReady _ => true
  | .halfBClaimTimeout => true
  | .boot _ => true
  | .dramInitDone _ => true
  | .hssStateRebuilt _ => true
  | .bootingEnd => true
  | .powerFail => true
  | .railsOff => true
  | .psuState supply _ _ _ _ => decide (supply = 1 ∨ supply = 2)
  | .modReset _ => true
  | .perst _ => true
  | .opticsInsert cage => decide (cage < 8)
  | .opticsRemove cage => decide (cage < 8)
  | .opticsReady cage _ _ => decide (cage < 8)
  | .cageOvercurrent cage _ => decide (cage < 8)
  | .fanFail fan => decide (fan < 4)
  | .fanTrayRemove => true
  | .fanTrayInsert => true
  | .thermalWarn _ _ => true
  | .thermalTrip _ _ => true
  | .thermalRestart _ _ => true
  | .refLock _ => true
  | .refLoss => true
  | .ppsEdge tc _ => decide (tc < 2)
  | .ppsLoss tc => decide (tc < 2)
  | .ppsOutputPulse tc => decide (tc < 2)
  | .servoSample tb src _ _ => decide (tb < 4 ∧ src < 5)
  | .servoHoldover tb => decide (tb < 4)
  | .ptpMessageRx port msg => decide (port < 64) && bytesWf msg
  | .schedFire entry => decide (entry < 256)
  | .schedLateFire entry => decide (entry < 256)
  | .signalChange _ lane _ _ => decide (lane < 64)
  | .laneAdapted _ lane ctle eyeV eyeH => decide (lane < 64 ∧ ctle ≤ 40 ∧ eyeV < 256 ∧ eyeH < 256)
  | .slipwaySupply lane _ supply _ => decide (lane < 64 ∧ (supply = 1 ∨ supply = 2))
  | .slipwayFault lane _ _ => decide (lane < 64)
  | .ferryLaneLock _ v => decide (v.lane < 8) && v.headers.all fun h => decide (h < 4)
  | .ferryLaneUnlock _ v => decide (v.lane < 8) && v.headers.all fun h => decide (h < 4)
  | .ferryLaneAdmit _ v => decide (v.lane < 8)
  | .halfHalt _ cause fifo => decide (1 ≤ cause ∧ cause ≤ 7 ∧ fifo < 1024)
  | .paceGovernorRun _ pace _ => decide (pace.length = 16)
  | .laneFrameTx _ arrived => txWf arrived
  | .pointerAdjust _ t _ => decide (t < 32)
  | .fasMatch _ lane _ mfas => decide (lane < 32 ∧ mfas < 256)
  | .soundingCheck _ lane _ _ mfas => decide (lane < 32 ∧ mfas < 256)
  | .laneFrameRx _ lane f => decide (lane < 32) && frameWf f
  | .retimeInForce _ g => decide (g < 16)
  | .degWindowEnd _ scope => scopeWf scope
  | .containerRowRx _ t _ slot mfas => decide (t < 32 ∧ slot < 8 ∧ mfas < 256)
  | .tmcMessageRx _ t bytes => decide (t < 32) && bytesWf bytes
  | .clientFault _ v => decide (v.t < 32)
  | .clientFaultClear _ t => decide (t < 32)
  | .spanVerdict _ t _ => decide (t < 32)
  | .keyNextRx t _ _ _ _ => decide (t < 32)
  | .keyReadyRx t _ _ => decide (t < 32)
  | .keyConfirmRx t _ cfc0 => decide (t < 32 ∧ cfc0 < 2 ^ 64)
  | .keyRefuseRx t _ _ => decide (t < 32)
  | .keyNextResend t => decide (t < 32)
  | .epochSwitch t => decide (t < 32)
  | .txKeyRetire t => decide (t < 32)
  | .txKeyRevert t => decide (t < 32)
  | .rxKeyRetire t => decide (t < 32)
  | .keyConfirmResend t => decide (t < 32)
  | .spanCountRekey t => decide (t < 32)
  | .clientFrameRx _ port f => decide (port < 32) && etherWf f
  | .schedulerPick _ v => decide (v.egress < 64)
  | .lineFrameRx _ port f => decide (port < 32) && lineWf f
  | .frameVerdict _ _ _ _ _ => true
  | .stationLearn _ r => decide (r.port < 32 ∧ r.sc < 8192 ∧ r.vid < 4096) && stnWf r.key
  | .saLoadComplete _ dir sc an => decide (sc < (if dir = .tx then 4096 else 8192) ∧ an < 4)
  | .holdExpire _ _ => true
  | .preemptVerify _ port _ => decide (port < 32)
  | .refillTick _ => true
  | .channelAgingSweep => true
  | .stationAgingSweep => true
  | .stationMoorExpire k => stnWf k
  | .trieNodeRelease => true
  | .trieBankRelease => true
  | .cascadeGraceEnd handle => decide (handle < 2 ^ 32)
  | .keyLoad handle _ blob => decide (handle < 2 ^ 32 ∧ blob.length = 128) && bytesWf blob
  | .keyCommitDurable handle => decide (handle < 2 ^ 32)
  | .journalCompaction _ => true
  | .hailSend c => carrierWf c
  | .peerPieceRx _ c p => carrierWf c && bytesWf p.data
  | .reassemblyTimeout _ c _ _ _ => carrierWf c
  | .hailRx _ c _ => carrierWf c
  | .carrierLoss member c => carrierWf c && decide (member < 8192)
  | .peerMoorExpire member => decide (member < 8192)
  | .zkaAutoStart pairing => decide (pairing < 2048)
  | .zkaOfferRx c m => carrierWf c && bodyWf m.session m.body
  | .zkaAnswerRx c m => carrierWf c && bodyWf m.session m.body
  | .zkaFinishRx c m => carrierWf c && bodyWf m.session m.body
  | .zkaDoneRx c session body => carrierWf c && bodyWf session body
  | .zkaAbortRx c _ _ => carrierWf c
  | .charterReqRx c sender _ => carrierWf c && decide (sender < 8192)
  | .charterRx c sender charter => carrierWf c && decide (sender < 8192) && bodyWf 0 charter
  | .zkaFinishResend _ => true
  | .zkaSessionTimeout _ => true
  | .zkaClosedExpire _ => true
  | .mkpduRx ca _ => decide (ca < 1024)
  | .mkaHello ca => decide (ca < 1024)
  | .mkaLifeExpire ca _ => decide (ca < 1024)
  | .cwyReplaceStep t => decide (t < 32)
  | .pkeRelease _ lane _ _ => decide (lane < 4)
  | .pkeKatDone _ _ => true
  | .crossingEnd _ _ => true
  | .crossingCopyRx _ _ => true
  | .crossingAckRx _ _ => true
  | .copyNakRx _ _ => true
  | .frameMark _ _ => true
  | .relinquish _ => true
  | .takeoverSilent _ => true
  | .reclaim _ => true
  | .haltRx _ => true
  | .claimPreferredSeen _ => true
  | .claimLoss _ => true
  | .finalSeal _ => true
  | .handoverReclaim _ => true
  | .rejoinRequest _ => true
  | .rejoinComplete _ => true
  | .selftestRun _ test _ => testWf test
  | .usherEvent _ _ => true
  | .dramRead _ agent line _ _ _ => decide (agent < 7 ∧ line < 234881024)
  | .dramWrite _ agent addr size _ _ => decide (agent < 7 ∧ 0 < size ∧ addr + size ≤ 0x380000000)
  | .tamperAlarm srcs => srcs.all fun i => decide (i < 21)
  | .cellCheck _ _ _ _ => true
  | .flashRecordDurable _ => true
  | .dmaTransferEnd h _ => hdrWf h
  | .sourceLeavesAlarm v => decide (v.src < 21)
  | .pcieLinkChange _ _ => true
  | .thermalWarnClear _ _ => true
  | .clientPcsRestartDone _ lane => decide (lane < 32)

end Sys2Proof
end

