-- ==== Sys2Proof/Safety.lean ====
section
/-! DEFINITION. What counts as a safe state, in the terms that the statements use. -/

namespace Sys2Proof.Machine

open Sys2Proof

/-- The step ran: it answered a next state. -/
def Runs (i : Instr) (s : State) : Prop := ∃ t, exec i s = .next t

end Sys2Proof.Machine
end

