-- ==== Sys2Proof/Certificates/Slice0/Obligations.lean ====
section
/-! DEFINITION. The statements for the provers: what each step does to the module, taken from the numbered rules of the
spec, with the frame of each step, and the invariants that every step keeps. -/

namespace Sys2Proof.Claims

open Sys2Proof Sys2Proof.Machine

/-! ## Vocabulary -/

/-- Half `x` executes the command, its doorbell was rung on that half (R492), and it stands on the ring that takes its
opcode (R233). -/
def Executes (s : State) (h : Hdr) (op : Nat) (x : Half) : Prop :=
  s.executor h = some x ∧ h.on = x ∧ wrongRing h op = false

/-- The header and opcode of a command; none for a happening. -/
def command : Instr → Option (Hdr × Nat)
  | .tribSwitch h _ _ _ _ _ => some (h, 0x0A40)
  | .tribForce h _ _ _ => some (h, 0x0A41)
  | .tribCipherBind h _ _ => some (h, 0x0A50)
  | .tribKeyStep h _ _ _ => some (h, 0x0A51)
  | .tribCipherUnbind h _ => some (h, 0x0A52)
  | .secyScCreate h _ => some (h, 0x0B01)
  | .secyScDelete h _ _ => some (h, 0x0B02)
  | .secySaInstall h _ => some (h, 0x0B03)
  | .secySaActivate h _ _ _ => some (h, 0x0B04)
  | .secySaRetire h _ _ _ => some (h, 0x0B05)
  | .secySaPin h _ _ _ _ => some (h, 0x0B06)
  | .secySaRead h _ _ _ => some (h, 0x0B07)
  | .chanWrite h _ _ _ _ _ _ => some (h, 0x0201)
  | .chanRead h _ _ => some (h, 0x0202)
  | .chanBulk h _ _ _ _ _ => some (h, 0x0203)
  | .trieAdd h _ => some (h, 0x0211)
  | .trieDel h _ => some (h, 0x0212)
  | .trieBulk h _ _ _ => some (h, 0x0213)
  | .trieRebuildBegin h => some (h, 0x0214)
  | .trieRebuildCommit h => some (h, 0x0215)
  | .trieRebuildAbort h => some (h, 0x0216)
  | .trieLookup h _ _ => some (h, 0x0217)
  | .stnAdd h _ => some (h, 0x0221)
  | .stnDel h _ => some (h, 0x0222)
  | .stnRelease h _ => some (h, 0x0223)
  | .stnFlush h _ => some (h, 0x0224)
  | .stnDump h _ _ => some (h, 0x0225)
  | .pairWrite h _ _ => some (h, 0x0231)
  | .shaperSet h _ => some (h, 0x0501)
  | .shaperRead h _ _ => some (h, 0x0502)
  | .policerSet h _ _ _ _ => some (h, 0x0503)
  | .policerRead h _ => some (h, 0x0504)
  | .sampleRead h _ _ _ _ => some (h, 0x0505)
  | .keyAreaSet h _ _ _ => some (h, 0x0101)
  | .domainCreate h _ => some (h, 0x0102)
  | .keyImport h _ => some (h, 0x0103)
  | .keyReplace h _ _ _ _ _ => some (h, 0x0104)
  | .keyInvalidate h _ => some (h, 0x0105)
  | .keyFree h _ => some (h, 0x0106)
  | .keyQuery h _ _ => some (h, 0x0107)
  | .keyProvenance h _ _ _ => some (h, 0x0108)
  | .envelopeRenew h _ _ _ => some (h, 0x0109)
  | .pairingSet h _ _ => some (h, 0x0401)
  | .pairingClear h _ => some (h, 0x0402)
  | .peerQuery h _ _ => some (h, 0x0403)
  | .peerRelease h _ => some (h, 0x0404)
  | .zkaStart h _ => some (h, 0x0411)
  | .zkaCancel h _ => some (h, 0x0412)
  | .caBind h _ _ => some (h, 0x0421)
  | .caUnbind h _ => some (h, 0x0422)
  | .rekeySet h _ _ _ _ _ => some (h, 0x0431)
  | .rekeyClear h _ _ => some (h, 0x0432)
  | .pkeCurveLoad h _ _ _ => some (h, 0x0901)
  | .pkeCurveClear h _ => some (h, 0x0902)
  | .pkeVerify h _ => some (h, 0x0903)
  | .pkeDigest h _ _ _ _ => some (h, 0x0904)
  | .pkeIdentity h _ => some (h, 0x0905)
  | .pkeAttest h _ _ => some (h, 0x0906)
  | .pkeCharterRead h _ _ => some (h, 0x0907)
  | .timeSet h _ _ => some (h, 0x0301)
  | .timeOffset h _ _ _ => some (h, 0x0302)
  | .timeRead h _ => some (h, 0x0303)
  | .schedList h _ _ => some (h, 0x0304)
  | .schedCancel h _ => some (h, 0x0305)
  | .latencyRead h _ _ => some (h, 0x0306)
  | .helmHandover h _ _ => some (h, 0x0701)
  | .helmHalfHalt h _ => some (h, 0x0702)
  | .helmHalfRestart h _ => some (h, 0x0703)
  | .cfgSave h => some (h, 0x0820)
  | .cfgExport h _ _ => some (h, 0x0821)
  | .cfgImport h _ _ _ => some (h, 0x0822)
  | .moduleSet h _ => some (h, 0x0823)
  | .statsSnapshot h _ _ _ _ => some (h, 0x0601)
  | .fwStage h _ _ _ => some (h, 0x0801)
  | .fwActivate h _ _ => some (h, 0x0802)
  | .fwCommit h => some (h, 0x0803)
  | .fwQuery h _ => some (h, 0x0804)
  | .birthRead h _ _ => some (h, 0x0810)
  | .enrolAnchor h _ _ => some (h, 0x0811)
  | .enrolCharter h _ _ => some (h, 0x0812)
  | .idgenAdvance h _ _ _ => some (h, 0x0813)
  | .decommission h _ _ _ => some (h, 0x0814)
  | _ => none

/-- A read of a register of the physical function: function 0 reads `value` and leaves `t`; a virtual function reads 0
and changes nothing (R41). -/
def PfRead (row : Nat → Instr) (s : State) (value : Nat) (t : State) : Prop :=
  exec (row 0) s = .next (t.emit (.read value)) ∧
  ∀ fn, 0 < fn → fn < 16 → exec (row fn) s = .next (s.emit (.read 0))

/-- A write to a paired register of the physical function through a half that does not hold the helm, or through a
virtual function, changes nothing (R41, R50). -/
def IgnoredElsewhere (row : Half → Nat → Instr) : Prop :=
  ∀ s half fn, fn < 16 → (s.holder ≠ some half ∨ 0 < fn) → exec (row half fn) s = .next s

/-- The state after a half that holds the helm takes a write of `w` to a paired register: the new word, the count of paired
writes, and the write on its way to the standby (R50). -/
def wrote (s : State) (x : Half) (fn off : Nat) (w new : Word) : State :=
  (s.modImg x fun im => { im.setReg fn off new with cfgGen := (im.cfgGen + 1) % 2 ^ 32 }).modHalf x fun y =>
    { y with writes := y.writes ++ [(fn, off, (s.img x).reg fn off, w)] }

/-- The word of a register after an accepted write: its fields by their access types (R14). -/
def newWord (off : Nat) (old w : Word) : Word :=
  match regSpecOf off with
  | some r => r.apply old w
  | none => old

/-- The state after an accepted write of a paired register of the physical function. -/
def rewrote (s : State) (x : Half) (off : Nat) (w : Word) : State :=
  wrote s x 0 off w (newWord off ((s.img x).reg 0 off) w)

/-- A half posts: it is in ACTIVE_PAIRED or ACTIVE_SOLO. -/
def Posting (s : State) (x : Half) : Prop := (s.half x).helm.st = .activePaired ∨ (s.half x).helm.st = .activeSolo

/-- What the programmable parts of OTP hold: evidence, IDGEN, the two anti-rollback thermometers, and the run number. -/
def otp (s : State) : Nat × Nat × Nat × Nat × Nat :=
  (s.tam.evidence, s.flash.idgen, s.flash.rollA, s.flash.rollB, s.flash.run)

/-- Part by part, the second is at least the first. -/
def NotBelow (a b : Nat × Nat × Nat × Nat × Nat) : Prop :=
  a.1 ≤ b.1 ∧ a.2.1 ≤ b.2.1 ∧ a.2.2.1 ≤ b.2.2.1 ∧ a.2.2.2.1 ≤ b.2.2.2.1 ∧ a.2.2.2.2 ≤ b.2.2.2.2

/-- Bytes from address `a` on, in canonical form: addresses strictly rising, no byte listed that reads as an unlisted one
does. -/
def cellsFrom : Nat → List Host.Cell → Prop
  | _, [] => True
  | a, c :: r => a ≤ c.1 ∧ c.2 ≠ 0 ∧ cellsFrom (c.1 + 1) r

/-- The memories that the module writes are in canonical form: the protected DRAM of each half, host memory and the ring
slots in it, and the descriptors that it knows of. -/
def MemoriesCanonical (s : State) : Prop :=
  cellsFrom 0 s.a.dram.data ∧ cellsFrom 0 s.b.dram.data ∧
  tabWf [] s.host = true ∧ tabWf none s.rings = true ∧ tabWf none s.descs = true

end Sys2Proof.Claims

open Sys2Proof Sys2Proof.Machine Sys2Proof.Claims

/-! ## The block -/

/-- A command at the front of the queue runs on the state with the rest of the queue, whatever it is. -/
def Obligations.StepTakesTheFrontOfTheQueue : Prop :=
  ∀ (c : Instr) (rest : List Instr) (s : State), s.pending = c :: rest → step s = exec c { s with pending := rest }

/-- With nothing waiting the module reference ticks once (the model's choice: notes/assumptions/1.md).  The tick moves
`now` by 1 ns and leaves everything outside the halves as it was; it leaves a half that is down (in COLD or halted) as
it was, and a time base of a half that is up, uncorrected, advances by 1 ns (R367). -/
def Obligations.IdleStepIsOneTick : Prop :=
  ∀ s : State, s.pending = [] → ∃ t, step s = .next t ∧ t.now = s.now + 1 ∧
    { t with now := s.now, a := s.a, b := s.b } = s ∧
    ∀ x : Half, ((s.half x).up = false → t.half x = s.half x) ∧
      ((s.half x).up = true → ∀ n, n < 4 → ((s.half x).tb n).rate = 0 → ((s.half x).tb n).acc = 0 →
        tvUnits ((t.half x).tb n).value = (tvUnits ((s.half x).tb n).value + 65536) % (2 ^ 64 * 1000000000 * 65536))

/-- Every well-formed step of the table runs: it is never refused and never faults. -/
def Sys2Proof.Claims.EveryWellFormedStepRuns : Prop :=
  ∀ (i : Instr) (s : State), i.wf = true → Runs i s

/-- No step is refused, and the one fault is that of a step about a unit that the module does not have. -/
def Sys2Proof.Claims.OnlyAbsentUnitsFault : Prop :=
  ∀ (i : Instr) (s : State), (∃ t, exec i s = .next t) ∨ exec i s = .fault .noSuchUnit

/-- No step touches the queue of waiting steps, nor the clock of the model. -/
def Obligations.NoStepTouchesTheQueue : Prop :=
  ∀ (i : Instr) (s t : State), exec i s = .next t → t.pending = s.pending ∧ t.now = s.now

/-- While no half executes commands (BOOTING, ERASED without a holder, both halves stopped), a command changes
nothing. -/
def Sys2Proof.Claims.CommandsNeedAServingHalf : Prop :=
  ∀ (i : Instr) (h : Hdr) (op : Nat) (s : State), command i = some (h, op) → s.executor h = none →
    exec i s = .next s

/-- A command whose doorbell was rung on the standby is completed by the half that holds the helm, with FORWARDED, with
REJECTED_ARGS or NOT_HELM, and does nothing else (R492, R16). -/
def Sys2Proof.Claims.StandbyCommandsAreTurnedAway : Prop :=
  ∀ (i : Instr) (h : Hdr) (op : Nat) (s : State) (x : Half), command i = some (h, op) → s.executor h = some x →
    h.on ≠ x → ∃ st, (st = stArgs ∨ st = stNotHelm) ∧ exec i s = .next (s.postCpl x (cmdOf h op) st cfForwarded [])

/-- A command on the wrong ring is completed with REJECTED_ARGS and does nothing else: the table ring takes exactly
0x0201 to 0x0231 (R233). -/
def Sys2Proof.Claims.WrongRingIsRejected : Prop :=
  ∀ (i : Instr) (h : Hdr) (op : Nat) (s : State) (x : Half), command i = some (h, op) → s.executor h = some x →
    h.on = x → wrongRing h op = true → exec i s = .next (s.postCpl x (cmdOf h op) stArgs 0 [])

/-- The module right after reset: COLD, no helm claimed, nothing sent, the evidence count 0, on the cell, in the state
COLD of R11; and it is idle. Model's choices in it: notes/assumptions/13.md, notes/assumptions/14.md. -/
def Obligations.ResetIsColdAndEmpty : Prop :=
  State.reset.modState = 0 ∧ State.reset.holder = none ∧ State.reset.serving = none ∧ State.reset.pending = [] ∧
  State.reset.out = [] ∧ State.reset.tam.evidence = 0 ∧ State.reset.tam.onCell = true ∧
  (∀ h : Half, (State.reset.half h).boot.powered = false ∧ (State.reset.half h).gov.vcore = 800 ∧
    ((State.reset.half h).reg 0 0x100).toNat = 0x04000000 + 880 * 65536 + 40 * 256 + 40) ∧
  MemoriesCanonical State.reset

/-- OTP and the run number never go back: every step leaves the evidence count, IDGEN, both anti-rollback thermometers
and the run number at least where they were. -/
def Obligations.OtpNeverFalls : Prop :=
  ∀ s t : State, step s = .next t → NotBelow (otp s) (otp t)

/-- Every step keeps the memories in canonical form. -/
def Obligations.StepsKeepMemoriesCanonical : Prop :=
  ∀ s t : State, MemoriesCanonical s → step s = .next t → MemoriesCanonical t

/-! ## Reads that change state -/

/-- A read of the low half of a wide value returns it and latches the upper half of the same value: the usher sequence
number (R43), the run number (R302), the next HSS index (R366), the peer's health word (R427), the last DRAM failure
(R454) and the time base value (R370).  A virtual function reads 0 and latches nothing. -/
def Sys2Proof.Claims.LowReadsLatchTheUpperHalf : Prop :=
  ∀ (x : Half) (s : State),
    PfRead (.usherSeqLoRead x) s ((s.img x).seq % 2 ^ 32)
      (s.modHalf x fun y => { y with seqHi := (s.img x).seq / 2 ^ 32 }) ∧
    PfRead (.keyRunLoRead x) s (s.flash.run % 2 ^ 32) (s.modHalf x fun y => { y with runHi := s.flash.run / 2 ^ 32 }) ∧
    PfRead (.hssNextLoRead x) s ((s.img x).hssNext % 2 ^ 32)
      (s.modHalf x fun y => { y with hssHi := (s.img x).hssNext / 2 ^ 32 }) ∧
    PfRead (.peerHealthLoRead x) s ((s.half x).helm.peerHealth % 2 ^ 32)
      (s.modHalf x fun y => { y with healthHi := (s.half x).helm.peerHealth / 2 ^ 32 }) ∧
    PfRead (.pmmFailLoRead x) s ((s.half x).dram.failAddr % 2 ^ 32)
      (s.modHalf x fun y => { y with
        failHi := 16 * (s.half x).dram.failAgent + (s.half x).dram.failAddr / 2 ^ 32 % 16 }) ∧
    ∀ n, n < 4 → PfRead (.timTbNsRead x · n) s ((s.half x).tb n).ns
      (s.modHalf x fun y => y.setTb n
        { (s.half x).tb n with latSec := ((s.half x).tb n).sec, latSub := ((s.half x).tb n).sub })

/-- Read-clear counts return their value and are 0 afterwards, and nothing else changes: a lane's pattern errors (R14;
those found since the last read count while PATTERN is 1 or 2), a FIFO's corrected errors (R37; an index that is not
implemented reads 0), late releases (R345), re-encryptions (R438), tree walks (R436) and corrected DRAM errors (R442). -/
def Sys2Proof.Claims.ReadClearCountsClear : Prop :=
  ∀ (x : Half) (s : State),
    (∀ n e, n < 64 → PfRead (.prbsErrRead x · n e) s (min (2 ^ 32 - 1) (((s.half x).lane n).prbsErr +
        if (s.img x).lanePattern n = 1 ∨ (s.img x).lanePattern n = 2 then e else 0))
      (s.modHalf x fun y => y.setLane n { (s.half x).lane n with prbsErr := 0 })) ∧
    (∀ i, i = bits ((s.half x).reg 0 0x300) 9 0 → i < 640 →
      PfRead (.fifoCerrRead x) s (tabGet {} (s.half x).fifos i : Fifo).cerr
        (s.modHalf x fun y =>
          { y with fifos := tabSet {} y.fifos i { (tabGet {} (s.half x).fifos i : Fifo) with cerr := 0 } })) ∧
    (640 ≤ bits ((s.half x).reg 0 0x300) 9 0 → PfRead (.fifoCerrRead x) s 0 s) ∧
    PfRead (.pkeLateRead x) s (s.half x).pke.late (s.modHalf x fun y => { y with pke := { y.pke with late := 0 } }) ∧
    PfRead (.pmmReencCntRead x) s (s.half x).dram.reenc
      (s.modHalf x fun y => { y with dram := { y.dram with reenc := 0 } }) ∧
    PfRead (.pmmWalkCntRead x) s (s.half x).dram.walks
      (s.modHalf x fun y => { y with dram := { y.dram with walks := 0 } }) ∧
    PfRead (.pmmCorrRead x) s (s.half x).dram.corr (s.modHalf x fun y => { y with dram := { y.dram with corr := 0 } })

/-- The read-clear registers of HIF belong to each function: doorbell counts (R493) and ring errors, of which the read
clears only the count (R486); ring 3 is the physical function's alone. -/
def Sys2Proof.Claims.HostInterfaceCountsClear : Prop :=
  ∀ (x : Half) (fn : Nat) (s : State), fn < 16 →
    exec (.dbStatRead x fn) s = .next ((s.modHalf x fun y =>
      { y with dbFwdCnt := tabSet 0 y.dbFwdCnt fn 0, dbUnsent := tabSet 0 y.dbUnsent fn 0 }).emit
        (.read (65536 * tabGet 0 (s.half x).dbFwdCnt fn + tabGet 0 (s.half x).dbUnsent fn))) ∧
    (∀ r, r < 3 ∨ (r = 3 ∧ fn = 0) → exec (.ringErrRead x fn r) s = .next ((s.modHalf x fun y =>
      { y with ringErr := tabSet 0 y.ringErr (4 * fn + r) 0 }).emit
        (.read (b2n (((s.img x).fnSt fn).ring r).stalled * 2 ^ 31 + (((s.img x).fnSt fn).ring r).cause * 2 ^ 28 +
          tabGet 0 (s.half x).ringErr (4 * fn + r))))) ∧
    (0 < fn → exec (.ringErrRead x fn 3) s = .next (s.emit (.read 0)))

/-- Counter reads take one sample of value and STICKY: a read of CNT_VAL_LO latches the upper word (R519); in the counter
window an 8-byte aligned read of an open counter returns its whole word and latches nothing, a 4-byte read of its low
dword latches its high dword, and a 4-byte read of the high dword returns what was latched (R511–R513). -/
def Sys2Proof.Claims.CounterReadsAreOneSample : Prop :=
  ∀ (x : Half) (fn i : Nat) (s : State), fn < 16 → i < 256 →
    (fn = 0 → exec (.cntValLoRead x fn i) s = .next ((s.modHalf x fun y =>
      { y with ctrHi := tabSet 0 y.ctrHi i (((s.half x).ctr i).word / 2 ^ 32) }).emit
        (.read (((s.half x).ctr i).word % 2 ^ 32)))) ∧
    ((s.half x).winOpen fn i = true → ((s.half x).ctr i).val < 2 ^ 48 →
      exec (.counterWindowRead x fn (8 * i) 8) s = .next (s.emit (.read ((s.half x).ctr i).word)) ∧
      exec (.counterWindowRead x fn (8 * i) 4) s = .next ((s.modHalf x fun y =>
        { y with winHi := tabSet 0 y.winHi i (((s.half x).ctr i).word / 2 ^ 32) }).emit
          (.read (((s.half x).ctr i).word % 2 ^ 32))) ∧
      exec (.counterWindowRead x fn (8 * i + 4) 4) s =
        .next (s.emit (.read (tabGet 0 (s.half x).winHi i % 2 ^ 32)))) ∧
    ((s.half x).winOpen fn i = false → exec (.counterWindowRead x fn (8 * i) 8) s = .next (s.emit (.read 0)))

/-! ## Programmable counters -/

/-- A reprogramming write clears value and STICKY, installs the setting and drops an overflow that the usher has not
accepted, on that half alone (R510); a setting that Table 17.1 does not list, or a value out of range, changes nothing
(R507, R42).  An increment past 2^48 − 1 continues modulo 2^48 and sets STICKY; with INT_EN clear it posts nothing
(R508, R509). -/
def Sys2Proof.Claims.CountersReprogramAndWrap : Prop :=
  ∀ (x : Half) (i : Nat) (w : Word) (s : State), i < 256 →
    (∀ new, new = newWord (0x1000000 + 0x10 * i) ((s.half x).ctr i).cfg w →
      (bits w 29 28 ≤ 2 → cntSettingOk new = true →
        exec (.cntCfgWrite x 0 i w) s = .next (s.modHalf x fun y => y.reprogram i fun c => { c with cfg := new })) ∧
      (cntSettingOk new = false → exec (.cntCfgWrite x 0 i w) s = .next s)) ∧
    (exec (.cntThreshWrite x 0 i w) s = .next (s.modHalf x fun y =>
      y.reprogram i fun c => { c with thresh := bits w 17 0 })) ∧
    (∀ fn, 0 < fn → fn < 16 → exec (.cntCfgWrite x fn i w) s = .next s ∧ exec (.cntThreshWrite x fn i w) s = .next s) ∧
    ∀ n c, c = (s.half x).ctr i → (s.half x).up = true → bit c.cfg 31 = true → bit c.cfg 30 = false →
      2 ^ 48 ≤ c.val + n → n ≤ 4 → bits c.cfg 29 28 = 0 →
      exec (.counterWrap x i n) s = .next (s.modHalf x fun y =>
        { y with ctrs := tabSet {} y.ctrs i { c with val := (c.val + n) % 2 ^ 48, sticky := true } })

/-! ## Doorbells and rings -/

/-- A doorbell of another width than 32 bits is counted as a ring error and has no other effect (R479); the doorbell of
the table ring is ignored on a virtual function (Table 16.4). -/
def Sys2Proof.Claims.OddDoorbellsOnlyCount : Prop :=
  ∀ (x : Half) (fn value width : Nat) (ds : List Desc) (s : State), fn < 16 →
    (width ≠ 4 →
      exec (.cmdPiDoorbell x fn value width ds) s = .next (s.modHalf x fun y => y.ringError fn 0) ∧
      exec (.cplCiDoorbell x fn value width) s = .next (s.modHalf x fun y => y.ringError fn 1) ∧
      exec (.evtCiDoorbell x fn value width) s = .next (s.modHalf x fun y => y.ringError fn 2) ∧
      exec (.tblPiDoorbell x 0 value width ds) s = .next (s.modHalf x fun y => y.ringError 0 3)) ∧
    (0 < fn → exec (.tblPiDoorbell x fn value width ds) s = .next s)

/-- On the half that holds the helm a producer doorbell that covers one new descriptor makes the command or table ring
take it, in the running module: the count goes up by one and the command is among those taken (R482, R483). -/
def Sys2Proof.Claims.DoorbellTakesTheNextDescriptor : Prop :=
  ∀ (x : Half) (fn r : Nat) (d : Desc) (s : State), fn < 16 → (r = 0 ∨ (r = 3 ∧ fn = 0)) → s.holder = some x →
    s.phase = .running → (s.half x).helm.handover = none → (s.img x).ringEn fn r = true →
    (((s.img x).fnSt fn).ring r).stalled = false → (((s.img x).fnSt fn).ring r).waiting = [] →
    (((s.img x).fnSt fn).ring r).retryAt = none → (((s.img x).fnSt fn).ring r).count < 2 ^ 32 - 1 →
    ((s.img x).fnSt fn).tbl.waiting = [] → ((s.img x).fnSt fn).cmd.waiting = [] →
    (s.img x).cplRoom fn = true → d.dmaOk = true →
    d.phase = phaseOf (((s.img x).fnSt fn).ring r).count ((s.img x).ringSize fn r) →
    ∃ t, (if r = 0 then exec (.cmdPiDoorbell x fn ((((s.img x).fnSt fn).ring r).count + 1) 4 [d]) s
          else exec (.tblPiDoorbell x fn ((((s.img x).fnSt fn).ring r).count + 1) 4 [d]) s) = .next t ∧
      (((t.img x).fnSt fn).ring r).count = (((s.img x).fnSt fn).ring r).count + 1 ∧
      (((t.img x).fnSt fn).ring r).waiting = [] ∧
      ((t.img x).fnSt fn).taken = ((s.img x).fnSt fn).taken ++
        [{ table := decide (r = 3), pos := (((s.img x).fnSt fn).ring r).count, tag := d.tag, op := d.opcode }] ∧
      t.half x.other = s.half x.other ∧ t.flash = s.flash ∧ t.tam = s.tam ∧ t.board = s.board ∧ t.out = s.out ∧
      t.host = s.host ∧ t.rings = s.rings ∧ (t.img x).keys = (s.img x).keys ∧ (t.img x).regs = (s.img x).regs

/-- A descriptor whose PHASE does not match is read again for 2 µs, and then its ring stalls with cause PHASE and a
RING_ERROR is posted (R482). -/
def Sys2Proof.Claims.PhaseMismatchStallsAfterTwoMicroseconds : Prop :=
  ∀ (x : Half) (fn : Nat) (table : Bool) (t0 : Nat) (s : State), fn < 16 → (table = true → fn = 0) →
    s.holder = some x → (((s.img x).fnSt fn).ring (if table then 3 else 0)).retryAt = some t0 →
    (t0 + 2000 ≤ s.now → exec (.phaseRetryExpire fn table) s = .next
      ((s.modImg x fun im => im.modRing fn (if table then 3 else 0) fun g =>
        { g with stalled := true, cause := 1, retryAt := none }).post x .command 0x0D0D
          [(1, fn), (1, if table then 3 else 0), (1, 1), (1, 0)] (.fn fn))) ∧
    (s.now < t0 + 2000 → exec (.phaseRetryExpire fn table) s = .next s)

/-- A consumer doorbell on the half that holds the helm frees the entries it reports, and an older or impossible count is
ignored (R479, R485). -/
def Sys2Proof.Claims.ConsumerDoorbellsFreeEntries : Prop :=
  ∀ (x : Half) (fn n : Nat) (s : State), fn < 16 → s.holder = some x → (s.img x).ringEn fn 1 = true →
    (s.img x).ringEn fn 2 = true → n < 2 ^ 32 →
    ((((s.img x).fnSt fn).cpl.db ≤ n ∧ n ≤ ((s.img x).fnSt fn).cpl.count) →
      exec (.cplCiDoorbell x fn n 4) s =
        .next ((s.modImg x fun im => im.modRing fn 1 fun g => { g with db := n }).takeAll x fn)) ∧
    ((((s.img x).fnSt fn).evt.db ≤ n ∧ n ≤ ((s.img x).fnSt fn).evt.count) →
      exec (.evtCiDoorbell x fn n 4) s =
        .next ((s.modImg x fun im => im.modRing fn 2 fun g => { g with db := n }).evtRoom x fn)) ∧
    ((((s.img x).fnSt fn).cpl.db ≤ ((s.img x).fnSt fn).cpl.count ∧ ((s.img x).fnSt fn).cpl.count < n) →
      exec (.cplCiDoorbell x fn n 4) s = .next s) ∧
    ((((s.img x).fnSt fn).evt.db ≤ ((s.img x).fnSt fn).evt.count ∧ ((s.img x).fnSt fn).evt.count < n) →
      exec (.evtCiDoorbell x fn n 4) s = .next s)

/-- A doorbell rung on a standby whose ferry link is up is forwarded and counted; one that the link cannot carry is
counted as unsent (R492, R493). -/
def Sys2Proof.Claims.StandbyForwardsDoorbells : Prop :=
  ∀ (x : Half) (fn n : Nat) (s : State), fn < 16 → s.holder ≠ some x → n < 2 ^ 32 →
    ((s.half x).helm.st = .inStep ∨ (s.half x).helm.st = .out) →
    ((s.half x).ferryUp = true → exec (.cplCiDoorbell x fn n 4) s = .next (s.modHalf x fun y =>
      { y with dbFwd := y.dbFwd ++ [{ fn, ring := 1, value := n, descs := [] }],
               dbFwdCnt := tabSet 0 y.dbFwdCnt fn (min 65535 (tabGet 0 y.dbFwdCnt fn + 1)) })) ∧
    ((s.half x).ferryUp = false → exec (.cplCiDoorbell x fn n 4) s = .next (s.modHalf x fun y =>
      { y with dbUnsent := tabSet 0 y.dbUnsent fn (min 65535 (tabGet 0 y.dbUnsent fn + 1)) }))

/-! ## Set-up registers -/

/-- Each field of a set-up register follows its access type at an accepted write (R14): RW takes the written value, W1S
sets, W1C clears, WO keeps 0, and bits of no field stay 0; and no two fields of a register overlap. -/
def Obligations.FieldsFollowTheirAccessTypes : Prop :=
  ∀ (r : RegSpec) (f : RField) (old w : Word), r ∈ regMap → f ∈ r.flds →
    (f.acc = .rw → bits (r.apply old w) f.hi f.lo = bits w f.hi f.lo) ∧
    (f.acc = .w1s → bits (r.apply old w) f.hi f.lo = bits old f.hi f.lo ||| bits w f.hi f.lo) ∧
    (f.acc = .w1c → bits (r.apply old w) f.hi f.lo =
      bits old f.hi f.lo &&& (2 ^ (f.hi + 1 - f.lo) - 1 - bits w f.hi f.lo)) ∧
    (f.acc = .wo → bits (r.apply old w) f.hi f.lo = 0) ∧
    (∀ i, i < 32 → (∀ g ∈ r.flds, i < g.lo ∨ g.hi < i) → bit (r.apply old w) i = false) ∧
    (∀ g ∈ r.flds, g = f ∨ g.hi < f.lo ∨ f.hi < g.lo)

/-- A write of a paired register through the half that holds the helm keeps to R42 and to the register's own rule: a value
out of range, or one that the rule refuses, leaves everything as it was; otherwise the fields take the written values, the
count of paired writes goes up, and nothing else changes where the register sets nothing going. -/
def Sys2Proof.Claims.PairedWritesKeepTheirRules : Prop :=
  ∀ (x : Half) (fn off : Nat) (w : Word) (s : State) (r : RegSpec), fn < 16 → reaches fn off = true →
    regSpecOf off = some r → r.home = .paired → s.holder = some x →
    (r.inRange w = false → exec (.registerWrite x fn off w) s = .next s) ∧
    ((s.half x).accepts fn r.base off ((s.img x).reg fn off) (r.apply ((s.img x).reg fn off) w) = false →
      exec (.registerWrite x fn off w) s = .next s) ∧
    (r.inRange w = true →
      (s.half x).accepts fn r.base off ((s.img x).reg fn off) (r.apply ((s.img x).reg fn off) w) = true →
      r.base ∉ [0x100108, 0x200008, 0x20000C, 0x201000, 0x201004, 0x300004, 0x300100, 0x400000, 0x600000, 0x600204,
        0xC00000] →
      exec (.registerWrite x fn off w) s = .next (wrote s x fn off w (r.apply ((s.img x).reg fn off) w)))

/-- A register of one half is written in that half alone, helm or not, and only by a value in range (R42); no function
writes an address that holds no register, or one that it does not reach (R41, R478). -/
def Sys2Proof.Claims.OwnRegistersStayInTheirHalf : Prop :=
  ∀ (x : Half) (fn off : Nat) (w : Word) (s : State), fn < 16 →
    (regSpecOf off = none → exec (.registerWrite x fn off w) s = .next s) ∧
    (reaches fn off = false → exec (.registerWrite x fn off w) s = .next s) ∧
    ∀ r, regSpecOf off = some r → r.home = .half → reaches fn off = true →
      r.base ∉ [0x304, 0x1000000, 0x1000004] →
      (r.inRange w = false → exec (.registerWrite x fn off w) s = .next s) ∧
      (r.inRange w = true →
        (s.half x).accepts fn r.base off ((s.half x).reg fn off) (r.apply ((s.half x).reg fn off) w) = true →
        exec (.registerWrite x fn off w) s =
          .next (s.modHalf x fun y => y.setReg fn off (r.apply (y.reg fn off) w)))

/-- Writes that give a row of its own are ignored through a half that does not hold the helm and, the ring registers
apart, through a virtual function (R41, R50). -/
def Sys2Proof.Claims.ModeWritesNeedTheHelm : Prop :=
  ∀ (w : Word) (n : Nat),
    IgnoredElsewhere (.cageModeWrite · · w) ∧ IgnoredElsewhere (.cageSplitWrite · · w) ∧
    IgnoredElsewhere (.clientModeWrite · · w) ∧ (n < 64 → IgnoredElsewhere (.lanePwrWrite · · n w)) ∧
    (n < 16 → IgnoredElsewhere (.groupEnableWrite · · n w)) ∧ (n < 16 → IgnoredElsewhere (.groupRetime · · n w)) ∧
    (n < 32 → IgnoredElsewhere (.tribEnable · · n w)) ∧ (n < 32 → IgnoredElsewhere (.tribDisable · · n w)) ∧
    (n < 32 → IgnoredElsewhere (.pktPortEnable · · n w)) ∧ IgnoredElsewhere (.xpnThreshHiWrite · · w) ∧
    IgnoredElsewhere (.tmpLatchClear · · w) ∧ IgnoredElsewhere (.tmpLockSet · · w) ∧
    (n < 8 → IgnoredElsewhere (.cagePowerEnWrite · · n w))

/-- The mode of a line cage changes exactly when each of its lanes stands in DEEP with PWR 0 (R45); otherwise the write
changes nothing.  The split and the client modes change under R48 and R49, and the client PCS of the lanes concerned
restarts. -/
def Sys2Proof.Claims.CageAndPortModesChange : Prop :=
  ∀ (x : Half) (w old : Word) (s : State), s.holder = some x →
    (old = (s.img x).reg 0 0x200000 →
      ((∀ k, k < 4 → bits old k k = bits w k k ∨ ∀ i, i < 8 → (s.half x).laneDeep (32 + 8 * k + i) = true) →
        exec (.cageModeWrite x 0 w) s = .next (wrote s x 0 0x200000 w (newWord 0x200000 old w))) ∧
      (∀ k i, k < 4 → i < 8 → bits old k k ≠ bits w k k → (s.half x).laneDeep (32 + 8 * k + i) = false →
        exec (.cageModeWrite x 0 w) s = .next s)) ∧
    (old = (s.img x).reg 0 0x200008 → (s.img x).acceptSplit old (newWord 0x200008 old w) = true →
      exec (.cageSplitWrite x 0 w) s = .next ((wrote s x 0 0x200008 w (newWord 0x200008 old w)).modHalf x fun y =>
        y.restartPcs fun n => decide (bits old (2 * (n / 8) + 1) (2 * (n / 8)) ≠ bits w (2 * (n / 8) + 1) (2 * (n / 8))))) ∧
    (old = (s.img x).reg 0 0x20000C → (s.img x).acceptModes old (newWord 0x20000C old w) = true →
      exec (.clientModeWrite x 0 w) s = .next ((wrote s x 0 0x20000C w (newWord 0x20000C old w)).modHalf x fun y =>
        y.restartPcs fun n => decide (bits old n n ≠ bits w n n)))

/-- A write of LNE_LANE_CFG in range starts the power moves that the new words ask for (R61).  EN of a group that R96
admits builds its deskew set, and RETIME rebuilds it from scratch (R96, R99).  PWR 3, PATTERN 3 and a DEG_EXP outside 5 to
9 are out of range (R42). -/
def Sys2Proof.Claims.LaneAndGroupWritesTakeEffect : Prop :=
  ∀ (x : Half) (n : Nat) (w : Word) (s : State), s.holder = some x →
    (n < 64 → bits w 1 0 ≤ 2 → bits w 5 4 ≤ 2 →
      exec (.lanePwrWrite x 0 n w) s = .next ((rewrote s x (0x201000 + 0x10 * n) w).aimLanes x)) ∧
    (n < 64 → (bits w 1 0 = 3 ∨ bits w 5 4 = 3) → exec (.lanePwrWrite x 0 n w) s = .next s) ∧
    (n < 16 → bit w 31 = true → (s.img x).groupEn n = true → 5 ≤ bits w 11 8 → bits w 11 8 ≤ 9 →
      exec (.groupRetime x 0 n w) s = .next
        (((rewrote s x (0x300100 + 0x10 * n) (setBits w 30 30 1)).rebuildSet x n true).noteAll x)) ∧
    (n < 16 → bit w 31 = true → (s.img x).groupEn n = false → 5 ≤ bits w 11 8 → bits w 11 8 ≤ 9 →
      ((s.img x).acceptGroupEn n = true → exec (.groupEnableWrite x 0 n w) s = .next
        ((((rewrote s x (0x300100 + 0x10 * n) w).modHalf x fun y => (y.setGrp n { shown := (y.grp n).shown }).updLids).rebuildSet
          x n true).noteAll x)) ∧
      ((s.img x).acceptGroupEn n = false → exec (.groupEnableWrite x 0 n w) s = .next s)) ∧
    (n < 16 → (bits w 11 8 < 5 ∨ 9 < bits w 11 8) → exec (.groupEnableWrite x 0 n w) s = .next s)

/-- Setting EN of a tributary that R119 admits starts its CFC at 0 and both sides' pointers afresh, and a key change if a
key is bound (R114, R126, R161); clearing it erases both associations and releases any force (R563, R138).  The fields
that R119 freezes stay as they are while EN is 1. -/
def Sys2Proof.Claims.TributaryEnableAndDisable : Prop :=
  ∀ (x : Half) (t : Nat) (w old on off : Word) (s : State), s.holder = some x → t < 32 → 5 ≤ bits w 11 8 →
    bits w 11 8 ≤ 9 → old = (s.img x).reg 0 (tribCfgOff t) → on = setBits w 31 31 1 → off = setBits w 31 31 0 →
    ((s.img x).tribEn t = false →
      ((s.img x).acceptTribEn t (newWord (tribCfgOff t) old on) = true →
        exec (.tribEnable x 0 t w) s = .next ((((((rewrote s x (tribCfgOff t) on).modImg x fun im =>
          { im with cfc := tabSet 0 im.cfc t 0, alt := tabDel (tabDel im.alt (2 * t)) (2 * t + 1),
                    pubLat := tabSet none im.pubLat t none }).noteLatency x 0).keyChangeIfBound x t).modHalf x fun y =>
            y.startTrib t).noteAll x)) ∧
      ((s.img x).acceptTribEn t (newWord (tribCfgOff t) old on) = false → exec (.tribEnable x 0 t w) s = .next s)) ∧
    ((s.img x).tribEn t = true →
      (bits w 30 26 = bits old 30 26 → exec (.tribDisable x 0 t w) s =
        .next ((((rewrote s x (tribCfgOff t) off).eraseAssoc x t).modImg x fun im =>
          { im with forced := tabDel (tabDel im.forced (2 * t)) (2 * t + 1) }).modHalf x fun y => y.stopTrib t)) ∧
      (bits w 30 26 ≠ bits old 30 26 → exec (.tribDisable x 0 t w) s = .next s))

/-- EN makes a line port of a packet-mode cage a SecY (R203); the XPN threshold takes effect at the write of its high word
(R204). -/
def Sys2Proof.Claims.SecyPortAndThresholdWrites : Prop :=
  ∀ (x : Half) (p : Nat) (w : Word) (s : State), s.holder = some x →
    (p < 32 → (s.img x).portEn p = false → bit w 31 = true → bits w 25 24 ≤ 2 → 1518 ≤ bits w 14 0 →
      bits w 14 0 ≤ 16384 →
      ((s.img x).pktLine p = true → exec (.pktPortEnable x 0 p w) s = .next
        ((rewrote s x (pktOff p) w).modHalf x fun y =>
          { y with preempt := tabSet 0 y.preempt p (if bit w 28 then 1 else 0) })) ∧
      ((s.img x).pktLine p = false → exec (.pktPortEnable x 0 p w) s = .next s)) ∧
    (w ≠ 0 → exec (.xpnThreshHiWrite x 0 w) s = .next ((rewrote s x 0x600204 w).modImg x fun im =>
      { im with xpnThresh := w.toNat * 2 ^ 32 + (im.reg 0 0x600200).toNat })) ∧
    exec (.xpnThreshHiWrite x 0 0) s = .next s

/-- Writing 1 to the latch of a tamper source clears it unless the source is still in alarm (R461).  LOCK, once set,
freezes the maps and MESH_DRIVEN, and no write clears it (R459). -/
def Sys2Proof.Claims.TamperLatchesAndLock : Prop :=
  ∀ (x : Half) (w old : Word) (s : State), s.holder = some x → old = s.modReg 0xF0000C →
    exec (.tmpLatchClear x 0 w) s = .next
      { s with tam := { s.tam with latched := s.tam.latched.filter fun src => s.tam.inAlarm.contains src || !bit w src } } ∧
    (bit old 31 = false → exec (.tmpLockSet x 0 w) s =
      .next (s.setModReg 0xF0000C (newWord 0xF0000C old (setBits w 31 31 1)))) ∧
    bit (newWord 0xF0000C old (setBits w 31 31 1)) 31 = true ∧
    (bit old 31 = true → bits w 7 0 ≠ bits old 7 0 → exec (.tmpLockSet x 0 w) s = .next s) ∧
    (bit old 31 = true → bit (newWord 0xF0000C old w) 31 = true ∧
      ∀ n, n < 21 → exec (.registerWrite x 0 (0xF00100 + 4 * n) w) s = .next s)

/-- POWER_EN powers a cage that holds an optical module, unpowers it, and its return to 1 clears a fault (R523, R524); a
budget below 8 W or above 30 W is out of range (R42). -/
def Sys2Proof.Claims.CagePowerWrites : Prop :=
  ∀ (x : Half) (c off : Nat) (w : Word) (s : State), s.holder = some x → c < 8 → off = 0x1100100 + 8 * c →
    ((bits w 4 0 < 8 ∨ 30 < bits w 4 0) → exec (.cagePowerEnWrite x 0 c w) s = .next s) ∧
    (8 ≤ bits w 4 0 → bits w 4 0 ≤ 30 → bit w 31 = false →
      exec (.cagePowerEnWrite x 0 c w) s = .next ((s.setModReg off (newWord off (s.modReg off) w)).setCage c
        { s.cage c with powered := false, ready := false, powerQ := 0 })) ∧
    (8 ≤ bits w 4 0 → bits w 4 0 ≤ 30 → bit w 31 = true → bit (s.modReg off) 31 = false → s.board.power = .on →
      (s.cage c).present = true →
      ∃ t, exec (.cagePowerEnWrite x 0 c w) s = .next t ∧ t.cage c = { s.cage c with fault := false, powered := true } ∧
        (∀ d, d ≠ c → t.cage d = s.cage d) ∧ t.modReg off = newWord off (s.modReg off) w ∧
        { t with board := s.board, modRegs := s.modRegs } = s)

/-- EN 1 enables a ring with both counts 0 and no stall (R480): for a command or table ring nothing else happens; EN 0
stops a ring at once (R486).  SIZE cannot change while EN is 1, stands between 6 and 16, and a virtual function has
vectors 0 to 3. -/
def Sys2Proof.Claims.RingsEnableEmpty : Prop :=
  ∀ (x : Half) (fn r off : Nat) (w : Word) (s : State), s.holder = some x → fn < 16 → (r < 3 ∨ (r = 3 ∧ fn = 0)) →
    off = ringCfgOff r → (fn = 0 ∨ bits w 12 10 ≤ 3) →
    ((bits w 20 16 < 6 ∨ 16 < bits w 20 16) →
      exec (.ringEnable x fn r w) s = .next s ∧ exec (.ringDisable x fn r w) s = .next s) ∧
    (6 ≤ bits w 20 16 → bits w 20 16 ≤ 16 → (s.img x).ringEn fn r = false →
      exec (.ringEnable x fn r w) s = .next
        ((wrote s x fn off (setBits w 31 31 1) (newWord off ((s.img x).reg fn off) (setBits w 31 31 1))).ringOn x fn r)) ∧
    (6 ≤ bits w 20 16 → bits w 20 16 ≤ 16 → (s.img x).ringEn fn r = true →
      (bits ((s.img x).reg fn off) 20 16 = bits w 20 16 → exec (.ringDisable x fn r w) s = .next
        ((wrote s x fn off (setBits w 31 31 0) (newWord off ((s.img x).reg fn off) (setBits w 31 31 0))).modImg x fun im =>
          im.modRing fn r fun g => { g with waiting := [], retryAt := none })) ∧
      (bits ((s.img x).reg fn off) 20 16 ≠ bits w 20 16 → exec (.ringDisable x fn r w) s = .next s)) ∧
    (r = 0 ∨ r = 3 → s.ringOn x fn r = (s.clearDescs fn r).modImg x fun im => im.modRing fn r fun _ => {})

/-- A Function Level Reset on the half that holds the helm disables the function's four rings, discards its completions to
come and its held events (TAMPER_ALARM and BOOT apart), and touches no other function (R495); on the other link it changes nothing here. -/
def Sys2Proof.Claims.FunctionResetDisablesItsRings : Prop :=
  ∀ (x : Half) (fn : Nat) (s : State), fn < 16 →
    (s.holder ≠ some x → exec (.functionLevelReset x fn) s = .next s) ∧
    (s.holder = some x → ∃ t, exec (.functionLevelReset x fn) s = .next t ∧
      (∀ r, r < 4 → (t.img x).ringEn fn r = false ∧ (((t.img x).fnSt fn).ring r).waiting = []) ∧
      ((t.img x).fnSt fn).discard = ((s.img x).fnSt fn).discard ++ ((s.img x).fnSt fn).taken ∧
      ((t.img x).fnSt fn).held = ((s.img x).fnSt fn).held.filter Numbered.kept ∧
      (∀ g, g < 16 → g ≠ fn → (t.img x).fnSt g = (s.img x).fnSt g ∧
        ∀ off, off < 0x10000000 → (t.img x).reg g off = (s.img x).reg g off) ∧
      t.half x.other = s.half x.other ∧ t.flash = s.flash ∧ t.tam = s.tam ∧ t.board = s.board ∧ t.out = s.out ∧
      t.rings = s.rings ∧ t.host = s.host ∧ (t.img x).keys = (s.img x).keys)

/-! ## Scheduled commands -/

namespace Sys2Proof.Claims

/-- The command stands armed in a free entry of the scheduled action table, late if its instant is not after the time
base, and nothing else has changed (R385, R386). -/
def Armed (s : State) (x : Half) (h : Hdr) (op tb : Nat) (at_ : TimeVal) (act : SchedAct) (t : State) : Prop :=
  ∃ i, i < 256 ∧ (s.img x).schedAt i = none ∧
    t = { s with fv := s.fv + 1 }.modImg x fun im =>
      { im with armed := im.armed + 1, sched := tabSet none im.sched i (some
        { cmd := some (cmdOf h op), fn := h.fn, op, tb, at_, first := at_, period := 0, act, mark := im.seq,
          order := im.armed, late := decide (tvUnits at_ ≤ tvUnits ((s.half x).tb tb).value) }) }

/-- Everything outside half `x` is as it was. -/
def Within (x : Half) (s t : State) : Prop := t = s.setHalf x (t.half x)

/-- The completion of a command is the last post of the half that executes it. -/
def Completed (t : State) (x : Half) (h : Hdr) (op status : Nat) (result : List Fld) : Prop :=
  (t.half x).queue.getLast? = some (.command, .cpl
    { op, fn := h.fn, table := h.table, half := x, status, tag := h.tag, pos := h.pos, cflags := 0, result })

end Sys2Proof.Claims

/-- A command that names a valid time base and an instant, with room in the scheduled action table, is armed in a free
entry and does nothing else yet (R385, R386): TRIB_SWITCH, TRIB_KEY_STEP, and the scheduled forms of SECY_SA_ACTIVATE,
SHAPER_SET and HELM_HANDOVER. -/
def Sys2Proof.Claims.ScheduledCommandsAreArmed : Prop :=
  ∀ (x : Half) (h : Hdr) (tb : Nat) (at_ : Instant) (s : State), tb < 4 → instantOk at_ = true →
    ((s.half x).tb tb).valid = true → (s.img x).schedFull h.fn 1 = false →
    (∀ t side alt, Executes s h 0x0A40 x → h.fn = 0 → (s.img x).switchOk t side alt = true →
      ∃ u, exec (.tribSwitch h t side alt tb at_) s = .next u ∧ Armed s x h 0x0A40 tb at_.time (.switch t side alt) u) ∧
    (∀ t, Executes s h 0x0A51 x → t < 32 → serves h.fn ((s.img x).tribDomain t) = true →
      ((s.img x).txA t).bound ≠ none →
      ∃ u, exec (.tribKeyStep h t tb at_) s = .next u ∧ Armed s x h 0x0A51 tb at_.time (.keyStep t) u) ∧
    (∀ sc an, Executes s h 0x0B04 x → (s.img x).scOpen h.fn .tx sc = true → an < 4 →
      ((s.img x).sa .tx sc an).inst = true → (s.img x).scMka .tx sc = false →
      ∃ u, exec (.secySaActivate h sc an (.scheduled tb at_)) s = .next u ∧
        Armed s x h 0x0B04 tb at_.time (.activate sc an) u) ∧
    (∀ a, Executes s h 0x0501 x → a.w = .scheduled tb at_ → (s.img x).shaperOwner h.fn a.kind a.index = true →
      a.index < shaperCount a.kind → 1 ≤ a.rate → a.rate ≤ 1600000 → a.burst ≤ 16777215 →
      ∃ u, exec (.shaperSet h a) s = .next u ∧ Armed s x h 0x0501 tb at_.time (.shaper a) u) ∧
    (Executes s h 0x0701 x → h.fn = 0 →
      ∃ u, exec (.helmHandover h (.scheduled tb at_) 0) s = .next u ∧ Armed s x h 0x0701 tb at_.time (.drill 0) u)

/-- An armed entry that its time base has reached, or a late one, fires in the order of R388: it is freed (a periodic one
is armed again), it acts, and a standby in step follows it without posting; a shaper change is then in force or waits for
a refill tick, and its command completes, DONE_LATE when it was late.  An entry that is not due stays, and so does every
entry while the table's usher FIFO is full (R36). -/
def Sys2Proof.Claims.DueEntriesFire : Prop :=
  ∀ (x : Half) (i : Nat) (e : Sched) (s : State), i < 256 → s.holder = some x → (s.img x).schedAt i = some e →
    ((s.half x).due e = true → (s.half x).firstDue e = true → (s.half x).srcFull .sched = false →
      exec (.schedFire i) s = .next (s.fire x i e false)) ∧
    ((s.half x).due e = false → exec (.schedFire i) s = .next s) ∧
    (e.late = true → (∀ p ∈ (s.img x).sched, ∀ v, p.2 = some v → v.late = true → v.tb = e.tb → e.order ≤ v.order) →
      (s.half x).srcFull .sched = false → exec (.schedLateFire i) s = .next (s.fire x i e true)) ∧
    (e.late = false → exec (.schedLateFire i) s = .next s) ∧
    ((s.half x).srcFull .sched = true → exec (.schedFire i) s = .next s ∧ exec (.schedLateFire i) s = .next s) ∧
    (e.period = 0 → ∀ a late, e.act = .shaper a → (s.half x.other).helm.st ≠ .inStep →
      s.fire x i e late = ((s.unarm x i).setShaper x a).firedCpl x e.cmd late stDone)

/-- SCHED_CANCEL frees an armed entry, completes its command with ABORTED and CANCELLED, and completes itself with DONE;
an entry that is free is REJECTED_ARGS (R392).  SCHED_LIST writes the armed entries (R388). -/
def Sys2Proof.Claims.ScheduleIsListedAndCancelled : Prop :=
  ∀ (x : Half) (h : Hdr) (i : Nat) (s : State), h.fn = 0 →
    (Executes s h 0x0305 x → i < 256 → ∀ e c, (s.img x).schedAt i = some e → e.cmd = some c →
      exec (.schedCancel h i) s = .next (((s.unarm x i).postCpl x c stAborted cfCancelled []).done x h 0x0305)) ∧
    (Executes s h 0x0305 x → (s.img x).schedAt i = none →
      exec (.schedCancel h i) s = .next (s.postCpl x (cmdOf h 0x0305) stArgs 0 [])) ∧
    (Executes s h 0x0304 x → ∀ addr cap, (s.img x).sched = [] →
      exec (.schedList h addr cap) s = .next (s.reply x h 0x0304 [(2, 0)] addr [])) ∧
    (Executes s h 0x0304 x → ∀ addr cap j e, 1 ≤ cap → (s.img x).sched = [(j, some e)] →
      exec (.schedList h addr cap) s = .next (s.reply x h 0x0304 [(2, 1)] addr (schedRec j e))) ∧
    (Executes s h 0x0304 x → ∀ addr j e, (s.img x).sched = [(j, some e)] →
      exec (.schedList h addr 0) s = .next (s.waitActed x
        { cmd := cmdOf h 0x0304, on := .dma, status := stNoRes, cflags := 0, result := [], area := some (addr, []),
          cont := .finish }))

/-! ## Tributaries and the causeway cipher -/

/-- TRIB_FORCE sets or releases the forced condition of one direction of an enabled tributary and completes with DONE;
the substitute is REJECTED_ARGS on a pass-through tributary, as is every force on a tributary that is not enabled
(R138, Table 04.10). -/
def Sys2Proof.Claims.ForcesHoldUntilReleased : Prop :=
  ∀ (x : Half) (h : Hdr) (t : Nat) (dir : Dir) (act : ForceAct) (s : State), Executes s h 0x0A41 x → h.fn = 0 → t < 32 →
    ((s.img x).tribEn t = true → (act = .substitute → (s.img x).tribPass t = false) →
      exec (.tribForce h t dir act) s = .next (((s.modImg x fun im =>
        { im with forced := tabSet 0 im.forced (2 * t + dir.idx)
                    (match act with | .release => 0 | .ais => 1 | .substitute => 2) }).lineChanged x (s.half x)).done
        x h 0x0A41)) ∧
    ((s.img x).tribEn t = false ∨ (act = .substitute ∧ (s.img x).tribPass t = true) →
      exec (.tribForce h t dir act) s = .next (s.postCpl x (cmdOf h 0x0A41) stArgs 0 []))

/-- TRIB_CIPHER_BIND binds a LIVE, resident landing-4 association key to an enabled terminating tributary of its domain
and starts the first key change: the key is pinned, an epoch of a fresh block is STAGED and KEY_NEXT waits for the message channel (R164, R143, R117);
a key bound already completes with ALREADY; a key not resident is loaded first. -/
def Sys2Proof.Claims.BindStartsTheFirstKeyChange : Prop :=
  ∀ (x : Half) (h : Hdr) (t k : Nat) (s : State), Executes s h 0x0A50 x → (s.img x).termTrib t = true →
    serves h.fn ((s.img x).tribDomain t) = true → hLanding k = 4 → hDomain k = (s.img x).tribDomain t →
    (((s.img x).txA t).bound = some k →
      exec (.tribCipherBind h t k) s = .next (s.postCpl x (cmdOf h 0x0A50) stDone cfAlready [])) ∧
    (((s.img x).txA t).bound = none → ((s.img x).key k).st = 1 → ((s.img x).key k).kind = 5 →
      ((s.img x).txA t).st = .noKey → ((s.img x).txA t).slots = [{}, {}, {}, {}] →
      (((s.img x).key k).pinned = true ∨ (s.img x).pinned4 < 2048) →
      tabGet 0 s.flash.epochBlk (epochResKey ((s.img x).key k).serial t) < 2 ^ 28 - 1 →
      (((s.img x).key k).resident = true → ∃ u e wk, exec (.tribCipherBind h t k) s = .next u ∧
        e = 16 * tabGet 0 s.flash.epochBlk (epochResKey ((s.img x).key k).serial t) + 1 ∧
        wk = epochKey ((s.img x).key k).key t e s.member ∧
        ((u.img x).txA t).bound = some k ∧ ((u.img x).txA t).st = .announced ∧
        ((u.img x).txA t).s0 = { st := 1, epoch := e, key := wk, salt := epochSalt ((s.img x).key k).key t e s.member } ∧
        ((u.img x).key k).pinned = true ∧
        u.out = s.out ∧ ((u.half x).trib t).tmcTx = ((s.half x).trib t).tmcTx ++
          segmentsOf 48 (keyChangeBytes 0x11 e (epochKcv wk e) ((s.img x).spanKib t * 65536 + s.member)) ∧
        tabGet 0 u.flash.epochBlk (epochResKey ((s.img x).key k).serial t) =
          tabGet 0 s.flash.epochBlk (epochResKey ((s.img x).key k).serial t) + 1 ∧
        Completed u x h 0x0A50 stDone [] ∧ u.half x.other = s.half x.other ∧ u.tam = s.tam ∧ u.board = s.board ∧
        u.host = s.host ∧ u.rings = s.rings ∧ (u.img x).regs = (s.img x).regs ∧ (u.img x).rx = (s.img x).rx) ∧
      (((s.img x).key k).resident = false → exec (.tribCipherBind h t k) s = .next (s.loadFor x k
        { cmd := cmdOf h 0x0A50, on := .load k, status := stDone, cflags := 0, result := [], area := none,
          cont := .bind t k })))

/-- TRIB_CIPHER_UNBIND erases every slot of both associations and unbinds the key (R563): both are empty, the transmit
association is in NO_KEY, no other tributary's association changes, and the command completes with DONE. -/
def Sys2Proof.Claims.UnbindErasesEverySlot : Prop :=
  ∀ (x : Half) (h : Hdr) (t : Nat) (s : State), Executes s h 0x0A52 x → t < 32 → (s.img x).tribPass t = false →
    serves h.fn ((s.img x).tribDomain t) = true →
    ∃ u, exec (.tribCipherUnbind h t) s = .next u ∧ ((u.img x).txA t).bound = none ∧ ((u.img x).txA t).st = .noKey ∧
      ((u.img x).txA t).slots = [{}, {}, {}, {}] ∧ ((u.img x).rxA t).slots = [{}, {}, {}, {}] ∧
      (∀ r, r ≠ t → (u.img x).txA r = (s.img x).txA r ∧ (u.img x).rxA r = (s.img x).rxA r) ∧
      Completed u x h 0x0A52 stDone [] ∧ Within x s u ∧ (u.img x).regs = (s.img x).regs ∧
      (u.img x).sched = (s.img x).sched ∧ (u.half x).sides = (s.half x).sides ∧ (u.half x).tribs = (s.half x).tribs

/-- The transmit association follows Table 05.8 and the receive association R162.  KEY_READY, with the epoch and KCV of
the staged slot, makes it ready; at a container multiframe boundary it becomes CURRENT and the former CURRENT slot OLD;
KEY_CONFIRM for the CURRENT epoch is noted; 8 multiframes after the switch the OLD slot is erased; after CONFIRM_TO of
them without KEY_CONFIRM the OLD slot is CURRENT again.  An unanswered KEY_NEXT goes out again after 8. -/
def Sys2Proof.Claims.TransmitAssociationFollowsItsTable : Prop :=
  ∀ (x : Half) (t : Nat) (a : TxAssoc) (s : State), s.holder = some x → t < 32 → a = (s.img x).txA t →
    (∀ k, a.inSt 1 = some k → a.st = .announced →
      exec (.keyReadyRx t k.epoch (epochKcv k.key k.epoch)) s =
        .next (s.modImg x fun im => im.setTx t { a with ready := true }) ∧
      (∀ kcv, kcv ≠ epochKcv k.key k.epoch → exec (.keyReadyRx t k.epoch kcv) s = .next s) ∧
      (8 ≤ a.mfNext → a.ready = false → exec (.keyNextResend t) s =
        .next ((s.modImg x fun im => im.setTx t { a with mfNext := 0 }).sendTmc x t 0x11 k.epoch
          (epochKcv k.key k.epoch) ((s.img x).spanKib t * 65536 + s.member))) ∧
      (a.ready = true → tabGet 0 (s.img x).cfc t % 256 = 0 → ∃ u, exec (.epochSwitch t) s = .next u ∧
        ((u.img x).txA t).slots = a.slots.map (fun v => if v.st = 2 then { v with st := 3 }
          else if v.st = 1 then { v with st := 2 } else v) ∧
        ((u.img x).txA t).st = (if a.inSt 2 = none then .run else .switched) ∧ ((u.img x).txA t).confirmed = false ∧
        Within x s u) ∧
      (∀ c, c ≠ 4 → exec (.keyRefuseRx t k.epoch c) s = .next ((s.postRefused x t 1 k.epoch c).modImg x fun im =>
        im.setTx t { a.mapSlots (eraseSt 1) with
          st := if (a.inSt 2).isSome then .run else .noKey, ready := false }))) ∧
    (∀ k c, c < 2 ^ 64 → a.inSt 2 = some k → a.st = .switched →
      exec (.keyConfirmRx t k.epoch c) s = .next (s.modImg x fun im => im.setTx t { a with confirmed := true })) ∧
    (∀ k, a.inSt 3 = some k → a.st = .switched →
      (a.confirmed = true → 8 ≤ a.mfSwitch → exec (.txKeyRetire t) s =
        .next ((s.modImg x fun im =>
          im.setTx t { a.mapSlots (eraseSt 3) with st := .run }).postRetired x t 0 k.epoch)) ∧
      (a.confirmed = false → (s.img x).confirmTo t ≤ a.mfSwitch → tabGet 0 (s.img x).cfc t % 256 = 0 →
        ∃ u, exec (.txKeyRevert t) s = .next u ∧ ((u.img x).txA t).st = .run ∧
          ((u.img x).txA t).slots = (a.slots.map (eraseSt 2)).map (fun v => if v.st = 3 then { v with st := 2 } else v) ∧
          Within x s u)) ∧
    (a.st = .run → 2 ^ (s.img x).spanExp ≤ a.spans → (s.img x).termTrib t = true → (s.img x).bindLive t = true →
      a.spent = false → exec (.spanCountRekey t) s = .next (s.startKeyChange x t))

/-- The receive association refuses a KEY_NEXT with the first cause that applies, in the order 3, 6, 1, 2, 4, 5, and posts
it (R162, Table 05.7); otherwise the epoch is derived into a slot as STAGED and KEY_READY leaves, and a repeat for a
staged epoch draws KEY_READY again.  KEY_CONFIRM goes out again every 8 container multiframes; an OLD slot is erased 8
after its successor first authenticated a span. -/
def Sys2Proof.Claims.ReceiveAssociationAnswers : Prop :=
  ∀ (x : Half) (t e n kcv m : Nat) (a : RxAssoc) (s : State), s.holder = some x → t < 32 → a = (s.img x).rxA t →
    (s.img x).termTrib t = true →
    (((s.img x).txA t).bound = none → exec (.keyNextRx t e n kcv m) s =
      .next ((s.postRefused x t 0 e 3).sendTmc x t 0x14 e 3 0)) ∧
    (∀ k, ((s.img x).txA t).bound = some k → ((s.img x).key k).st = 1 →
      (m = s.member → exec (.keyNextRx t e n kcv m) s = .next ((s.postRefused x t 0 e 6).sendTmc x t 0x14 e 6 0)) ∧
      (m ≠ s.member →
        (kcv ≠ epochKcv (epochKey ((s.img x).key k).key t e m) e → exec (.keyNextRx t e n kcv m) s =
          .next ((s.postRefused x t 0 e 1).sendTmc x t 0x14 e 1 0)) ∧
        (kcv = epochKcv (epochKey ((s.img x).key k).key t e m) e →
          (n ≠ (s.img x).spanKib t → exec (.keyNextRx t e n kcv m) s =
            .next ((s.postRefused x t 0 e 2).sendTmc x t 0x14 e 2 0)) ∧
          (n = (s.img x).spanKib t → (∃ v ∈ a.slots, v.st = 1 ∧ v.epoch = e) →
            exec (.keyNextRx t e n kcv m) s = .next (s.sendTmc x t 0x12 e kcv 0)) ∧
          (n = (s.img x).spanKib t → a.slots = [{}, {}, {}, {}] → a.highest < e →
            exec (.keyNextRx t e n kcv m) s = .next ((s.modImg x fun im => im.setRx t { a with
              s0 := { st := 1, epoch := e, key := epochKey ((s.img x).key k).key t e m,
                      salt := epochSalt ((s.img x).key k).key t e m }, highest := e,
              orphaned := false }).sendTmc x t 0x12 e kcv 0))))) ∧
    (∀ k, a.inSt 2 = some k → 8 ≤ a.mfConf → k.idle < 8 → exec (.keyConfirmResend t) s =
      .next ((s.modImg x fun im => im.setRx t { a with mfConf := 0 }).sendTmc x t 0x13 k.epoch a.liveCfc 0)) ∧
    (∀ k, a.inSt 3 = some k → 8 ≤ a.mfLive → exec (.rxKeyRetire t) s =
      .next ((s.modImg x fun im => im.setRx t (a.mapSlots (eraseSt 3))).postRetired x t 1 k.epoch))

/-- The oldest span of a tributary that waits for its verdict is judged (R154).  One that is neither broken nor failed is
authenticated: it is counted, the slot it selects keeps its position, a STAGED slot becomes LIVE and the LIVE one OLD, and
an active half then sends KEY_CONFIRM (R162).  Every other span is counted as broken or as failed, and changes no slot; in
verify-first mode the stream bits of each leave at the verdict (R155). -/
def Sys2Proof.Claims.SpansAreJudged : Prop :=
  ∀ (x : Half) (t : Nat) (v : RxSpan) (rest : List RxSpan) (blocks : List Blk66) (a : RxAssoc) (s : State), t < 32 →
    (s.half x).up = true → (s.img x).termTrib t = true → a = (s.img x).rxA t → ((s.half x).trib t).spans = v :: rest →
    ∃ u, exec (.spanVerdict x t blocks) s = .next u ∧ ((u.half x).trib t).spans = rest ∧
      u.half x.other = s.half x.other ∧ u.flash = s.flash ∧ (u.img x).tx = (s.img x).tx ∧
      (∀ r, r ≠ t → (u.img x).rxA r = (s.img x).rxA r) ∧
      (∃ o, u.out = s.out ++ (if (s.half x).delivers t && (s.img x).verifyFirst t && decide (s.obeyed = some x) then
        [Out.stream t v.bits] else []) ++ o) ∧
      (if (s.img x).spanFailed t v then
        u.img x = s.img x ∧ ((u.half x).trib t).tmcTx = ((s.half x).trib t).tmcTx ∧
        (s.isActive x = true → tabGet 0 (u.half x).stats (statKey 3 t (if v.broken then 2 else 1)) =
          (tabGet 0 (s.half x).stats (statKey 3 t (if v.broken then 2 else 1)) + 1) % 2 ^ 64)
      else
        (∀ j k, v.slot = some j → a.slots[j]? = some k → k.st ≠ 0 →
          ((u.img x).rxA t).slots[j]? = some
            { k with st := (if k.st = 1 then 2 else k.st), lastCfc := v.cfc0, lastQ := v.q0, authed := true, idle := 0 } ∧
          (∀ i w, i ≠ j → a.slots[i]? = some w → ((u.img x).rxA t).slots[i]? =
            some { w with st := if k.st = 1 ∧ w.st = 2 then 3 else w.st }) ∧
          ((u.half x).trib t).tmcTx = ((s.half x).trib t).tmcTx ++
            (if k.st = 1 ∧ s.isActive x = true then segmentsOf 48 (keyChangeBytes 0x13 k.epoch v.cfc0 0) else [])) ∧
        ((u.half x).trib t).failRun = 0 ∧
        (s.isActive x = true → tabGet 0 (u.half x).stats (statKey 3 t 0) =
          (tabGet 0 (s.half x).stats (statKey 3 t 0) + 1) % 2 ^ 64))

/-- A client ingress fault makes the mapper of an enabled terminating tributary send the substitute stream, until loss of
FEC alignment, loss of PCS lane alignment and loss of signal have all been clear for 1 ms (R110). -/
def Sys2Proof.Claims.ClientFaultsSubstitute : Prop :=
  ∀ (x : Half) (t : Nat) (s : State), t < 32 → (s.half x).up = true → (s.img x).termTrib t = true →
    (∀ fec pcs, (fec || pcs) = true → exec (.clientFault x { t, fec, pcs }) s = .next (s.modHalf x fun y =>
      y.setTrib t { y.trib t with fec, pcs, fault := true, faultAt := s.now })) ∧
    (∀ r, r = (s.half x).trib t → exec (.clientFault x { t, fec := false, pcs := false }) s = .next (s.modHalf x fun y =>
      y.setTrib t { r with fec := false, pcs := false,
                           faultAt := if r.fec || r.pcs then s.now else r.faultAt })) ∧
    ((s.half x).clientBad t = false → ((s.half x).trib t).faultAt + 1000000 ≤ s.now →
      exec (.clientFaultClear x t) s = .next (s.modHalf x fun y => y.setTrib t { y.trib t with fault := false })) ∧
    ((s.half x).clientBad t = true ∨ s.now < ((s.half x).trib t).faultAt + 1000000 →
      exec (.clientFaultClear x t) s = .next s)

/-! ## Secure channels and associations -/

/-- SECY_SC_CREATE takes a free index and gives the channel its settings (R202); with no index free it is NO_RESOURCE.
SECY_SC_DELETE erases the channel and its four SAs and no other channel; a channel that MKA manages is LOCKED. -/
def Sys2Proof.Claims.ChannelsAreCreatedAndDeleted : Prop :=
  ∀ (x : Half) (h : Hdr) (s : State),
    (∀ a n, n = (match a.dir with | .tx => (s.img x).scTx | .rx => (s.img x).scRx).length → Executes s h 0x0B01 x →
      (s.img x).scArgsOk a = true → serves h.fn a.domain = true →
      (n < scCount a.dir → ∃ i, i < scCount a.dir ∧ ((s.img x).sc a.dir i).args = none ∧
        exec (.secyScCreate h a) s = .next (({ s with fv := s.fv + 1 }.modImg x fun im =>
          im.setSc a.dir i { args := some a }).done x h 0x0B01 [(2, i)])) ∧
      (scCount a.dir ≤ n → exec (.secyScCreate h a) s = .next (s.postCpl x (cmdOf h 0x0B01) stNoRes 0 []))) ∧
    (∀ dir sc, Executes s h 0x0B02 x → (s.img x).scOpen h.fn dir sc = true →
      ((s.img x).scMka dir sc = false → ∃ u, exec (.secyScDelete h dir sc) s = .next u ∧ (u.img x).sc dir sc = {} ∧
        (∀ an, an < 4 → ((u.img x).sa dir sc an).inst = false) ∧
        (∀ i, i ≠ sc → (u.img x).sc dir i = (s.img x).sc dir i) ∧ Completed u x h 0x0B02 stDone [] ∧ Within x s u ∧
        (u.img x).regs = (s.img x).regs ∧ (u.img x).chan = (s.img x).chan) ∧
      ((s.img x).scMka dir sc = true →
        exec (.secyScDelete h dir sc) s = .next (s.postCpl x (cmdOf h 0x0B02) stLocked 0 [])))

/-- SECY_SA_INSTALL installs a LIVE SAK of the channel's domain, kind, length and suite, whose blob passes R276, under a
free AN: the SA starts at the given PN, resident while key RAM has room, and the key is bound to it; a pinned one is loaded
where there is none (R186, R190, R195).  SECY_SA_RETIRE erases an SA that is not current, its SAK's material and its slot
of the wharf (R199). -/
def Sys2Proof.Claims.AssociationsAreInstalledAndRetired : Prop :=
  ∀ (x : Half) (h : Hdr) (s : State),
    (∀ a pin room bad, pin = (a.pin || ((s.img x).sc a.dir a.sc).args.any (·.express)) →
      room = decide ((s.img x).saResident a.dir < 16384) →
      bad = s.blobFails x a.handle ((s.half x).wharfAt a.handle) → Executes s h 0x0B03 x →
      (s.img x).scOpen h.fn a.dir a.sc = true → a.an < 4 → ((s.img x).sa a.dir a.sc a.an).inst = false →
      hLanding a.handle = 5 → hDomain a.handle = (s.img x).scDomain a.dir a.sc →
      a.pn ≤ lastPn ((s.img x).scSuite a.dir a.sc) → a.ssci < 2 ^ 32 → (s.img x).scMka a.dir a.sc = false →
      ((s.img x).key a.handle).st = 1 → ((s.img x).key a.handle).gone = false →
      sakSuits ((s.img x).key a.handle) ((s.img x).scSuite a.dir a.sc) = true →
      (pin = true → (s.img x).saPinned a.dir < 15360) → (pin = false → room = true ∨ (s.img x).saParked < 1048576) →
      if bad.isSome then
        exec (.secySaInstall h a) s = .next (s.postCpl x (cmdOf h 0x0B03) ((bad.map (·.2.2)).getD stKeyInvalid) 0 [])
      else ∃ u, exec (.secySaInstall h a) s = .next u ∧
        (∃ l w, (l || w) = (pin && !room) ∧ (u.img x).sa a.dir a.sc a.an =
          { inst := true, handle := a.handle, pn := a.pn, ssci := a.ssci, pinned := pin, resident := room,
            lastUse := s.now, loading := l, wanted := w,
            thrPosted := decide (a.dir = .tx ∧ (s.img x).pnThresh ((s.img x).scSuite a.dir a.sc) ≤ a.pn) }) ∧
        ((u.img x).key a.handle).bound = some (decide (a.dir = .rx), a.sc, a.an) ∧
        ((u.img x).key a.handle).ssci = a.ssci ∧ Completed u x h 0x0B03 stDone [] ∧ Within x s u ∧
        (((s.img x).sc a.dir a.sc).cur ≠ some a.an → ∀ d i, (u.img x).sc d i = (s.img x).sc d i) ∧
        (u.img x).regs = (s.img x).regs) ∧
    (∀ dir sc an v, v = (s.img x).sa dir sc an → Executes s h 0x0B05 x → (s.img x).scOpen h.fn dir sc = true → an < 4 →
      v.inst = true → (s.img x).scMka dir sc = false →
      ((dir = .tx → ((s.img x).sc .tx sc).cur ≠ some an) → ∃ u, exec (.secySaRetire h dir sc an) s = .next u ∧
        (u.img x).sa dir sc an = {} ∧ ((u.img x).key v.handle).gone = true ∧ ((u.img x).key v.handle).bound = none ∧
        (u.half x).wharfAt v.handle = [] ∧
        (v.loading = false → ∀ d i b, (d, i, b) ≠ (dir, sc, an) → b < 4 → (u.img x).sa d i b = (s.img x).sa d i b) ∧
        Completed u x h 0x0B05 stDone [] ∧ Within x s u ∧ (u.img x).regs = (s.img x).regs) ∧
      (dir = .tx → ((s.img x).sc .tx sc).cur = some an →
        exec (.secySaRetire h dir sc an) s = .next (s.postCpl x (cmdOf h 0x0B05) stArgs 0 [])))

/-- SECY_SA_ACTIVATE makes a resident SA the current one at once and completes with DONE; a parked one is loaded first, and
the command waits for it (R187, R199); a key or parent that does not serve fails it (R199, R201).  SECY_SA_PIN sets or
clears the pin (R195), and SECY_SA_READ returns PN, residency, pin and state. -/
def Sys2Proof.Claims.AssociationsAreActivatedPinnedAndRead : Prop :=
  ∀ (x : Half) (h : Hdr) (dir : Dir) (sc an : Nat) (v : Sa) (s : State), (s.img x).scOpen h.fn dir sc = true → an < 4 →
    v = (s.img x).sa dir sc an → v.inst = true →
    (dir = .tx → Executes s h 0x0B04 x → (s.img x).scMka .tx sc = false →
      (∀ st, lowest ((s.img x).saFails .tx sc an) = some st →
        exec (.secySaActivate h sc an .immediate) s = .next (s.postCpl x (cmdOf h 0x0B04) st 0 [])) ∧
      (lowest ((s.img x).saFails .tx sc an) = none → v.resident = true →
        ∃ u, exec (.secySaActivate h sc an .immediate) s = .next u ∧
        (u.img x).sc .tx sc = { (s.img x).sc .tx sc with cur := some an, next := none } ∧
        Completed u x h 0x0B04 stDone [] ∧ Within x s u ∧ (u.img x).saTx = (s.img x).saTx) ∧
      (lowest ((s.img x).saFails .tx sc an) = none → v.resident = false →
        ∃ u, exec (.secySaActivate h sc an .immediate) s = .next u ∧
        (u.img x).sc .tx sc = { (s.img x).sc .tx sc with next := some an } ∧
        (u.img x).sa .tx sc an = (if v.loading then v
          else if (s.img x).maxLoads ≤ (s.img x).saLoads then { v with wanted := true }
          else { v with loading := true, wanted := false }) ∧
        (u.img x).jobs = (s.img x).jobs ++
          [{ cmd := cmdOf h 0x0B04, on := .sa .tx sc an, status := stDone, cflags := 0, result := [], area := none,
             cont := .activate sc an }] ∧ Within x s u)) ∧
    (Executes s h 0x0B06 x → ∀ pin,
      (pin = false → ((s.img x).sc dir sc).args.any (·.express) = false) →
      (pin = true → v.pinned = true ∨ (s.img x).saPinned dir < 15360) →
      ∃ u, exec (.secySaPin h dir sc an pin) s = .next u ∧
        (∃ l w, (u.img x).sa dir sc an = { v with pinned := pin, loading := l, wanted := w } ∧
          if pin && !v.resident && !v.loading then (l || w) = true else l = v.loading ∧ w = v.wanted) ∧
        ((u.img x).key v.handle).pinned = pin ∧ Completed u x h 0x0B06 stDone [] ∧ Within x s u ∧
        (u.img x).regs = (s.img x).regs) ∧
    (Executes s h 0x0B07 x → exec (.secySaRead h dir sc an) s = .next (s.done x h 0x0B07 [(8, v.pn),
      (1, b2n (!v.resident)), (1, b2n v.pinned), (1, if v.orphaned then 4 else ((s.img x).key v.handle).st)]))

/-- A load that ends well makes its SA resident, parking another where key RAM is full (R190), with the advance of a
takeover applied (R184), and a change of AN that waited for it takes place (R199); one that is refused (R276, R201) leaves
it parked, its held frames dropped.  The frames of a hold go when it has lasted HOLD_US (R193), and the verification of a
preempting port ends (R196). -/
def Sys2Proof.Claims.LoadsAndHoldsEnd : Prop :=
  ∀ (x : Half) (s : State),
    (∀ dir sc an v, sc < scCount dir → an < 4 → s.holder = some x → v = (s.img x).sa dir sc an → v.loading = true →
      if (s.loadRefused x dir sc an).isSome then
        ∃ u, exec (.saLoadComplete x dir sc an) s = .next u ∧
          (u.img x).sa dir sc an = { v with loading := false, wanted := false } ∧
          ((u.img x).sc dir sc).next ≠ some an ∧
          (u.half x).held = (s.half x).held.filter (fun e => !decide (e.dir = dir ∧ e.sc = sc ∧ e.an = an)) ∧
          Within x s u ∧ (u.img x).keys = (s.img x).keys
      else
        ((s.half x).held = [] → (s.img x).saResident dir < 16384 ∨ ((s.half x).victim dir).isSome = true →
          ∃ u, exec (.saLoadComplete x dir sc an) s = .next u ∧ ((u.img x).sa dir sc an).resident = true ∧
            ((u.img x).sa dir sc an).loading = false ∧ ((u.img x).sa dir sc an).pn = v.pn + v.advance ∧
            (dir = .tx → ((s.img x).sc .tx sc).next = some an → ((u.img x).sc .tx sc).cur = some an) ∧ Within x s u ∧
            (u.img x).regs = (s.img x).regs ∧
            ((s.img x).cas = [] → 16384 ≤ (s.img x).saResident dir → ∀ k, (s.half x).victim dir = some k →
              k ≠ 4 * sc + an → ((u.img x).sa dir (k / 4) (k % 4)).resident = false)) ∧
        (16384 ≤ (s.img x).saResident dir → (s.half x).victim dir = none →
          exec (.saLoadComplete x dir sc an) s = .next s)) ∧
    (∀ e rest since, (s.half x).held = e :: rest → since = ((s.img x).sa e.dir e.sc e.an).holdAt →
      (since + (s.img x).holdNs ≤ s.now → ∃ u, exec (.holdExpire x e.id) s = .next u ∧ u.img x = s.img x ∧
        (u.half x).held = (s.half x).held.filter (fun g => !decide (g.dir = e.dir ∧ g.sc = e.sc ∧ g.an = e.an)) ∧
        (u.half x).queues = (s.half x).queues ∧ Within x s u) ∧
      (s.now < since + (s.img x).holdNs → exec (.holdExpire x e.id) s = .next s)) ∧
    (∀ p ok, p < 32 → tabGet 0 (s.half x).preempt p = 1 →
      (s.isActive x = true → exec (.preemptVerify x p ok) s =
        .next ((s.modHalf x fun y => { y with preempt := tabSet 0 y.preempt p (if ok then 2 else 3) }).post x .cores 0x0B07
          [(1, p), (1, b2n (!ok)), (1, (s.img x).addFrag p)])) ∧
      (s.isActive x = false → exec (.preemptVerify x p ok) s = .next s))

/-! ## Tables -/

/-- A table command of a virtual function, or with a reserved byte that is not 0, is completed with REJECTED_ARGS and does
nothing else (R233). -/
def Sys2Proof.Claims.TableCommandsKeepTheirForm : Prop :=
  ∀ (i : Instr) (h : Hdr) (op : Nat) (s : State) (x : Half), command i = some (h, op) → 0x0201 ≤ op → op ≤ 0x0231 →
    Executes s h op x → h.fn ≠ 0 ∨ h.clean = false → exec i s = .next (s.postCpl x (cmdOf h op) stArgs 0 [])

/-- CHAN_WRITE writes the version that SEL does not name, then flips SEL, sets or clears LOCK and clears HIT and IDLE as
asked (R209, R210): a lookup finds the new version exactly when SEL was flipped.  A version that R211 forbids is
REJECTED_ARGS.  CHAN_READ returns both versions and the control word. -/
def Sys2Proof.Claims.ChannelWritesAreAtomic : Prop :=
  ∀ (x : Half) (h : Hdr) (i : Nat) (s : State), h.fn = 0 → h.clean = true →
    (Executes s h 0x0201 x → ∀ flip hold unlock clr v,
      ((s.img x).acceptVersion i v = true → ∃ u c, exec (.chanWrite h i flip hold unlock clr v) s = .next u ∧
        c = (u.img x).chanAt i ∧ c.cur = (if flip then v else ((s.img x).chanAt i).cur) ∧
        ({ c with sel := !c.sel } : Chan).cur = (if flip then ((s.img x).chanAt i).cur else v) ∧
        c.lock = (hold && !unlock) ∧ c.hit = (((s.img x).chanAt i).hit && !clr) ∧
        (clr = true → (u.img x).chanIdle c = 0) ∧ (clr = false → c.idleOff = ((s.img x).chanAt i).idleOff) ∧
        (∀ k, k ≠ i → (u.img x).chanAt k = (s.img x).chanAt k) ∧ Completed u x h 0x0201 stDone [] ∧ Within x s u ∧
        (u.img x).regs = (s.img x).regs ∧ (u.img x).stn = (s.img x).stn) ∧
      ((s.img x).acceptVersion i v = false →
        exec (.chanWrite h i flip hold unlock clr v) s = .next (s.postCpl x (cmdOf h 0x0201) stArgs 0 []))) ∧
    (Executes s h 0x0202 x → i < 131072 → ∀ addr, exec (.chanRead h i addr) s = .next (s.reply x h 0x0202 [] addr
      [(16, ((s.img x).chanAt i).v0.toNat), (16, ((s.img x).chanAt i).v1.toNat),
       (4, (s.img x).chanCtrl ((s.img x).chanAt i))]))

/-- CHAN_BULK and TRIE_BULK apply their records in order and stop at the first that fails (R234): of two records the
second is not applied when the first is wrong, and its status comes with the count applied. -/
def Sys2Proof.Claims.BulkCommandsStopAtTheFirstFailure : Prop :=
  ∀ (x : Half) (h : Hdr) (addr : Nat) (s : State), h.fn = 0 → h.clean = true → addr < 2 ^ 64 →
    (Executes s h 0x0203 x → ∀ i flip v w,
      ((s.img x).acceptVersion i v = false → exec (.chanBulk h i 2 addr flip [v, w]) s =
        .next (s.postCpl x (cmdOf h 0x0203) stArgs 0 [(4, 0), (4, 0), (1, 2)])) ∧
      ((s.img x).acceptVersion i v = true → (s.img x).acceptVersion (i + 1) w = false →
        exec (.chanBulk h i 2 addr flip [v, w]) s =
          .next ((s.modImg x fun im => im.chanWrite i flip false false false v).postCpl x (cmdOf h 0x0203) stArgs 0
            [(4, 1), (4, 1), (1, 2)])) ∧
      ((s.img x).acceptVersion i v = true → (s.img x).acceptVersion (i + 1) w = true →
        exec (.chanBulk h i 2 addr flip [v, w]) s =
          .next ((s.modImg x fun im => (im.chanWrite i flip false false false v).chanWrite (i + 1) flip false false false
            w).done x h 0x0203 [(4, 2), (4, 0), (1, 0)]))) ∧
    (Executes s h 0x0213 x → (s.img x).trie.rebuild = true → ∀ p k, k = pKey p.family p.len p.bits →
      (prefixOk p = true → resultOk p.result = true →
        fitsPools (trieUse (tabSet none (s.img x).trie.idle k (some p.result))) = true →
        exec (.trieBulk h 1 addr [p]) s = .next ((s.modImg x fun im => { im with
          trie := im.trie.setIdle (tabSet none im.trie.idle k (some p.result)) }).done x h 0x0213
            [(4, 1), (4, 0), (1, 0)])) ∧
      (prefixOk p = false → exec (.trieBulk h 1 addr [p]) s =
        .next (s.postCpl x (cmdOf h 0x0213) stArgs 0 [(4, 0), (4, 0), (1, 2)])))

/-- TRIE_ADD and TRIE_DEL change one prefix of the serving bank by copy-then-switch, and of the idle bank as well during a
rebuild (R216, R218, R219).  An added prefix for which no room can ever be is NO_RESOURCE; one for which nodes are on their
way back waits for them (R217).  A prefix that is absent completes with ABSENT. -/
def Sys2Proof.Claims.PrefixChangesTouchOnePrefix : Prop :=
  ∀ (x : Half) (h : Hdr) (p : PrefixRec) (k : Nat) (T : Trie) (s : State), h.fn = 0 → h.clean = true →
    prefixOk p = true → k = pKey p.family p.len p.bits → T = (s.img x).trie →
    (Executes s h 0x0211 x → resultOk p.result = true →
      (T.tooFull k p.result = false → T.roomFor k (tabSet none T.serve k (some p.result)) = true →
        ∃ u, exec (.trieAdd h p) s = .next u ∧ (u.img x).trie.serve = tabSet none T.serve k (some p.result) ∧
          (u.img x).trie.idle = (if T.rebuild then tabSet none T.idle k (some p.result) else T.idle) ∧
          (u.img x).trie.serving = T.serving ∧ (u.img x).trie.rebuild = T.rebuild ∧ Completed u x h 0x0211 stDone [] ∧
          Within x s u ∧ (u.img x).regs = (s.img x).regs ∧ (u.img x).chan = (s.img x).chan) ∧
      (T.tooFull k p.result = false → T.roomFor k (tabSet none T.serve k (some p.result)) = false →
        exec (.trieAdd h p) s = .next (s.wait x
          { cmd := cmdOf h 0x0211, on := .pool, status := stDone, cflags := 0, result := [], area := none,
            cont := .trie p 3 })) ∧
      (T.tooFull k p.result = true →
        exec (.trieAdd h p) s = .next (s.postCpl x (cmdOf h 0x0211) stNoRes 0 []))) ∧
    (Executes s h 0x0212 x →
      (tabGet none T.serve k = none → exec (.trieDel h p) s = .next ((s.modImg x fun im => { im with
        trie := if T.rebuild then T.setIdle (tabSet none T.idle k none) else T }).postCpl x (cmdOf h 0x0212) stDone
          cfAbsent [])) ∧
      (tabGet none T.serve k ≠ none → ∃ u, exec (.trieDel h p) s = .next u ∧
        (u.img x).trie.serve = tabSet none T.serve k none ∧
        (u.img x).trie.idle = (if T.rebuild then tabSet none T.idle k none else T.idle) ∧
        (u.img x).trie.serving = T.serving ∧ (u.img x).trie.rebuild = T.rebuild ∧ Completed u x h 0x0212 stDone [] ∧
        Within x s u ∧ (u.img x).regs = (s.img x).regs))

/-- A rebuild empties the idle bank and leaves the serving one alone; its commit makes the idle bank serve by one write,
its abort empties it (R219, R220); each is REJECTED_ARGS out of turn.  Two crossings after a commit the old bank is
emptied, and replaced nodes return to their pools, where a TRIE_ADD that waited for them goes on (R217).  TRIE_LOOKUP
answers the longest match or ABSENT (R214). -/
def Sys2Proof.Claims.RebuildsSwitchByOneWrite : Prop :=
  ∀ (x : Half) (h : Hdr) (T : Trie) (s : State), h.fn = 0 → h.clean = true → T = (s.img x).trie →
    (Executes s h 0x0214 x → (T.rebuild = false → exec (.trieRebuildBegin h) s = .next ((s.modImg x fun im => { im with
        trie := { T.setIdle [] with rebuild := true, oldBank := none } }).done x h 0x0214)) ∧
      (T.rebuild = true → exec (.trieRebuildBegin h) s = .next (s.postCpl x (cmdOf h 0x0214) stArgs 0 []))) ∧
    (T.setIdle []).serve = T.serve ∧ (T.setIdle []).idle = [] ∧
    (Executes s h 0x0215 x → (T.rebuild = true → ∃ u, exec (.trieRebuildCommit h) s = .next u ∧
        (u.img x).trie.serve = T.idle ∧ (u.img x).trie.idle = T.serve ∧ (u.img x).trie.rebuild = false ∧
        (u.img x).trie.oldBank = some 2 ∧ Completed u x h 0x0215 stDone [] ∧ Within x s u ∧
        (u.img x).regs = (s.img x).regs) ∧
      (T.rebuild = false → exec (.trieRebuildCommit h) s = .next (s.postCpl x (cmdOf h 0x0215) stArgs 0 []))) ∧
    (Executes s h 0x0216 x → T.rebuild = true → exec (.trieRebuildAbort h) s = .next ((s.modImg x fun im => { im with
        trie := { T.setIdle [] with rebuild := false } }).done x h 0x0216)) ∧
    (s.holder = some x →
      ((∀ j ∈ (s.img x).jobs, j.on ≠ .pool) → exec .trieNodeRelease s = .next (s.modImg x fun im => { im with
        trie := { T with pending := T.pending.filter fun p => decide (p.2 ≠ 0) } })) ∧
      (∀ j p n k, (s.img x).jobs = [j] → j.on = .pool → j.cont = .trie p n → k = pKey p.family p.len p.bits →
        T.release.tooFull k p.result = false →
        T.release.roomFor k (tabSet none T.serve k (some p.result)) = true →
        ∃ u, exec .trieNodeRelease s = .next u ∧ (u.img x).trie.serve = tabSet none T.serve k (some p.result) ∧
          (u.img x).jobs = [] ∧ Within x s u ∧ (u.half x).queue = (s.half x).queue ++ [(Src.command, Post.cpl
            { op := j.cmd.op, fn := j.cmd.fn, table := j.cmd.table, half := x, status := stDone, tag := j.cmd.tag,
              pos := j.cmd.pos, cflags := 0, result := [] })]) ∧
      (T.oldBank = some 0 → exec .trieBankRelease s = .next (s.modImg x fun im => { im with
        trie := { T.setIdle [] with oldBank := none } }))) ∧
    (Executes s h 0x0217 x → ∀ fam a v, (fam = 4 ∧ a < 2 ^ 32 ∧ v = a) ∨ (fam = 6 ∧ a < 2 ^ 128 ∧ v = a / 2 ^ 64) →
      ((∀ n, n ≤ famWidth fam → tabGet none T.serve (pKey fam n v) = none) →
        exec (.trieLookup h fam a) s = .next (s.postCpl x (cmdOf h 0x0217) stDone cfAbsent [(1, 0), (4, 0)])) ∧
      (∀ n r, n ≤ famWidth fam → tabGet none T.serve (pKey fam n v) = some r →
        (∀ m, n < m → m ≤ famWidth fam → tabGet none T.serve (pKey fam m v) = none) →
        exec (.trieLookup h fam a) s = .next (s.done x h 0x0217 [(1, n), (4, r.toNat)])))

/-- Station commands (R227, R228, R230): STN_ADD makes a station static, in place of one under its key, or in a free slot of
its buckets, or in the slot that the moves of R223 free, and is NO_RESOURCE when there is none; STN_DEL removes one and is
ABSENT without it; STN_RELEASE ends a mooring; STN_FLUSH of everything removes every station; STN_DUMP writes the table. -/
def Sys2Proof.Claims.StationCommandsChangeOneKey : Prop :=
  ∀ (x : Half) (h : Hdr) (r : StationRec) (k : Nat) (new : Stn) (s : State), h.fn = 0 → h.clean = true →
    stnKeyOk r.key = true → r.sc < 8192 → (s.img x).isLinePort r.port = true → k = stnKeyNat r.key →
    new = { sc := r.sc, port := r.port, vid := r.key.vid, isStatic := true, moored := false, hit := false, moves := [],
            moorAt := 0, lastSeq := 0 } →
    (Executes s h 0x0221 x →
      ((∃ i ∈ (s.img x).slotsOf k, (s.img x).slotAt i = none) ∨ (s.img x).stnAt k ≠ none →
        ∃ u, exec (.stnAdd h r) s = .next u ∧ (u.img x).stnAt k = some new ∧
          (∀ j, j ≠ k → (u.img x).stnAt j = (s.img x).stnAt j) ∧ Completed u x h 0x0221 stDone [] ∧ Within x s u ∧
          (u.img x).regs = (s.img x).regs) ∧
      ((s.img x).stnAt k = none → ∀ p, (s.img x).pathFor k = some p → exec (.stnAdd h r) s =
        .next ((s.modImg x fun im => im.insertAt p k new).done x h 0x0221)) ∧
      ((s.img x).stnAt k = none → (s.img x).pathFor k = none → ∃ u, exec (.stnAdd h r) s = .next u ∧
        u.img x = s.img x ∧ Completed u x h 0x0221 stNoRes [] ∧ Within x s u)) ∧
    (Executes s h 0x0222 x →
      (∀ v, (s.img x).stnAt k = some v →
        exec (.stnDel h r.key) s = .next ((s.modImg x fun im => im.dropStn k v).done x h 0x0222) ∧
        ((s.img x).dropStn k v).stnAt k = none ∧
        (∀ j, j ≠ k → ((s.img x).dropStn k v).stnAt j = (s.img x).stnAt j)) ∧
      ((s.img x).stnAt k = none → exec (.stnDel h r.key) s = .next (s.postCpl x (cmdOf h 0x0222) stDone cfAbsent []))) ∧
    (Executes s h 0x0223 x → ∀ v, (s.img x).stnAt k = some v →
      (v.moored = true → ∃ u, exec (.stnRelease h r.key) s = .next u ∧
        (u.img x).stnAt k = some { v with moored := false, moves := [] } ∧
        (∀ j, j ≠ k → (u.img x).stnAt j = (s.img x).stnAt j) ∧ Completed u x h 0x0223 stDone [] ∧ Within x s u) ∧
      (v.moored = false → exec (.stnRelease h r.key) s = .next (s.postCpl x (cmdOf h 0x0223) stArgs 0 []))) ∧
    (Executes s h 0x0224 x → ∀ i v, i ∈ (s.img x).slotsOf k → (s.img x).stn = [(i, some (k, v))] → ∃ u, exec (.stnFlush h
        { byDomain := false, byPort := false, bySc := false, includeStatic := true, domain := 0, port := 0, sc := 0 }) s =
        .next u ∧ (u.img x).stn = [] ∧ Completed u x h 0x0224 stDone [(4, 1)] ∧ Within x s u ∧
      (u.img x).regs = (s.img x).regs) ∧
    (Executes s h 0x0225 x → ∀ addr cap i v, 1 ≤ cap → cap < 2 ^ 32 → (s.img x).stn = [(i, some (k, v))] →
      exec (.stnDump h cap addr) s = .next (s.reply x h 0x0225 [(4, 1)] addr (dumpRec k v)))

/-- A move of the relocation path keeps every lookup (R223, R224): while a station stands in its old and its new slot each
lookup finds the same one result, and so it does once the old slot is invalid. -/
def Sys2Proof.Claims.MovesKeepEveryLookup : Prop :=
  ∀ (im : Image) (a b k : Nat) (v : Stn), a ∈ im.slotsOf k → b ∈ im.slotsOf k → im.slotAt a = some (k, v) →
    im.slotAt b = none → (∀ c ∈ im.slotsOf k, c ≠ a → slotHas k (im.slotAt c) = none) →
    ∀ j, (im.copySlot a b).stnAt j = im.stnAt j ∧ (im.moveSlot a b).stnAt j = im.stnAt j ∧
      (im.moveSlot a b).slotAt b = some (k, v) ∧ (im.moveSlot a b).slotAt a = none

/-- A learn request that a verified frame has made, at the learning engine (R225, R226): under a key that the table has with
the same result it sets HIT, unless the station is moored (R227); under one that has a dynamic station elsewhere it moves
it; under one that the table lacks it inserts a dynamic station, or leaves the table alone when no slot is found.
STATION_MOOR_EXPIRE ends a mooring after MOOR_S (R227); every STN_AGE_S the station sweep removes dynamic stations without
HIT and clears HIT (R229); every SWEEP_S the channel sweep clears HIT and counts idleness (R212); PAIR_WRITE writes one
entry of the pairing table (R221). -/
def Sys2Proof.Claims.LearningAndAging : Prop :=
  ∀ (x : Half) (s : State), s.holder = some x →
    (∀ r k c q, r.port < 32 → r.sc < 8192 → r.vid < 4096 → stnKeyOk r.key = true → k = stnKeyNat r.key →
      r ∈ (s.half x).learnReqs → (s.half x).learnWaits = false →
      q = (s.modHalf x fun y => { y with learnReqs := y.learnReqs.erase r }) →
      c = (s.img x).chanAt (r.port * 4096 + r.vid) →
      ((s.img x).learnEn = true → vRetValid c.cur = true → vLearn c.cur = true → c.lock = false →
        vStnMax c.cur = 0 ∨ c.stnCount < vStnMax c.cur →
        (∀ v, (s.img x).stnAt k = some v →
          (v.moored = true → exec (.stationLearn x r) s = .next q) ∧
          (v.moored = false → v.sc = r.sc → v.port = r.port → exec (.stationLearn x r) s =
            .next (q.modImg x fun im => im.modStn k fun v => some { v with hit := true })) ∧
          (v.moored = false → v.sc ≠ r.sc ∨ v.port ≠ r.port → v.isStatic = true →
            exec (.stationLearn x r) s = .next (q.count x 4 r.port 6)) ∧
          (v.moored = false → v.sc ≠ r.sc ∨ v.port ≠ r.port → v.isStatic = false →
            ∃ u w, exec (.stationLearn x r) s = .next u ∧ (u.img x).stnAt k = some w ∧ w.sc = r.sc ∧ w.port = r.port ∧
              w.vid = r.vid ∧ w.isStatic = false ∧ w.hit = true ∧
              (w.moored = true ↔ ∃ m : Nat, v.moves[3]? = some m ∧ v.moves.length = 4 ∧
                (tvUnits ((s.half x).tb (s.img x).moveTb).value : Int) - m < 1000000000 * 65536) ∧
              (∀ j, j ≠ k → (u.img x).stnAt j = (s.img x).stnAt j) ∧ Within x s u)) ∧
        ((s.img x).stnAt k = none →
          ((∃ i ∈ (s.img x).slotsOf k, (s.img x).slotAt i = none) → ∃ u, exec (.stationLearn x r) s = .next u ∧
            (u.img x).stnAt k = some
              { sc := r.sc, port := r.port, vid := r.vid, isStatic := false, moored := false, hit := true, moves := [],
                moorAt := 0, lastSeq := 0 } ∧
            ((u.img x).chanAt (r.port * 4096 + r.vid)).stnCount = c.stnCount + 1 ∧
            (∀ j, j ≠ k → (u.img x).stnAt j = (s.img x).stnAt j) ∧ Within x s u) ∧
          ((s.img x).pathFor k = none → ∃ u, exec (.stationLearn x r) s = .next u ∧ u.img x = s.img x ∧
            Within x s u))) ∧
      ((s.img x).learnEn = false ∨ vRetValid c.cur = false ∨ vLearn c.cur = false →
        exec (.stationLearn x r) s = .next q)) ∧
    (∀ key v, (s.img x).stnAt (stnKeyNat key) = some v → v.moored = true → (s.img x).moorS ≠ 0 →
      (v.moorAt + (s.img x).moorS * 1000000000 ≤ s.now → ∃ u, exec (.stationMoorExpire key) s = .next u ∧
        (u.img x).stnAt (stnKeyNat key) = some { v with moored := false, moves := [] } ∧
        (∀ j, j ≠ stnKeyNat key → (u.img x).stnAt j = (s.img x).stnAt j) ∧ Within x s u) ∧
      (s.now < v.moorAt + (s.img x).moorS * 1000000000 → exec (.stationMoorExpire key) s = .next s)) ∧
    (∀ i k v, i ∈ (s.img x).slotsOf k → (s.img x).stn = [(i, some (k, v))] → (s.img x).stnAgeS ≠ 0 →
      ((s.img x).stnSweptAt + (s.img x).stnAgeS * 1000000000 ≤ s.now → ∃ u, exec .stationAgingSweep s = .next u ∧
        (u.img x).stn = (if v.isStatic || v.moored || v.hit then [(i, some (k, { v with hit := false }))] else []) ∧
        (u.img x).stnSweptAt = s.now ∧ Within x s u ∧ (u.img x).regs = (s.img x).regs) ∧
      (s.now < (s.img x).stnSweptAt + (s.img x).stnAgeS * 1000000000 → exec .stationAgingSweep s = .next s)) ∧
    ((s.img x).stnAgeS = 0 → exec .stationAgingSweep s = .next s) ∧
    (∀ c, (s.img x).chan = [(0, c)] →
      ((s.img x).sweptAt + (s.img x).sweepS * 1000000000 ≤ s.now → ∃ u, exec .channelAgingSweep s = .next u ∧
        ((u.img x).chanAt 0).hit = (c.hit && c.lock) ∧
        (c.lock = false → c.hit = true → (u.img x).chanIdle ((u.img x).chanAt 0) = 0) ∧
        (c.lock = false → c.hit = false → 0 ≤ ((s.img x).sweeps : Int) + c.idleOff →
          (u.img x).chanIdle ((u.img x).chanAt 0) = min 31 ((s.img x).chanIdle c + 1)) ∧
        (c.lock = true → (u.img x).chanIdle ((u.img x).chanAt 0) = (s.img x).chanIdle c) ∧ Within x s u ∧
        (u.img x).stn = (s.img x).stn) ∧
      (s.now < (s.img x).sweptAt + (s.img x).sweepS * 1000000000 → exec .channelAgingSweep s = .next s)) ∧
    (∀ h sc e, Executes s h 0x0231 x → h.fn = 0 → h.clean = true → sc < 8192 → e.toNat / 4096 % 8 = 0 →
      (((s.img x).sc .rx sc).args.any (·.mka) = false → exec (.pairWrite h sc e) s =
        .next ((s.modImg x fun im => { im with pairTab := tabSet 0 im.pairTab sc e }).done x h 0x0231)) ∧
      (((s.img x).sc .rx sc).args.any (·.mka) = true →
        exec (.pairWrite h sc e) s = .next (s.postCpl x (cmdOf h 0x0231) stLocked 0 [])))

/-! ## The hall and frames -/

/-- SHAPER_SET at once installs an ordinary shaper with its count at the burst (at 0 under RESET or when disabled), and
leaves a privileged one for the next refill tick (R251, R252); SHAPER_READ returns setting and count.  POLICER_SET fills
both buckets to their new sizes (R260) and POLICER_READ returns them.  SAMPLE_READ returns the samples of a queue (R261).
A field out of range is REJECTED_ARGS. -/
def Sys2Proof.Claims.HallCommandsSetAndRead : Prop :=
  ∀ (x : Half) (h : Hdr) (s : State), h.fn = 0 →
    (∀ a k, Executes s h 0x0501 x → a.w = .immediate → a.index < shaperCount a.kind → a.burst ≤ 16777215 →
      k = shaperKey a.kind a.index → 1 ≤ a.rate →
      (a.rate ≤ 1600000 → privileged a.kind a.index = false → exec (.shaperSet h a) s = .next
        (((s.modImg x fun im => { im with
          shapers := tabSet {} im.shapers k { en := a.enable, rate := a.rate, burst := a.burst } }).modHalf x fun y =>
            { y with tokens := tabSet 0 y.tokens k (if a.zero || !a.enable then 0 else 1000 * (a.burst : Int)) }).done
          x h 0x0501)) ∧
      (a.rate ≤ 1600000 → privileged a.kind a.index = true → exec (.shaperSet h a) s = .next
        ((s.modImg x fun im => { im with pendShape := im.pendShape ++
          [(k, { en := a.enable, rate := a.rate, burst := a.burst })] }).done x h 0x0501)) ∧
      (1600000 < a.rate → exec (.shaperSet h a) s = .next (s.postCpl x (cmdOf h 0x0501) stArgs 0 []))) ∧
    (∀ kind i, Executes s h 0x0502 x → i < shaperCount kind → exec (.shaperRead h kind i) s = .next (s.done x h 0x0502
      [(1, if ((s.img x).shaper (shaperKey kind i)).en then 1 else 0), (4, ((s.img x).shaper (shaperKey kind i)).rate),
       (4, ((s.img x).shaper (shaperKey kind i)).burst),
       (4, ((s.half x).token (shaperKey kind i) / 1000 % 2 ^ 32).toNat)])) ∧
    (∀ p c b e, Executes s h 0x0503 x → p < 16384 →
      (c ≤ 1600000 → b ≤ 16777215 → e ≤ 16777215 → ∃ u, exec (.policerSet h p c b e) s = .next u ∧
        (tabGet {} (u.img x).pols p : Pol) = { cir := c, cbs := b, ebs := e } ∧
        tabGet (0, 0) (u.half x).polLv p = (1000 * b, 1000 * e) ∧ Completed u x h 0x0503 stDone [] ∧ Within x s u ∧
        (∀ q, q ≠ p → (tabGet {} (u.img x).pols q : Pol) = tabGet {} (s.img x).pols q ∧
          tabGet (0, 0) (u.half x).polLv q = tabGet (0, 0) (s.half x).polLv q) ∧ (u.img x).regs = (s.img x).regs) ∧
      (16777215 < e → exec (.policerSet h p c b e) s = .next (s.postCpl x (cmdOf h 0x0503) stArgs 0 []))) ∧
    (∀ p, Executes s h 0x0504 x → p < 16384 → exec (.policerRead h p) s = .next (s.done x h 0x0504
      [(4, (tabGet {} (s.img x).pols p : Pol).cir), (4, (tabGet {} (s.img x).pols p : Pol).cbs),
       (4, (tabGet {} (s.img x).pols p : Pol).ebs), (4, (tabGet (0, 0) (s.half x).polLv p).1 / 1000),
       (4, (tabGet (0, 0) (s.half x).polLv p).2 / 1000)])) ∧
    (∀ q addr, Executes s h 0x0505 x → q < 528 →
      exec (.sampleRead h q 1 addr false) s = .next (s.reply x h 0x0505 [] addr ((s.half x).sampleRec q)) ∧
      exec (.sampleRead h q 0 addr false) s = .next (s.postCpl x (cmdOf h 0x0505) stArgs 0 []))

/-- A refill tick installs the privileged changes that waited (R252), adds 0.016 of each enabled shaper's RATE to its
count, never above its burst (R249), and fills each policer's committed bucket first, the excess bucket with the rest
(R256). -/
def Sys2Proof.Claims.RefillTicksFillTheBuckets : Prop :=
  ∀ (x : Half) (k : Nat) (v : Shaper) (s : State), (s.half x).up = true →
    (s.img x).pendShape = [] → (s.half x).cqCells = [] →
    ((s.img x).shapers = [(k, v)] → (s.img x).pols = [] → v.en = true → ∃ u, exec (.refillTick x) s = .next u ∧
      (u.half x).token k = min (1000 * (v.burst : Int)) ((s.half x).token k + 16 * v.rate) ∧
      (∀ j, j ≠ k → (u.half x).token j = (s.half x).token j) ∧ Within x s u ∧ u.img x = s.img x ∧
      (u.half x).polLv = (s.half x).polLv) ∧
    (∀ p q c e, (s.img x).shapers = [] → (s.img x).pols = [(p, q)] → tabGet (0, 0) (s.half x).polLv p = (c, e) →
      ∃ u, exec (.refillTick x) s = .next u ∧
        (tabGet (0, 0) (u.half x).polLv p).1 = min (1000 * q.cbs) (c + 16 * q.cir) ∧
        (tabGet (0, 0) (u.half x).polLv p).2 =
          min (1000 * q.ebs) (e + (c + 16 * q.cir - min (1000 * q.cbs) (c + 16 * q.cir))) ∧ Within x s u ∧
        u.img x = s.img x ∧ (u.half x).tokens = (s.half x).tokens)

/-- A client frame whose channel entry is valid and fixed (IN_MODE 0), without a policer, goes to the queue of its transmit
SC's port and class when that queue admits it, with the SC's current AN on an active half, and sets HIT (R206, R208, R212);
one whose entry is invalid is dropped and counted (R215).  `q`: the lanes' decoders and FIFOs have counted first (R57). -/
def Sys2Proof.Claims.ClientFramesEnterTheirQueue : Prop :=
  ∀ (x : Half) (p : Nat) (f : FrameIn) (c : Chan) (i : Nat) (clr : Bool) (q s : State), p < 32 →
    q = s.portFec x p f.fec → i = p * 4096 + (s.img x).vidOf p f.tags → c = (s.img x).chanAt i →
    clr = (decide ((s.img x).typeAt p f = 0x88F7) && (s.img x).ptpClear p) →
    ((s.half x).up = false ∨ (s.img x).pktClient p = false → exec (.clientFrameRx x p f) s = .next s) ∧
    ((s.half x).up = true → (s.img x).pktClient p = true → s.carries = false ∨ (s.half x).restarting p = true →
      exec (.clientFrameRx x p f) s = .next q) ∧
    ((s.half x).up = true → (s.img x).pktClient p = true → s.carries = true → (s.half x).restarting p = false →
      ((s.img x).typeAt p f = 0x88F7 → (s.img x).ptpEngine p = false) →
      (vInValid c.cur = false →
        exec (.clientFrameRx x p f) s = .next ((q.modImg x fun im => im.chanHit i).count x 4 p 0)) ∧
      (∀ a an n, vInValid c.cur = true → vInMode c.cur = 0 → vPolEn c.cur = false →
        ((s.img x).sc .tx (vTxSc c.cur)).args = some a → (s.img x).lineServes a.port = true →
        n = 8 * (32 + a.port) + vClass c.cur → (s.half x).refuses n = none →
        (clr = false → s.isActive x = true → ((s.img x).sc .tx (vTxSc c.cur)).cur = some an ∧
          ((s.img x).sa .tx (vTxSc c.cur) an).orphaned = false ∧
          ((s.img x).sa .tx (vTxSc c.cur) an).exhausted = false ∧
          ((s.img x).sa .tx (vTxSc c.cur) an).resident = true) →
        ∃ u st, exec (.clientFrameRx x p f) s = .next u ∧ ((u.img x).chanAt i).hit = true ∧
          (clr = false → st = none) ∧
          (u.half x).queue_ n = (s.half x).queue_ n ++
            [{ id := f.id, body := f, sc := vTxSc c.cur, an := if clr || !s.isActive x then 0 else an, since := s.now,
               clear := clr, stamp := st }] ∧
          (∀ j, j ≠ n → (u.half x).queue_ j = (s.half x).queue_ j) ∧ Within x s u ∧ u.out = s.out ∧
          (u.img x).saTx = (s.img x).saTx ∧ (u.img x).regs = (s.img x).regs))

/-- When a port can start a frame, the scheduler takes the head of its lowest-numbered class with an eligible queue
(R245).  A client port sends it as it is, all but its last block while its verdict is awaited (R178); on a line port the
active half sends it protected under the current SA of its SC, whose PN goes up by one (R172, R181), cut off at MAX_FRAME
(R174), and a standby sends idle in its place (R411).  Only what the slipways obey leaves (R66). -/
def Sys2Proof.Claims.SchedulerTakesTheLowestClass : Prop :=
  ∀ (x : Half) (e c : Nat) (f : HFrame) (rest : List HFrame) (s : State), (s.half x).up = true → c < 8 →
    tabGet none (s.half x).sending e = none → tabGet none (s.half x).paused e = none →
    (s.half x).queue_ (8 * e + c) = f :: rest → (∀ b, b < c → (s.half x).queue_ (8 * e + b) = []) →
    (∀ b, b < 8 → ((s.img x).shaper (8 * e + b)).en = false) →
    (∀ bs, e < 32 → (s.img x).pktClient e = true → (s.half x).restarting e = false → f.waits = false →
      bs = withFcs (frameBytes (s.atEgress x e f)) →
      ∃ u, exec (.schedulerPick x { egress := e }) s = .next u ∧
        u.out = s.out ++ (if s.obeyed = some x then
          [if f.unsure then .client e f.id (bs.take (beforeLast bs.length)) none else .client e f.id bs (some false)]
          else []) ∧
        (u.half x).queue_ (8 * e + c) = rest ∧
        tabGet none (u.half x).sending e = some { queue := 8 * e + c, frame := f, wire := bs.length } ∧
        (∀ j, j ≠ 8 * e + c → (u.half x).queue_ j = (s.half x).queue_ j) ∧
        u.half x.other = s.half x.other ∧ u.flash = s.flash ∧ u.img x = s.img x) ∧
    (∀ a an v n bs most, 32 ≤ e → e < 64 → rest = [] → f.clear = false → (s.img x).lineServes (e - 32) = true →
      ((s.img x).shaper (shaperKey .sc f.sc)).en = false → ((s.img x).sc .tx f.sc).args = some a →
      (s.isActive x = true → ((s.img x).sc .tx f.sc).cur = some an → v = (s.img x).sa .tx f.sc an →
        v.orphaned = false → v.exhausted = false → v.resident = true → v.pn ≤ lastPn a.suite →
        n = (restBytes f.body a.clearTags).length → most = (s.img x).maxFrame a.port →
        bs = withFcs (protectFrame a (sentTag a (decide (1 < (s.img x).rxScsOn a.port)) an v.pn n)
          (sakBytes a.suite ((s.img x).key v.handle).key)
          (frameIv a.suite a.sci v.ssci ((s.img x).key v.handle).salt v.pn) f.body) →
        ∃ u, exec (.schedulerPick x { egress := e }) s = .next u ∧
          u.out = s.out ++ (if s.obeyed = some x then [.frame e f.id (bs.take most) (decide (most < bs.length))] else []) ∧
          ((u.img x).sa .tx f.sc an).pn = v.pn + 1 ∧
          ((u.img x).sa .tx f.sc an).exhausted = decide (v.pn = lastPn a.suite) ∧
          tabGet 0 (u.half x).pnUsed (4 * f.sc + an) = tabGet 0 (s.half x).pnUsed (4 * f.sc + an) + 1 ∧
          (u.half x).queue_ (8 * e + c) = [] ∧ u.half x.other = s.half x.other ∧ u.flash = s.flash ∧
          (u.img x).regs = (s.img x).regs ∧ (u.img x).saRx = (s.img x).saRx) ∧
      (s.isActive x = false → ∃ u, exec (.schedulerPick x { egress := e }) s = .next u ∧ u.out = s.out ∧ u.img x = s.img x ∧
          (u.half x).queue_ (8 * e + c) = [] ∧ Within x s u))

/-- A line frame with a well-formed SecTAG whose SC and AN have a resident SA, and whose PN passes the replay check,
decrypts into the client queue of its return entry, waiting there for its verdict under verify-first (R176–R178); one with
a malformed SecTAG is counted and dropped, and so is one of no SC, of no SA in use, or late (R176).  `q` as above. -/
def Sys2Proof.Claims.LineFramesDecryptIntoTheirQueue : Prop :=
  ∀ (x : Half) (p : Nat) (f : LineFrameIn) (t : SecTag) (n : Nat) (q s : State), p < 32 → (s.half x).up = true →
    (s.img x).lineServes p = true → s.carries = true → tagSeen ((s.img x).portClearTags p) f = some t →
    q = s.portFec x (32 + p) f.fec → n = f.data.length →
    (secTagOk true t n = false → exec (.lineFrameRx x p f) s = .next (q.count x 5 p 2)) ∧
    (secTagOk true t n = true → (s.img x).rxScFor p t = none → exec (.lineFrameRx x p f) s =
      .next (q.count x 5 p (if (s.img x).portStrict p || t.c then 4 else 3))) ∧
    (∀ sc a v, (s.img x).rxScFor p t = some sc → ((s.img x).sc .rx sc).args = some a →
      secTagOk (suiteXpn a.suite) t n = true → v = (s.img x).sa .rx sc t.an →
      (v.inst = false → exec (.lineFrameRx x p f) s =
        .next (q.count x 6 sc (if (s.img x).portStrict p || t.c then 6 else 7))) ∧
      (v.inst = true → v.orphaned = false → v.resident = true →
        (a.replayProtect = true → recoverPn a.suite t.pn v.pn < v.pn →
          exec (.lineFrameRx x p f) s = .next (q.count x 6 sc 3)) ∧
        (∀ pn r g vid c m, pn = recoverPn a.suite t.pn v.pn → (a.replayProtect = true → v.pn ≤ pn) →
          r = validateFrame a.confOffset (sakBytes a.suite ((s.img x).key v.handle).key)
            (frameIv a.suite (if t.sc then t.sci else a.sci) v.ssci ((s.img x).key v.handle).salt pn) f t →
          g = delivered f r.1 → vid = (s.img x).vidOf p g.tags → c = (s.img x).chanAt (p * 4096 + vid) →
          (s.img x).retQueue c.cur = some m → (s.half x).refuses m = none →
          ∃ u, exec (.lineFrameRx x p f) s = .next u ∧ ((u.img x).chanAt (p * 4096 + vid)).hit = true ∧
            (u.half x).queue_ m = (s.half x).queue_ m ++
              [{ id := f.id, body := g, sc, an := t.an, since := s.now, unsure := true,
                 waits := (s.img x).portVerifyFirst p }] ∧
            (u.half x).rxFrames = (s.half x).rxFrames ++
              [{ id := f.id, sc, an := t.an, pn, queue := some m, port := p, c := t.c, icvOk := r.2,
                 learn := (s.img x).learnOf sc p vid f.src c.cur }] ∧
            (∀ j, j ≠ m → (u.half x).queue_ j = (s.half x).queue_ j) ∧ Within x s u ∧ u.out = s.out ∧
            (u.img x).saRx = (s.img x).saRx ∧ (u.img x).regs = (s.img x).regs)))

/-- A good verdict raises the SA's lowest acceptable PN, which never falls, makes the learn request, and releases the frame
(R177, R178, R225); a frame that fails under strict validation is dropped whole before it has begun to leave, and ended
with an error after, and raises nothing (R178, R180); one that fails otherwise is delivered (R180). -/
def Sys2Proof.Claims.VerdictsRaiseThePacketNumber : Prop :=
  ∀ (x : Half) (r : RxFrame) (rest : List RxFrame) (v : Sa) (m : Nat) (marked fcs long : Bool) (s : State),
    (s.half x).rxFrames = r :: rest → v = (s.img x).sa .rx r.sc r.an → r.queue = some m →
    (∀ g, (s.half x).queue_ m = [g] → g.id = r.id → tabGet none (s.half x).sending (m / 8) = none →
      (∀ a, r.icvOk = true → v.inst = true → ((s.img x).sc .rx r.sc).args = some a →
        ∃ u, exec (.frameVerdict x r.id false false false) s = .next u ∧
          ((u.img x).sa .rx r.sc r.an).pn = max v.pn (r.pn + 1 - a.replayWindow) ∧
          (u.half x).queue_ m = [{ g with unsure := false, waits := false }] ∧ (u.half x).rxFrames = rest ∧
          (u.half x).learnReqs = (s.half x).learnReqs ++ (if s.isActive x then r.learn.toList else []) ∧ Within x s u ∧
          u.out = s.out ∧ (u.img x).saTx = (s.img x).saTx ∧ (u.img x).regs = (s.img x).regs) ∧
      ((r.icvOk = false ∨ (marked || fcs || long) = true) → ∃ u, exec (.frameVerdict x r.id marked fcs long) s = .next u ∧
        (u.half x).queue_ m = (if !(s.img x).portStrict r.port && !r.c then [{ g with unsure := false, waits := false }]
          else []) ∧
        (u.half x).rxFrames = rest ∧ (u.img x).saRx = (s.img x).saRx ∧ Within x s u ∧ u.out = s.out)) ∧
    (∀ w bs, (s.half x).queue_ m = [] → tabGet none (s.half x).sending (m / 8) = some w → w.frame.id = r.id →
      w.frame.unsure = true → bs = withFcs (frameBytes w.frame.body) → s.obeyed = some x →
      (r.icvOk = true → ∃ u, exec (.frameVerdict x r.id false false false) s = .next u ∧
        u.out = s.out ++ [.client (w.queue / 8) r.id (bs.drop (beforeLast bs.length)) (some false)]) ∧
      (r.icvOk = false → (s.img x).portStrict r.port = true → ∃ u, exec (.frameVerdict x r.id false false false) s = .next u ∧
        u.out = s.out ++ [.client (w.queue / 8) r.id [] (some true)]))

/-! ## Keys -/

/-- KEY_AREA_SET registers a domain's blob area (R277).  DOMAIN_CREATE and KEY_IMPORT draw a key with the next serial and
write its blob by DMA (R283, R561): nothing enters the key register before that; an erased module completes DOMAIN_CREATE
with LOCKED (R464). -/
def Sys2Proof.Claims.KeyCreationStartsWithItsBlob : Prop :=
  ∀ (x : Half) (h : Hdr) (d : Nat) (s : State), d < 16 →
    (∀ addr len, Executes s h 0x0101 x → serves h.fn d = true → 1048832 ≤ len → addr % 256 = 0 →
      exec (.keyAreaSet h d addr len) s = .next ((s.modImg x fun im => { im with
        areas := tabSet none im.areas d (some (addr, len)) }).done x h 0x0101)) ∧
    (∀ hd, hd = mkHandle 3 d 0 → Executes s h 0x0102 x → h.fn = 0 → ((s.img x).key hd).st = 0 →
      (s.img x).creating hd = false → tabGet none (s.img x).areas d ≠ none →
      (s.tam.seed = false → exec (.domainCreate h d) s = .next (s.postCpl x (cmdOf h 0x0102) stLocked 0 [])) ∧
      (s.tam.seed = true → (s.img x).serial < (s.img x).serialEnd → ∃ u, exec (.domainCreate h d) s = .next u ∧
        u = ({ s with fv := s.fv + 1 }.modImg x fun im => { im with serial := im.serial + 1 }).wait x
          { cmd := cmdOf h 0x0102, on := .dma, status := stDone, cflags := 0,
            result := [(4, hd), (8, (s.img x).serial)], area := none,
            cont := .create hd { st := 1, serial := (s.img x).serial, kind := 1, origin := 1, len256 := true,
                                 kcv := kcv true (Config.freeNat s.fv), key := Config.freeNat s.fv, run := s.flash.run,
                                 resident := true } })) ∧
    (∀ a, Executes s h 0x0103 x → hLanding a.parent = 3 → hDomain a.parent = d → serves h.fn d = true →
      importOk a = true → ((s.img x).key a.parent).st = 1 → a.kcv = none → (s.img x).count4 d < 4096 →
      tabGet none (s.img x).areas d ≠ none → (s.img x).serial < (s.img x).serialEnd →
      ∃ u i e, exec (.keyImport h a) s = .next u ∧ i < 4096 ∧ (s.img x).used4 d i = false ∧
        e = s.childOf x a.parent (s.img x).serial a.kind 4 a.len256 false (importKey a) 0 ∧
        u = ({ s with fv := s.fv + 1 }.modImg x fun im => { im with serial := im.serial + 1 }).wait x
          { cmd := cmdOf h 0x0103, on := .dma, status := stDone, cflags := 0, area := none,
            result := [(4, mkHandle 4 d i), (8, (s.img x).serial), (8, kcv a.len256 (importKey a))],
            cont := .create (mkHandle 4 d i) e })

/-- A new key exists once its blob has been written and read back, and its command completes once its record is durable
(R298, R561); a transfer that fails completes it with KEY_INVALID and leaves the key register alone. -/
def Sys2Proof.Claims.KeysExistOnceWrittenAndJournalled : Prop :=
  ∀ (x : Half) (h : Hdr) (j : Job) (hd a : Nat) (e : KeyEnt) (s : State), (s.img x).jobs = [j] → j.cmd.fn = h.fn →
    j.cmd.table = h.table → j.cmd.pos = h.pos → j.cmd.tag = h.tag →
    (s.executor h = some x → j.on = .dma → j.cont = .create hd e → s.board.powerFail = false →
      (s.img x).entryAddr hd = some a → (s.img x).parentLive hd e = true →
      (∃ u, exec (.dmaTransferEnd h true) s = .next u ∧ (u.img x).key hd = e ∧
        u.host = tabSet [] s.host (a + 128 * (e.gen % 2)) (s.blob x hd e) ∧
        u.flash.recs = s.flash.recs ++ [{ id := s.flash.nextRec, by_ := x, rec_ := .key hd e }] ∧
        (u.img x).jobs = [{ j with on := .flash s.flash.nextRec, cont := .finish }] ∧
        u.half x.other = s.half x.other ∧ u.tam = s.tam ∧ u.board = s.board ∧ u.out = s.out ∧
        (u.img x).regs = (s.img x).regs ∧ ∀ k, k ≠ hd → (u.img x).key k = (s.img x).key k) ∧
      (∃ u, exec (.dmaTransferEnd h false) s = .next u ∧ (u.img x).keys = (s.img x).keys ∧ (u.img x).jobs = [] ∧
        (u.half x).queue.getLast? = some (.command, .cpl
          { op := j.cmd.op, fn := h.fn, table := h.table, half := x, status := stKeyInvalid, tag := h.tag, pos := h.pos,
            cflags := 0, result := [] }) ∧ u.half x.other = s.half x.other ∧ u.flash = s.flash)) ∧
    (∀ id, s.holder = some x → s.flash.recs = [{ id, by_ := x, rec_ := .key hd e }] → j.on = .flash id →
      j.cmd.op ≠ 0x0820 → (s.img x).sessions = [] →
      exec (.flashRecordDurable id) s = .next
        (({ s with flash := { s.flash with recs := [], keys := tabSet {} s.flash.keys hd e } }.modImg x fun im =>
          { im with jobs := [] }).postKept x j.cmd j.status j.cflags j.result))

/-- KEY_REPLACE of a LIVE, imported landing-4 key at its present generation opens a gangway for the next (R285); a repeat
that names the generation before is answered ALREADY (R287); another generation is REJECTED_ARGS (R288), and a gangway in
use LOCKED.  Once the commit record is durable the key has the new generation, KCV and material under the same serial. -/
def Sys2Proof.Claims.ReplacementKeepsTheHandle : Prop :=
  ∀ (x : Half) (h : Hdr) (hd g addr m : Nat) (e : KeyEnt) (s : State), e = (s.img x).key hd →
    (Executes s h 0x0104 x → hLanding hd = 4 → serves h.fn (hDomain hd) = true → e.st = 1 →
      (g = e.gen → e.origin = 4 → (s.img x).gangways = [] → tabGet none (s.img x).areas (hDomain hd) ≠ none →
        exec (.keyReplace h hd g addr m none) s = .next
          ((s.modImg x fun im => { im with gangways :=
            [{ handle := hd, gen := e.gen + 1, key := m % (if e.len256 then 2 ^ 256 else 2 ^ 128),
               kcv := kcv e.len256 (m % (if e.len256 then 2 ^ 256 else 2 ^ 128)), rec_ := none }] }).wait x
            { cmd := cmdOf h 0x0104, on := .dma, status := stDone, cflags := 0, result := [(4, e.gen + 1)],
              area := none, cont := .replace hd true })) ∧
      (g = e.gen → ∀ v, (s.img x).gangways = [v] → v.handle = hd → exec (.keyReplace h hd g addr m none) s =
        .next (s.postCpl x (cmdOf h 0x0104) stLocked 0 [])) ∧
      (g + 1 = e.gen → exec (.keyReplace h hd g addr m (some e.kcv)) s =
        .next (s.postCpl x (cmdOf h 0x0104) stDone cfAlready [(4, e.gen)])) ∧
      (g + 1 ≠ e.gen → g ≠ e.gen →
        exec (.keyReplace h hd g addr m none) s = .next (s.postCpl x (cmdOf h 0x0104) stArgs 0 []))) ∧
    (∀ id gen kcv key, s.holder = some x → (s.img x).cas = [] → (s.img x).boundTribs hd = [] →
      (s.img x).sessions = [] → (s.img x).gangways = [{ handle := hd, gen, key, kcv, rec_ := some id }] →
      s.flash.recs = [{ id, by_ := x, rec_ := .commit hd gen kcv key }] →
      ∃ u, exec (.keyCommitDurable hd) s = .next u ∧ ((u.img x).key hd).gen = gen ∧ ((u.img x).key hd).kcv = kcv ∧
        ((u.img x).key hd).key = key ∧ ((u.img x).key hd).serial = e.serial ∧ (u.img x).gangways = [] ∧
        u.flash.recs = [] ∧ u.half x.other = s.half x.other ∧ u.tam = s.tam ∧ (u.img x).regs = (s.img x).regs)

/-- KEY_INVALIDATE of a key of landing 3 or 4 puts it into INVALID and its LIVE descendants into INVALID_PARENT, starts its
cascade, and completes once its record is durable (R289, R290); at the end of the grace they are ORPHANED.  KEY_FREE
returns an INVALID key without descendants to FREE (R293); a key in any other state is REJECTED_ARGS or KEY_INVALID. -/
def Sys2Proof.Claims.InvalidationCascades : Prop :=
  ∀ (x : Half) (h : Hdr) (hd : Nat) (e : KeyEnt) (s : State), e = (s.img x).key hd → handleOk h.fn hd = true →
    (Executes s h 0x0105 x → e.st = 1 → e.bound = none → e.mka = false →
      (hLanding hd ≠ 5 → 0 < (s.img x).graceS (hDomain hd) → s.board.powerFail = false →
        ∃ u, exec (.keyInvalidate h hd) s = .next u ∧ ((u.img x).key hd).st = 3 ∧
          (∀ k, k ≠ hd → descends hd e.serial ((s.img x).key k) = true → ((s.img x).key k).st = 1 →
            ((u.img x).key k).st = 2) ∧
          (∀ k, k ≠ hd → descends hd e.serial ((s.img x).key k) = false → (u.img x).key k = (s.img x).key k) ∧
          (u.img x).cascades = (s.img x).cascades ++
            [{ root := hd, grace := (s.img x).graceS (hDomain hd),
               endsAt := s.now + (s.img x).graceS (hDomain hd) * 1000000000 }] ∧
          u.flash.recs = s.flash.recs ++ [{ id := s.flash.nextRec, by_ := x, rec_ := .invalidate hd }] ∧
          (u.img x).jobs = (s.img x).jobs ++
            [{ cmd := cmdOf h 0x0105, on := .flash s.flash.nextRec, status := stDone, cflags := 0, result := [],
               area := none, cont := .finish }] ∧ u.half x.other = s.half x.other ∧ u.out = s.out ∧
          (u.img x).regs = (s.img x).regs) ∧
      (hLanding hd = 5 → exec (.keyInvalidate h hd) s =
        .next ((s.modImg x fun im => im.setKey hd { e with st := 3 }).done x h 0x0105))) ∧
    (∀ c, s.holder = some x → (s.img x).cascades = [c] → c.root = hd →
      (s.now < c.endsAt → exec (.cascadeGraceEnd hd) s = .next s) ∧
      (c.endsAt ≤ s.now → ∃ u, exec (.cascadeGraceEnd hd) s = .next u ∧ (u.img x).cascades = [] ∧
        (∀ k, descends hd e.serial ((s.img x).key k) = true → ((s.img x).key k).st = 2 → ((u.img x).key k).st = 4) ∧
        (∀ k, descends hd e.serial ((s.img x).key k) = false → (u.img x).key k = (s.img x).key k) ∧ Within x s u ∧
        (u.img x).regs = (s.img x).regs)) ∧
    (Executes s h 0x0106 x →
      (e.st = 0 → exec (.keyFree h hd) s = .next (s.postCpl x (cmdOf h 0x0106) stKeyInvalid 0 [])) ∧
      (e.st = 1 → exec (.keyFree h hd) s = .next (s.postCpl x (cmdOf h 0x0106) stArgs 0 [])) ∧
      (e.st = 3 → (s.img x).descendants hd = [] → (s.img x).cascades = [] →
        (hLanding hd = 5 → exec (.keyFree h hd) s =
          .next (((s.modImg x fun im => im.setKey hd {}).clearWharf x hd).done x h 0x0106)) ∧
        (hLanding hd ≠ 5 → s.board.powerFail = false → ∃ u, exec (.keyFree h hd) s = .next u ∧ (u.img x).key hd = {} ∧
          u.flash.recs = s.flash.recs ++ [{ id := s.flash.nextRec, by_ := x, rec_ := .free hd }] ∧
          (u.img x).jobs = (s.img x).jobs ++
            [{ cmd := cmdOf h 0x0106, on := .flash s.flash.nextRec, status := stDone, cflags := 0, result := [],
               area := none, cont := .finish }] ∧
          (∀ k, k ≠ hd → (u.img x).key k = (s.img x).key k) ∧ u.half x.other = s.half x.other ∧ u.out = s.out)))

/-- A landing-4 blob that passes every check of R276 makes its key resident (R281); a DMA that fails, or a blob that fails a
check, leaves it as it was and posts KEY_LOAD_FAIL with the check that failed first: format and run, SIV, what names the
key, the key's KCV, its parent, its state.  The key journal is compacted from 75 % of its area (R301). -/
def Sys2Proof.Claims.LoadsAreChecked : Prop :=
  ∀ (x : Half) (hd : Nat) (ok : Bool) (bs : List Nat) (m : List Nat × Bool) (fail : Option Nat) (e p : KeyEnt)
    (s : State), s.holder = some x → e = (s.img x).key hd → p = (s.img x).key e.parent → m = s.openBlob x hd bs →
    fail = (if ok = false then some 7
      else if blobAt bs 0 1 ≠ 1 ∨ (blobAt bs 28 8 ≠ 0 ∧ blobAt bs 28 8 ≠ s.flash.run) then some 0
      else if m.2 = false then some 1
      else if blobAt bs 4 4 ≠ hd ∨ blobAt bs 1 1 ≠ landingKind hd e ∨ blobAt bs 12 8 ≠ e.serial ∨
        blobAt bs 48 4 ≠ e.gen ∨ e.st = 0 ∨ e.st = 3 then some 2
      else if kcv (decide (blobAt bs 3 1 % 2 = 1)) (leNat (m.1.take 32)) ≠ blobAt bs 56 8 then some 3
      else if hLanding hd ≠ 3 ∧ ((p.st ≠ 1 ∧ p.st ≠ 2) ∨ p.serial ≠ blobAt bs 20 8) then some 4
      else if e.st ≠ 1 ∧ e.st ≠ 2 then some 5 else none) →
    ((s.img x).loads = [hd] → (s.img x).jobs = [] →
      match fail with
      | none => ∃ u, exec (.keyLoad hd ok bs) s = .next u ∧
          (u.img x).key hd = { e with resident := true, lastUse := s.now } ∧ (u.img x).loads = [] ∧ Within x s u ∧
          u.half x = { s.half x with img := u.img x } ∧ (u.img x).regs = (s.img x).regs
      | some c => exec (.keyLoad hd ok bs) s =
          .next ((s.modImg x fun im => { im with loads := [], jobs := [] }).postLoadFail x hd c)) ∧
    ((s.img x).loads = [] → exec (.keyLoad hd ok bs) s = .next s) ∧
    (s.flash.compacting = false → s.board.powerFail = false →
      (49152 ≤ s.flash.used → exec (.journalCompaction false) s =
        .next ({ s with flash := { s.flash with compacting := true } }.post x .cores 0x0104
          [(1, 0), (1, 100 * s.flash.used / 65536)])) ∧
      (s.flash.used < 49152 → exec (.journalCompaction false) s = .next s)) ∧
    (s.flash.compacting = true → ∃ u, exec (.journalCompaction true) s = .next u ∧ u.flash.compacting = false ∧
      u.flash.used ≤ 65536 ∧ u.flash.keys = s.flash.keys ∧ Within x { s with fv := s.fv + 1, flash := u.flash } u ∧
      u.img x = s.img x)

/-! ## Queries -/

/-- A query writes its result area by DMA and completes when that transfer ends (R558, R559): KEY_QUERY, TIME_READ,
LATENCY_READ, PKE_IDENTITY, PKE_CHARTER_READ, PKE_DIGEST, FW_QUERY, BIRTH_READ and CFG_EXPORT. The transfer's end
completes the command with its status, a failed one with INTEGRITY unless a lower-numbered failure applies (R16).
Model's choices in it: notes/assumptions/23.md, notes/assumptions/27.md, notes/assumptions/35.md,
notes/assumptions/77.md. Says where these complete: keyQuery, pkeDigest, pkeIdentity, pkeCharterRead, timeRead,
latencyRead, cfgExport, fwQuery, birthRead, dmaTransferEnd. -/
def Obligations.QueriesWriteTheirResultArea : Prop :=
  ∀ (x : Half) (h : Hdr) (addr : Nat) (s : State),
    (∀ hd, Executes s h 0x0107 x → handleOk h.fn hd = true → ((s.img x).key hd).st ≠ 0 →
      exec (.keyQuery h hd addr) s = .next (s.reply x h 0x0107 [] addr
        ((s.img x).blobHead hd ((s.img x).key hd) ((s.img x).key hd).st))) ∧
    (Executes s h 0x0303 x → exec (.timeRead h addr) s = .next (s.reply x h 0x0303 [] addr
      [instFld ((s.half x).tb 0).value, instFld ((s.half x).tb 1).value, instFld ((s.half x).tb 2).value,
       instFld ((s.half x).tb 3).value, (8, s.flash.run)])) ∧
    (∀ t, Executes s h 0x0306 x → t < 32 → (s.img x).tribEn t = true → exec (.latencyRead h t addr) s =
      .next (s.reply x h 0x0306 [] addr [(8, ((s.img x).latency t).1), (8, ((s.img x).latency t).2)])) ∧
    (Executes s h 0x0905 x → exec (.pkeIdentity h addr) s = .next (s.reply x h 0x0905
      [(1, s.flash.idgen), (8, (s.img x).hssNext)] addr
      [blockFld (idEcdsa (s.half x).kram.birth s.flash.idgen), (3, 0),
       blockFld (idHss (s.half x).kram.birth s.flash.idgen)])) ∧
    (∀ c, Executes s h 0x0907 x → s.flash.charter = some c → exec (.pkeCharterRead h addr 3972) s =
      .next (s.reply x h 0x0907 [(2, 3972)] addr [blockFld c.bytes])) ∧
    (Executes s h 0x0907 x → exec (.pkeCharterRead h addr 3971) s = .next (s.postCpl x (cmdOf h 0x0907) stArgs 0 [])) ∧
    (∀ n len m, Executes s h 0x0904 x → 1 ≤ n → n ≤ 6 → len ≤ 16777216 → s.pkeFull x h.fn = false →
      exec (.pkeDigest h n len addr m) s = .next (s.reply x h 0x0904 [] addr [blockFld (digestOf n m)])) ∧
    (Executes s h 0x0804 x → h.fn = 0 → exec (.fwQuery h addr) s = .next (s.reply x h 0x0804 [] addr
      (s.flash.slotFields 0 ++ s.flash.slotFields 1 ++
        [(1, s.a.boot.slot), (1, s.b.boot.slot), (1, s.flash.bootSlot)]))) ∧
    (Executes s h 0x0810 x → h.fn = 0 →
      exec (.birthRead h addr 3956) s = .next (s.reply x h 0x0810 [(2, 3956)] addr 
        [blockFld (birthRecord (birthSecret Config.fuse Config.puf))]) ∧
      exec (.birthRead h addr 3955) s = .next (s.postCpl x (cmdOf h 0x0810) stArgs 0 [])) ∧
    (∀ c cap, Executes s h 0x0821 x → h.fn = 0 → s.flash.config = some c → c.valid = true →
      (c.len ≤ cap → exec (.cfgExport h addr cap) s = .next (s.reply x h 0x0821 [(4, c.len)] addr c.bytes)) ∧
      (cap < c.len → exec (.cfgExport h addr cap) s = .next (s.postCpl x (cmdOf h 0x0821) stNoRes 0 []))) ∧
    (∀ j a, s.executor h = some x → (s.img x).jobs = [j] → j.cmd = cmdOf h j.cmd.op → j.on = .dma → j.cont = .finish →
      j.area = some (addr, a) → j.cmd.op ≠ 0x0820 →
      exec (.dmaTransferEnd h true) s = .next (({ s with host := tabSet [] s.host addr a }.modImg x fun im =>
        { im with jobs := [] }).postKept x j.cmd j.status j.cflags j.result) ∧
      ∃ u, exec (.dmaTransferEnd h false) s = .next u ∧
        u = ({ s with fv := s.fv + 1, host := u.host }.modImg x fun im =>
          { im with jobs := [] }).postKept x j.cmd
            (if j.status = stDone ∨ j.status = stLate then stIntegrity else min j.status stIntegrity) 0 [])

/-! ## The public-key engine -/

/-- An engine that is healthy starts a verification, a curve load or a signature on a free lane, to be released at its
deadline of Table 11.2, doubled under PACE_LIMIT (R344, R345); a failed one completes it with INTEGRITY (R351).
KEY_PROVENANCE and PKE_ATTEST take the next HSS index and hold their statement with its dual signature, whose ECDSA nonce
is free (R349, R356, R360). -/
def Sys2Proof.Claims.EngineStartsOperations : Prop :=
  ∀ (x : Half) (h : Hdr) (s : State), s.pkeFull x h.fn = false →
    (∀ a ns, Executes s h 0x0903 x → (s.img x).verifyNs a.alg = some ns → a.msg.length ≤ 16777216 →
      exec (.pkeVerify h a) s = .next (s.pkeOp x h 0x0903 ns
        (if (s.img x).verifyOk a then stDone else stPke) [] none
        .finish)) ∧
    (∀ slot addr c, Executes s h 0x0901 x → h.fn = 0 → slot < 8 → 192 ≤ c.bits → c.bits ≤ 521 →
      (s.img x).curveAt slot = false → exec (.pkeCurveLoad h slot addr c) s =
        .next (s.pkeOp x h 0x0901 20000000 (if curveOk c then stDone else stPke) [] none (.curve slot c))) ∧
    (∀ slot, Executes s h 0x0902 x → h.fn = 0 → (s.img x).curveAt slot = true → exec (.pkeCurveClear h slot) s =
      .next ((s.modImg x fun im => { im with curves := tabDel im.curves slot }).done x h 0x0902)) ∧
    (∀ hd ch addr r g, Executes s h 0x0108 x → handleOk h.fn hd = true → ((s.img x).key hd).st ≠ 0 →
      (s.img x).hssNext < (s.img x).hssEnd → (s.half x).pke.ok = true → r = s.provenance x hd ch →
      g = dualSign (s.half x).kram.birth s.flash.idgen (s.img x).hssNext (Config.freeNat s.fv) (fldsBytes r) →
      ∃ u, exec (.keyProvenance h hd ch addr) s = .next u ∧ (u.img x).hssNext = (s.img x).hssNext + 1 ∧
        (u.img x).jobs = (s.img x).jobs ++
          [{ cmd := cmdOf h 0x0108, on := .pke (s.half x).pke.nextId, status := stDone, cflags := 0, result := [],
             area := some (addr, r ++ [blockFld g]), cont := .sign }] ∧
        Within x { s with fv := s.fv + 1 } u ∧ (u.img x).keys = (s.img x).keys ∧ (u.img x).regs = (s.img x).regs) ∧
    (∀ ch addr r g, Executes s h 0x0906 x → (s.img x).hssNext < (s.img x).hssEnd → (s.half x).pke.ok = true →
      r = s.report x ch (s.img x).hssNext →
      g = dualSign (s.half x).kram.birth s.flash.idgen (s.img x).hssNext (Config.freeNat s.fv) (fldsBytes r) →
      ∃ u, exec (.pkeAttest h ch addr) s = .next u ∧ (u.img x).hssNext = (s.img x).hssNext + 1 ∧
        (u.img x).jobs = (s.img x).jobs ++
          [{ cmd := cmdOf h 0x0906, on := .pke (s.half x).pke.nextId, status := stDone, cflags := 0, result := [],
             area := some (addr, r ++ [blockFld g]), cont := .sign }] ∧
        Within x { s with fv := s.fv + 1 } u ∧ (u.img x).keys = (s.img x).keys ∧ (u.img x).regs = (s.img x).regs) ∧
    (∀ op ns st res area cont,
      ((s.half x).pke.ok = false → s.pkeOp x h op ns st res area cont = s.postCpl x (cmdOf h op) stIntegrity 0 []) ∧
      ((s.half x).pke.ok = true → (s.half x).pke.testing = false → (s.half x).pke.queue = [] →
        (s.half x).pke.lanes = [] →
        tabGet none ((s.pkeOp x h op ns st res area cont).half x).pke.lanes 0 =
          some { op := { id := (s.half x).pke.nextId, ns },
                 at_ := s.now + (if (s.half x).gov.paceLimit then 2 else 1) * ns }))

/-- The result of an operation is released at its deadline, not before (R344): the lane is free again and its command
completes, through its result area if it has one.  Known-answer tests that fail after a fault stop the engine and
complete its queue with INTEGRITY; tests that pass restore it (R351). -/
def Sys2Proof.Claims.ResultsAreReleasedAtTheirDeadline : Prop :=
  ∀ (x : Half) (s : State), (s.half x).up = true →
    (∀ r j, (s.half x).pke.lanes = [(0, some r)] → (s.half x).pke.queue = [] → (s.half x).ctrs = [] →
      (s.img x).jobs = [j] → j.on = .pke r.op.id → j.cont = .finish → j.area = none → j.cmd.op ≠ 0x0820 →
      (s.now < r.at_ → exec (.pkeRelease x 0 s.now true) s = .next s) ∧
      (r.at_ ≤ s.now → exec (.pkeRelease x 0 r.at_ true) s = .next ((s.modHalf x fun y =>
        { y with pke := { y.pke with lanes := [] }, img := { y.img with jobs := [] } }).postKept x j.cmd j.status j.cflags
          j.result))) ∧
    ((s.half x).pke.testing = true →
      ((s.half x).pke.queue = [] → exec (.pkeKatDone x true) s = .next (s.modHalf x fun y =>
        { y with pke := { y.pke with testing := false, ok := true } })) ∧
      ((s.half x).pke.queue = [] → (s.img x).jobs = [] → s.isActive x = false →
        exec (.pkeKatDone x false) s = .next ((s.modHalf x fun y =>
          { y with pke := { y.pke with testing := false, ok := false } }).pkeFault x 0 1 1))) ∧
    ((s.half x).pke.testing = false → ∀ ok, exec (.pkeKatDone x ok) s = .next s)

/-! ## Peers -/

namespace Sys2Proof.Claims

/-- Everything outside half `x` is as it was, but for what the module has sent. -/
def WithinOut (x : Half) (s t : State) : Prop := t = { s with out := t.out }.setHalf x (t.half x)

end Sys2Proof.Claims

/-- A piece of another version or of an unknown type is ignored; the first of several opens a reassembly, a further one
joins it, the last one completes it, and the message, a message of one piece too, takes effect: a hail as HAIL_RX has it.  A
piece that contradicts the ones before discards the reassembly, counted; one that only repeats does not contradict (the
model's reading, notes/assumptions/116.md) (R307).  A reassembly not complete 100 ms after its first piece is discarded and
counted. -/
def Sys2Proof.Claims.PiecesJoinReassemblies : Prop :=
  ∀ (x : Half) (c : Carrier) (p : Piece) (y lost : HState) (s : State), carrierOk c = true → y = s.half x →
    lost = { y with reasm := [],
                    reasmDrop := tabSet 0 y.reasmDrop (carrierKey c) (tabGet 0 y.reasmDrop (carrierKey c) + 1) } →
    (y.up = false ∨ p.version ≠ 1 ∨ pieceType p.ty = false → exec (.peerPieceRx x c p) s = .next s) ∧
    (y.up = true → p.version = 1 → pieceType p.ty = true →
      (pieceOk p = true → 2 ≤ p.pieces → y.reasm = [] → exec (.peerPieceRx x c p) s = .next (s.setHalf x
        { y with reasm := [{ c, ty := p.ty, sender := p.sender, session := p.session, total := p.total, pieces := p.pieces,
                             got := [(p.piece, p.data)], at_ := s.now }] })) ∧
      (pieceOk p = true → p.pieces = 1 → y.reasm = [] →
        exec (.peerPieceRx x c p) s = .next (s.takePeer x c p.ty p.session p.data) ∧
        (p.ty = 0x20 → p.data.length = 96 → exec (.peerPieceRx x c p) s = exec (.hailRx x c (hailOf p.data)) s)) ∧
      (pieceOk p = false → y.reasm = [] → exec (.peerPieceRx x c p) s = .next s) ∧
      (∀ r, y.reasm = [r] → r.takes c p = true →
        (pieceOk p = false ∨ r.pieces ≠ p.pieces → exec (.peerPieceRx x c p) s = .next (s.setHalf x lost)) ∧
        (pieceOk p = true → r.pieces = p.pieces →
          (pieceAt r.got p.piece = none → r.got.length + 1 < p.pieces → exec (.peerPieceRx x c p) s =
            .next (s.setHalf x { y with reasm := [{ r with got := r.got ++ [(p.piece, p.data)] }] })) ∧
          (pieceAt r.got p.piece = none → r.got.length + 1 = p.pieces → exec (.peerPieceRx x c p) s =
            .next ((s.setHalf x { y with reasm := [] }).takePeer x c p.ty p.session
              (bodyOf p.pieces (r.got ++ [(p.piece, p.data)])))) ∧
          (pieceAt r.got p.piece = some p.data → exec (.peerPieceRx x c p) s = .next s) ∧
          (∀ d, d ≠ p.data → pieceAt r.got p.piece = some d →
            exec (.peerPieceRx x c p) s = .next (s.setHalf x lost))))) ∧
    (∀ r, y.reasm = [r] → r.c = c →
      (r.at_ + 100000000 ≤ s.now →
        exec (.reassemblyTimeout x c r.ty r.sender r.session) s = .next (s.setHalf x lost)) ∧
      (s.now < r.at_ + 100000000 → ∃ u, exec (.reassemblyTimeout x c r.ty r.sender r.session) s = .next u ∧
        (u.half x).reasm = [r] ∧ Within x s u ∧ u.img x = s.img x))

/-- Every HAIL_MS the half that holds the helm sends a HAIL with the next HAIL_SEQ on a carrier instance that carries hails,
in a running, enrolled module whose hails are enabled (R309); on a causeway lane it goes out with every other lane that is
due (R84).  A hail of the own domain makes its sender PRESENT: a new member arrives (PEER_ARRIVED), one known with the same
digest is heard again, one MOORED resumes, and a tributary torn down with it starts a key change (R315); a known member with
another digest is a conflict and changes nothing of its entry (R310–R312, R314); a foreign one is reported and changes no
peer. -/
def Sys2Proof.Claims.HailsKeepThePeerTable : Prop :=
  ∀ (x : Half) (c : Carrier) (b : HailBody) (ch : Charter) (s : State), carrierOk c = true → s.holder = some x →
    s.flash.charter = some ch →
    (s.phase = .running → bit ((s.img x).reg 0 0xA00004) 31 = true → (s.img x).hush ≤ s.now → s.hailDue x c = true →
      ((∀ k, c ≠ .lane k) → exec (.hailSend c) s = .next ((s.modHalf x fun y => { y with
        hailSeq := tabSet 0 y.hailSeq (carrierKey c) ((tabGet 0 y.hailSeq (carrierKey c) + 1) % 65536),
        hailAt := tabSet 0 y.hailAt (carrierKey c) (s.now + 1) }).sendPiece x c
          (pieceBytes 0x20 ch.member 0 0 (s.hailBody x ch c (tabGet 0 (s.half x).hailSeq (carrierKey c)))))) ∧
      (∀ k, c = .lane k → ∃ u, exec (.hailSend c) s = .next u ∧ Within x s u ∧ u.img x = s.img x ∧
        ∀ j, j < 32 →
          (s.hailDue x (.lane j) = true → tabGet 0 (u.half x).hailAt j = s.now + 1 ∧
            tabGet 0 (u.half x).hailSeq j = (tabGet 0 (s.half x).hailSeq j + 1) % 65536 ∧
            tabGet [] (u.half x).hailTx j = tabGet [] (s.half x).hailTx j ++ segmentsOf 32 (withCrc
              (pieceBytes 0x20 ch.member 0 0 (s.hailBody x ch (.lane j) (tabGet 0 (s.half x).hailSeq j))))) ∧
          (s.hailDue x (.lane j) = false → tabGet [] (u.half x).hailTx j = tabGet [] (s.half x).hailTx j ∧
            tabGet 0 (u.half x).hailSeq j = tabGet 0 (s.half x).hailSeq j))) ∧
    (s.hailDue x c = false → exec (.hailSend c) s = .next s) ∧
    ((s.half x).up = true → b.member ≠ s.member → 10 ≤ b.hailMs → b.hailMs ≤ 1000 → b.member < 8192 →
      (some b.mdomain = s.mdomain →
        (∀ p, (s.img x).peer b.member = some p → p.digest = b.digest → p.run = b.run → ∃ u e,
          exec (.hailRx x c b) s = .next u ∧ (u.img x).peer b.member = some e ∧ e.digest = b.digest ∧ e.run = b.run ∧
          e.caps = b.caps ∧ e.hailMs = b.hailMs ∧ e.moored = none ∧ carrierKey c ∈ e.assoc ∧ (∀ k ∈ p.assoc, k ∈ e.assoc) ∧
          tabGet 0 (u.half x).heard (heardKey b.member (carrierKey c)) = s.now + 1 ∧
          (u.img x).regs = (s.img x).regs ∧ (u.img x).sessions = (s.img x).sessions ∧
          (∀ r, r < 32 → 32 + r ∈ e.assoc → (s.img x).termTrib r = true → ((s.img x).txA r).torn = true →
            (s.img x).bindLive r = true → ((s.img x).txA r).spent = false → ((u.img x).txA r).st = .announced) ∧
          ((∀ r, r < 32 → ((s.img x).txA r).torn = false) → Within x s u ∧ (u.img x).tx = (s.img x).tx ∧
            (p.moored = none → (u.half x).queue = (s.half x).queue))) ∧
        (∀ p, (s.img x).peer b.member = some p → p.digest ≠ b.digest → p.moored = none → ∃ u,
          exec (.hailRx x c b) s = .next u ∧ Within x s u ∧ ((u.img x).peer b.member = some p) ∧
          (u.half x).heard = (s.half x).heard) ∧
        ((s.img x).peers = [] → (s.img x).pairings = [] → (∀ r, r < 32 → ((s.img x).txA r).torn = false) →
          exec (.hailRx x c b) s = .next
          (((s.modImg x fun im => { im with peers := tabSet none [] b.member (some
              { digest := b.digest, run := b.run, caps := b.caps, hailMs := b.hailMs, moored := none,
                assoc := [carrierKey c] }) }).modHalf x fun y => { y with
              heard := tabSet 0 y.heard (heardKey b.member (carrierKey c)) (s.now + 1) }).post x .cores 0x0401
            [(2, b.member), (48, b.digest), (8, b.run), (4, b.caps), (1, carrierKey c), (1, 0)]))) ∧
      (some b.mdomain ≠ s.mdomain → ∃ u, exec (.hailRx x c b) s = .next u ∧ Within x s u ∧ u.img x = s.img x ∧
        (u.half x).heard = (s.half x).heard))

/-- A carrier instance silent for three hail intervals and 10 ms is lost; when the last one of a PRESENT peer is lost it is
MOORED with PEER_DEPARTED (R313).  When its mooring time ends, or at PEER_RELEASE, its associations are torn down, every
slot of the tributaries toward it is erased, and its entry goes (R315).  PEER_RELEASE of a peer that is not MOORED is
REJECTED_ARGS; PEER_QUERY returns the entry. -/
def Sys2Proof.Claims.PeersDepartMooredAndAreReleased : Prop :=
  ∀ (x : Half) (h : Hdr) (m : Nat) (p : Peer) (s : State), m < 8192 → s.holder = some x → (s.img x).peer m = some p →
    (∀ c t, carrierOk c = true → t = tabGet 0 (s.half x).heard (heardKey m (carrierKey c)) → t ≠ 0 →
      tabGet 0 (s.half x.other).heard (heardKey m (carrierKey c)) = 0 →
      (s.now ≤ t - 1 + 3 * p.hailMs * 1000000 + 10000000 → exec (.carrierLoss m c) s = .next s) ∧
      (t - 1 + 3 * p.hailMs * 1000000 + 10000000 < s.now → p.moored = none → (s.img x).moorMs ≠ 0 →
        (∀ k, k < 96 → k ≠ carrierKey c → tabGet 0 (s.half x).heard (heardKey m k) = 0) →
        exec (.carrierLoss m c) s = .next (((s.modHalf x fun y => { y with
            heard := tabDel y.heard (heardKey m (carrierKey c)) }).modImg x fun im => { im with
            peers := tabSet none im.peers m (some { p with moored := some s.now }) }).post x .cores 0x0402
          [(2, m), (2, (s.img x).moorable p)])) ∧
      (t - 1 + 3 * p.hailMs * 1000000 + 10000000 < s.now →
        (∃ k, k < 96 ∧ k ≠ carrierKey c ∧ tabGet 0 (s.half x).heard (heardKey m k) ≠ 0) →
        exec (.carrierLoss m c) s = .next (s.modHalf x fun y => { y with
          heard := tabDel y.heard (heardKey m (carrierKey c)) }))) ∧
    (∀ t, p.moored = some t →
      (s.now < t + (s.img x).moorMs * 1000000 → exec (.peerMoorExpire m) s = .next s) ∧
      (t + (s.img x).moorMs * 1000000 ≤ s.now → ∃ u, exec (.peerMoorExpire m) s = .next u ∧ (u.img x).peer m = none ∧
        (∀ r, r < 32 → 32 + r ∈ p.assoc → (s.img x).termTrib r = true →
          ((u.img x).txA r).slots = [{}, {}, {}, {}] ∧ ((u.img x).rxA r).slots = [{}, {}, {}, {}] ∧
          ((u.img x).txA r).st = .noKey ∧ ((u.img x).txA r).bound = ((s.img x).txA r).bound) ∧
        (∀ r, 32 + r ∉ p.assoc → (u.img x).txA r = (s.img x).txA r ∧ (u.img x).rxA r = (s.img x).rxA r) ∧
        u.half x.other = s.half x.other ∧ (u.img x).regs = (s.img x).regs ∧ u.tam = s.tam) ∧
      (Executes s h 0x0404 x → h.fn = 0 → s.flash.charter ≠ none → ∃ u, exec (.peerRelease h m) s = .next u ∧
        (u.img x).peer m = none ∧ Completed u x h 0x0404 stDone [] ∧ u.half x.other = s.half x.other ∧
        (∀ r, r < 32 → 32 + r ∈ p.assoc → (s.img x).termTrib r = true →
          ((u.img x).txA r).slots = [{}, {}, {}, {}] ∧ ((u.img x).rxA r).slots = [{}, {}, {}, {}]) ∧
        (u.img x).regs = (s.img x).regs ∧ u.tam = s.tam)) ∧
    (p.moored = none → Executes s h 0x0404 x →
      exec (.peerRelease h m) s = .next (s.postCpl x (cmdOf h 0x0404) stArgs 0 [])) ∧
    (Executes s h 0x0403 x → h.fn = 0 → ∀ addr, exec (.peerQuery h m addr) s = .next (s.reply x h 0x0403 [] addr
      [(1, if p.moored = none then 0 else 1), (48, p.digest), (8, p.run), (4, p.caps),
       (12, (((s.half x).hears m).map (2 ^ ·)).sum)]))

/-- REKEY_SET arms the periodic rekey of a target that the function may command, in place of any it had, and completes
with DONE; REKEY_CLEAR frees its entry (R336).  Both are REJECTED_ARGS in a module without a charter.  After
STEP_DELAY_MS a tributary bound to a replaced CWY_ASSOC key starts a key change (R335). -/
def Sys2Proof.Claims.RekeysAreSetAndCleared : Prop :=
  ∀ (x : Half) (h : Hdr) (k : RekeyKind) (i : Nat) (s : State),
    (Executes s h 0x0431 x → ∀ tb f p, tb < 4 → instantOk f = true → ((s.half x).tb tb).valid = true → 1 ≤ p →
      p ≤ 2 ^ 31 → (s.img x).rekeyOpen h.fn k i = true →
      (s.flash.charter ≠ none → (s.img x).rekeyEntry k i = none → (s.img x).schedFull h.fn 1 = false →
        ∃ j u, j < 256 ∧ (s.img x).schedAt j = none ∧ exec (.rekeySet h k i tb f p) s = .next u ∧
        (u.img x).schedAt j = some
          { cmd := none, fn := h.fn, op := 0x0431, tb, at_ := f.time, first := f.time, period := p, act := .rekey k i,
            mark := (s.img x).seq, order := (s.img x).armed,
            late := decide (tvUnits f.time ≤ tvUnits ((s.half x).tb tb).value) } ∧
        (∀ n, n ≠ j → (u.img x).schedAt n = (s.img x).schedAt n) ∧ tabGet 0 (u.img x).skips (rekeyKey k i) = 0 ∧
        Completed u x h 0x0431 stDone [] ∧ Within x { s with fv := s.fv + 1 } u ∧ (u.img x).regs = (s.img x).regs) ∧
      (s.flash.charter = none →
        exec (.rekeySet h k i tb f p) s = .next (s.postCpl x (cmdOf h 0x0431) stArgs 0 []))) ∧
    (Executes s h 0x0432 x → (s.img x).rekeyOpen h.fn k i = true →
      (∀ j, s.flash.charter ≠ none → (s.img x).rekeyEntry k i = some j → exec (.rekeyClear h k i) s = .next
        ((s.modImg x fun im => { im with sched := tabSet none im.sched j none }).done x h 0x0432)) ∧
      ((s.img x).rekeyEntry k i = none →
        exec (.rekeyClear h k i) s = .next (s.postCpl x (cmdOf h 0x0432) stArgs 0 []))) ∧
    (∀ a hd, i < 32 → s.holder = some x → tabGet 0 (s.img x).stepAt i ≠ 0 → a = (s.img x).txA i → a.bound = some hd →
      (s.now < tabGet 0 (s.img x).stepAt i - 1 → exec (.cwyReplaceStep i) s = .next s) ∧
      (tabGet 0 (s.img x).stepAt i - 1 ≤ s.now → a.st = .run → ((s.img x).key hd).st = 1 → a.spent = false →
        (s.img x).termTrib i = true → exec (.cwyReplaceStep i) s =
          .next ((s.modImg x fun im => { im with stepAt := tabSet 0 im.stepAt i 0 }).startKeyChange x i)) ∧
      (tabGet 0 (s.img x).stepAt i - 1 ≤ s.now → a.st = .announced → exec (.cwyReplaceStep i) s =
          .next (s.modImg x fun im => { im with stepAt := tabSet 0 im.stepAt i 0 })))

/-! ## Key agreement -/

namespace Sys2Proof.Claims

/-- The exchange has ended without a key (Table 10.9): its session is erased, ABORT leaves when `abort`, ZKA_FAILED is
posted with the cause; registers, keys, pairings and the other half are as they were. -/
def EndsSession (s : State) (x : Half) (z : Zka) (cause : Nat) (abort received : Bool) (t : State) : Prop :=
  (∃ u, u = (s.modImg x fun im => { im with
      sessions := im.sessions.filter (fun v => !v.same z), autoAt := tabSet 0 im.autoAt z.pairing (s.now + 1) }) ∧
    t = (if abort then u.sendPeer x z.carrier 0x34 z.session [cause, 0, 0, 0] else u).post x .cores 0x0408
      [(4, z.session), (2, z.pairing), (1, b2n (!z.initiator)), (1, cause), (1, b2n received), (4, 0)]
      (.dom ((s.img x).pairDomain z.pairing))) ∧
  t.half x.other = s.half x.other ∧ (t.img x).regs = (s.img x).regs ∧ (t.img x).keys = (s.img x).keys ∧
  (t.img x).pairings = (s.img x).pairings

/-- A session as initiator has been opened on pairing `i`: its number is not 0, and OFFER has left on the pairing's
carrier instance with a nonce and two public keys that are new. -/
def Opened (s : State) (x : Half) (i : Nat) (p : Pairing) (z : Zka) (t : State) : Prop :=
  t = ({ s with fv := s.fv + 4 }.modImg x fun im => { im with sessions := im.sessions ++ [z] }).sendPeer x
    (pairingCarrier p) 0x30 z.session z.offer ∧
  z.initiator = true ∧ z.st = .offered ∧ z.pairing = i ∧ z.peer = p.member ∧ z.session ≠ 0 ∧ z.session < 2 ^ 32 ∧
  z.carrier = pairingCarrier p ∧ z.since = s.now ∧
  (∃ nonce c seed, z.offer = s.offerBody p nonce (ephemeral c).2 (mlkemKeys seed).1 ∧ z.scalar = (ephemeral c).1 ∧
    z.dk = (mlkemKeys seed).2) ∧
  t.half x.other = s.half x.other ∧ (t.img x).regs = (s.img x).regs ∧ (t.img x).keys = (s.img x).keys

/-- An OFFER has been taken up: it is remembered, and its session stands. -/
def TakenUp (s : State) (x : Half) (z : Zka) : State :=
  s.modImg x fun im => { im with offers := [(z.peer, z.session, s.now)], sessions := [z] }

/-- The agreed key is created under a free handle and its record is on its way, or the key step has failed: then the exchange
has ended with cause 12 and every key is as it was. -/
def Installs (s : State) (x : Half) (z : Zka) (p : Pairing) (ak : Nat) (t : State) : Prop :=
  t.half x.other = s.half x.other ∧ (t.img x).regs = (s.img x).regs ∧
  (((t.img x).sessions = [] ∧ (t.img x).keys = (s.img x).keys ∧ ∃ e, (t.half x).queue.getLast? = some (.cores, .ev e) ∧
      e.code = 0x0408 ∧ e.payload = [(4, z.session), (2, z.pairing), (1, b2n (!z.initiator)), (1, 12), (1, 0), (4, 0)]) ∨
    ∃ id hd v, (t.img x).sessions = [v] ∧ v.session = z.session ∧ v.st = .installing ∧ v.rec_ = some id ∧ v.handle = hd ∧
      ((s.img x).key hd).st = 0 ∧ ((t.img x).key hd).st = 1 ∧ ((t.img x).key hd).key = ak ∧
      ((t.img x).key hd).origin = 2 ∧ ((t.img x).key hd).kind = purposeKind p.purpose ∧
      ((t.img x).key hd).ckn = agreedCkn s.member p.member p.tag ∧ ∀ k, k ≠ hd → (t.img x).key k = (s.img x).key k)

end Sys2Proof.Claims

/-- PAIRING_SET and PAIRING_CLEAR set and clear one pairing (R317).  ZKA_START on a pairing whose peer is PRESENT, with a
session, an HSS index and the domain key at hand, opens a session and sends OFFER (R323); without the peer it is
REJECTED_ARGS.  An AUTO pairing starts of itself TIMEOUT_MS after a failure (R319).  ZKA_CANCEL ends a session with cause
15 and ABORT (R341). -/
def Sys2Proof.Claims.PairingsOpenSessions : Prop :=
  ∀ (x : Half) (h : Hdr) (i : Nat) (p : Pairing) (s : State), s.flash.charter ≠ none →
    (s.img x).pairingOpen h.fn i = true →
    (Executes s h 0x0401 x → serves h.fn p.domain = true → p.member < 8192 → p.object < 32 → p.domain < 16 →
      p.tag < 2 ^ 32 →
      (p.target = 0 → exec (.pairingSet h i p) s = .next ((s.modImg x fun im => { im with
        pairings := tabSet none im.pairings i (some p), autoAt := tabSet 0 im.autoAt i 0 }).done x h 0x0401)) ∧
      (p.target ≠ 0 → hLanding p.target = 4 → hDomain p.target = p.domain → ((s.img x).key p.target).st = 0 →
        exec (.pairingSet h i p) s = .next (s.postCpl x (cmdOf h 0x0401) stKeyInvalid 0 []))) ∧
    (Executes s h 0x0402 x → (∀ z ∈ (s.img x).sessions, z.open = true → z.pairing ≠ i) →
      exec (.pairingClear h i) s = .next ((s.modImg x fun im => { im with
        pairings := tabSet none im.pairings i none, autoAt := tabSet 0 im.autoAt i 0 }).done x h 0x0402)) ∧
    ((s.img x).pairing i = some p → p.target = 0 → (s.img x).openSessions.length < 64 → s.hssSpent x = false →
      ((s.img x).key (mkHandle 3 p.domain 0)).st = 1 →
      (Executes s h 0x0411 x →
        ((s.img x).present p.member = true → ∃ t z, Opened s x i p z t ∧
          exec (.zkaStart h i) s = .next (t.done x h 0x0411 [(4, z.session)])) ∧
        ((s.img x).present p.member = false →
          exec (.zkaStart h i) s = .next (s.postCpl x (cmdOf h 0x0411) stArgs 0 []))) ∧
      (s.holder = some x → i < 2048 → p.auto = true → s.member < p.member → tabGet 0 (s.img x).autoAt i ≠ 0 →
        (s.now < tabGet 0 (s.img x).autoAt i - 1 + (s.img x).zkaTimeout → exec (.zkaAutoStart i) s = .next s) ∧
        (tabGet 0 (s.img x).autoAt i - 1 + (s.img x).zkaTimeout ≤ s.now → (s.img x).present p.member = true →
          ∃ t z, Opened s x i p z t ∧
            exec (.zkaAutoStart i) s = .next (t.modImg x fun im => { im with autoAt := tabSet 0 im.autoAt i 0 })))) ∧
    (∀ z, (s.img x).sessions = [z] → z.open = true → serves h.fn ((s.img x).pairDomain z.pairing) = true →
      Executes s h 0x0412 x → ∃ t, EndsSession s x z 15 true false t ∧
        exec (.zkaCancel h z.session) s = .next (t.done x h 0x0412))

/-- An offer is refused with the first cause that applies: its length and codes, its domain or its responder, no pairing;
each leaves the sessions as they were and is answered with ABORT (R323, R326).  Otherwise the responder asks for the
initiator's charter if it does not hold it (R324), and answers once it does: it takes an HSS index and sends ANSWER with its
signature over TH_A (R320).  A charter that is not the peer's, inputs that R346 refuses and spent HSS indices end the
exchange. -/
def Sys2Proof.Claims.OffersAreAnswered : Prop :=
  ∀ (x : Half) (c : Carrier) (n : Nat) (b : List Nat) (s : State), carrierOk c = true → s.holder = some x →
    s.flash.charter ≠ none → (s.img x).sessions = [] → (s.img x).offers = [] →
    (∀ k, (offerOk b = false ∧ k = 1) ∨
        (offerOk b = true ∧ (some (ofMdomain b) ≠ s.mdomain ∨ ofRespId b ≠ s.member) ∧ k = 2) ∨
        (offerOk b = true ∧ some (ofMdomain b) = s.mdomain ∧ ofRespId b = s.member ∧ (s.img x).matching b = none ∧ k = 2) →
      exec (.zkaOfferRx c { session := n, body := b }) s = .next ((s.modImg x fun im => { im with
        offers := [(ofInitId b, n, s.now)] }).sendPeer x c 0x34 n [k, 0, 0, 0])) ∧
    (∀ i z, offerOk b = true → some (ofMdomain b) = s.mdomain → ofRespId b = s.member → (s.img x).matching b = some i →
      (s.img x).present (ofInitId b) = true → s.hssSpent x = false →
      z = { session := n, initiator := false, pairing := i, peer := ofInitId b, carrier := c, st := .wantCharter,
            since := s.now, at_ := s.now, sends := 0, want := some (ofCharter b), offer := b } →
      ∃ t, exec (.zkaOfferRx c { session := n, body := b }) s = .next t ∧
        ((s.img x).cached (ofCharter b) = none →
          t = (TakenUp s x z).sendPeer x c 0x21 0 (leBytes 48 (ofCharter b))) ∧
        (∀ ch, (s.img x).cached (ofCharter b) = some ch →
          (s.peerCharter (ofInitId b) ch = false → EndsSession (TakenUp s x z) x z 3 true false t) ∧
          (s.peerCharter (ofInitId b) ch = true →
            (readPoint p384 (ofPoint b)).isNone = true ∨ ekOk (ofEk b) = false →
            EndsSession (TakenUp s x z) x z 5 true false t) ∧
          (s.peerCharter (ofInitId b) ch = true → (readPoint p384 (ofPoint b)).isSome = true → ekOk (ofEk b) = true →
            ∃ (w : State) (v : Zka) (k nonce m : Nat) (u sig : List Nat), t = w.sendPeer x c 0x31 n (u ++ withLen sig) ∧
              u = s.answerBody (ofTag b) nonce (ephemeral k).2 (mlkemEncaps (ofEk b) m).1 ∧
              v = { z with st := .answered, want := none, theirs := some ch, ssk := (mlkemEncaps (ofEk b) m).2,
                           sse := (ecdh p384 (ephemeral k).1 (ofPoint b)).getD [], ths := thS (thA n b u) sig } ∧
              (t.img x).sessions = [v] ∧ t.half x.other = s.half x.other ∧
              ((s.img x).hssNext < (s.img x).hssEnd → (t.img x).hssNext = (s.img x).hssNext + 1 ∧ t.flash = s.flash ∧
                sig = dualSign (s.half x).kram.birth s.flash.idgen (s.img x).hssNext (Config.freeNat (s.fv + 3))
                  (sigMsgR (thA n b u))) ∧
              (t.img x).regs = (s.img x).regs ∧ (t.img x).keys = (s.img x).keys)))

/-- The initiator checks ANSWER and sends FINISH with MAC_I and its signature over TH_S (R320, R323), asking for the
responder's charter first where it lacks it; each check of the answer that fails ends the exchange with its cause.  FINISH
goes out again after 200 ms without DONE, at most 10 times.  A right MAC_R installs the key, a wrong one ends the exchange
with cause 6. -/
def Sys2Proof.Claims.InitiatorFollowsItsTable : Prop :=
  ∀ (x : Half) (c : Carrier) (z : Zka) (p : Pairing) (s : State), carrierOk c = true → s.holder = some x →
    (s.img x).sessions = [z] → z.initiator = true → z.carrier = c → (s.img x).pairing z.pairing = some p →
    (∀ b, z.st = .offered → z.want = none →
      (answerOk b = false → ∃ t, exec (.zkaAnswerRx c { session := z.session, body := b }) s = .next t ∧ EndsSession s x z 1 true false t) ∧
      (answerOk b = true → anTag b ≠ ofTag z.offer ∨ anRespId b ≠ z.peer →
        ∃ t, exec (.zkaAnswerRx c { session := z.session, body := b }) s = .next t ∧ EndsSession s x z 2 true false t) ∧
      (answerOk b = true → anTag b = ofTag z.offer → anRespId b = z.peer → s.hssSpent x = false →
        ∃ t, exec (.zkaAnswerRx c { session := z.session, body := b }) s = .next t ∧
        ((s.img x).cached (anCharter b) = none → t = (s.modImg x fun im => { im with
          sessions := [{ z with want := some (anCharter b), answer := b }] }).sendPeer x c 0x21 0
            (leBytes 48 (anCharter b))) ∧
        (∀ ch ok good okm ths, (s.img x).cached (anCharter b) = some ch →
          ok = dualOk ch.ecdsa ch.hss (sigMsgR (thA z.session z.offer b)) (anSig b) →
          good = ((readPoint p384 (anPoint b)).isSome && ctOk (anCt b)) →
          ths = thS (thA z.session z.offer b) (anSig b) →
          okm = okmOf ((ecdh p384 z.scalar (anPoint b)).getD []) (mlkemDecaps z.dk (anCt b)) ths →
          (s.peerCharter z.peer ch = false → EndsSession s x z 3 true false t) ∧
          (s.peerCharter z.peer ch = true → ok = false → EndsSession s x z 4 true false t) ∧
          (s.peerCharter z.peer ch = true → ok = true → good = false → EndsSession s x z 5 true false t) ∧
          (s.peerCharter z.peer ch = true → ok = true → good = true → ∃ (w : State) (v : Zka) (sig : List Nat),
            t = w.sendPeer x c 0x32 z.session v.finish ∧ (t.img x).sessions = [v] ∧ v.st = .finished ∧ v.at_ = s.now ∧
            v.sends = 1 ∧ v.session = z.session ∧ v.finish = v.macI ++ withLen sig ∧
            v.macI = macIOf (kcOf okm) ths sig ∧ v.macR = macROf (kcOf okm) ths v.macI ∧ v.ak = akOf p.purpose okm ∧
            t.half x.other = s.half x.other ∧
            ((s.img x).hssNext < (s.img x).hssEnd → (t.img x).hssNext = (s.img x).hssNext + 1 ∧ t.flash = s.flash ∧
              sig = dualSign (s.half x).kram.birth s.flash.idgen (s.img x).hssNext (Config.freeNat s.fv) (sigMsgI ths)) ∧
            (t.img x).regs = (s.img x).regs ∧ (t.img x).keys = (s.img x).keys)))) ∧
    (z.st = .finished →
      (z.at_ + 200000000 ≤ s.now → z.sends < 10 → exec (.zkaFinishResend z.session) s =
        .next ((s.modImg x fun im => { im with
          sessions := [{ z with at_ := s.now, sends := z.sends + 1 }] }).sendPeer x c 0x32 z.session z.finish)) ∧
      (s.now < z.at_ + 200000000 ∨ 10 ≤ z.sends → exec (.zkaFinishResend z.session) s = .next s) ∧
      (∀ b, b.length ≠ 32 → ∃ t, exec (.zkaDoneRx c z.session b) s = .next t ∧ EndsSession s x z 1 true false t) ∧
      (∀ b, b.length = 32 → b ≠ z.macR →
        ∃ t, exec (.zkaDoneRx c z.session b) s = .next t ∧ EndsSession s x z 6 true false t) ∧
      (p.target = 0 → z.macR.length = 32 →
        ∃ t, exec (.zkaDoneRx c z.session z.macR) s = .next t ∧ Installs s x z p z.ak t))

/-- The responder verifies FINISH, its signature and MAC_I, and installs the key (R320, R323, R325); a check that fails ends
the exchange with its cause.  Once the record is durable it sends DONE, posts ZKA_DONE, is CLOSED for 30 s, and the pairing
has the new handle.  A repeated FINISH that the record of R328 knows draws DONE again. -/
def Sys2Proof.Claims.ResponderFollowsItsTable : Prop :=
  ∀ (x : Half) (c : Carrier) (z : Zka) (p : Pairing) (s : State), carrierOk c = true → s.holder = some x →
    s.flash.charter ≠ none → z.initiator = false → z.carrier = c → (s.img x).pairing z.pairing = some p → p.target = 0 →
    (∀ b okm ok mac, (s.img x).sessions = [z] → z.st = .answered → okm = okmOf z.sse z.ssk z.ths →
      ok = (z.theirs.any fun ch => dualOk ch.ecdsa ch.hss (sigMsgI z.ths) (fiSig b)) →
      mac = macIOf (kcOf okm) z.ths (fiSig b) →
      (finishOk b = false → ∃ t, exec (.zkaFinishRx c { session := z.session, body := b }) s = .next t ∧ EndsSession s x z 1 true false t) ∧
      (finishOk b = true → ∃ t, exec (.zkaFinishRx c { session := z.session, body := b }) s = .next t ∧
        (ok = false → EndsSession s x z 4 true false t) ∧
        (ok = true → fiMac b ≠ mac → EndsSession s x z 6 true false t) ∧
        (ok = true → fiMac b = mac → Installs s x z p (akOf p.purpose okm) t))) ∧
    (∀ id e, (s.img x).sessions = [z] → z.st = .installing → z.rec_ = some id → (s.img x).jobs = [] →
      s.flash.recs = [{ id, by_ := x, rec_ := .key z.handle e }] → s.flash.zkaRecs = [] →
      exec (.flashRecordDurable id) s = .next ((({ s with flash := { s.flash with
          recs := [], keys := tabSet {} s.flash.keys z.handle e,
          zkaRecs := [{ session := z.session, macI := z.macI, macR := z.macR, at_ := s.now }] } }.modImg x fun im =>
        { im with
          sessions := [{ z with st := .closed, at_ := s.now, ak := 0, kc := [], scalar := 0, sse := [], ssk := [] }],
          pairings := tabSet none im.pairings z.pairing (some { p with target := z.handle }) }).sendPeer x c 0x33
        z.session z.macR).post x .cores 0x0407
        [(4, z.session), (2, z.pairing), (1, 1), (4, z.handle), (4, ((s.img x).key z.handle).gen),
         (8, ((s.img x).key z.handle).kcv)] (.dom p.domain))) ∧
    (∀ b r, (s.img x).sessions = [] → s.flash.zkaRecs = [r] → r.macI = fiMac b →
      (s.now < r.at_ + 30000000000 →
        exec (.zkaFinishRx c { session := r.session, body := b }) s = .next (s.sendPeer x c 0x33 r.session r.macR)) ∧
      (r.at_ + 30000000000 ≤ s.now → exec (.zkaFinishRx c { session := r.session, body := b }) s = .next s)) ∧
    ((s.img x).sessions = [z] → z.st = .closed →
      (z.at_ + 30000000000 ≤ s.now → exec (.zkaClosedExpire z.session) s =
        .next (s.modImg x fun im => { im with sessions := [] })) ∧
      (s.now < z.at_ + 30000000000 → exec (.zkaClosedExpire z.session) s = .next s))

/-- ABORT ends the open session of its number and carrier (R323); a session open for TIMEOUT_MS ends with cause 7 and
ABORT (R326).  CHARTER_REQ for the own charter is answered, another is not; a charter that a session waits for is cached
when it verifies, and ends the session with cause 3 when it does not (R305, R324). -/
def Sys2Proof.Claims.SessionsEndAndChartersAreExchanged : Prop :=
  ∀ (x : Half) (c : Carrier) (s : State), carrierOk c = true → s.holder = some x →
    (∀ z, (s.img x).sessions = [z] → z.open = true → z.carrier = c →
      (∀ k, ∃ t, exec (.zkaAbortRx c z.session k) s = .next t ∧ EndsSession s x z k false true t) ∧
      (∀ n k, n ≠ z.session → exec (.zkaAbortRx c n k) s = .next s) ∧
      (z.since + (s.img x).zkaTimeout ≤ s.now →
        ∃ t, exec (.zkaSessionTimeout z.session) s = .next t ∧ EndsSession s x z 7 true false t) ∧
      (s.now < z.since + (s.img x).zkaTimeout → exec (.zkaSessionTimeout z.session) s = .next s) ∧
      (∀ m b ok, ∀ ch : Charter, m < 8192 → ch.bytes = b.drop 2 →
        ok = (s.charterOk x ch && decide (ch.member ≠ s.member) && decide (some ch.mdomain = s.mdomain)) →
        (b.length ≠ 2 + beNat (b.take 2) → exec (.charterRx c m b) s = .next s) ∧
        (b.length = 2 + beNat (b.take 2) → ∃ t, exec (.charterRx c m b) s = .next t ∧
          (z.want ≠ some ch.digest → t = s) ∧
          (z.want = some ch.digest → ok = false → EndsSession s x z 3 true false t) ∧
          (z.want = some ch.digest → ok = true → ch ∈ (t.img x).charters ∧
            ch.seq ≤ tabGet 0 (t.img x).charterSeq ch.member ∧ t.half x.other = s.half x.other ∧
            (t.img x).regs = (s.img x).regs ∧ (t.img x).keys = (s.img x).keys)))) ∧
    (∀ m d ch, m < 8192 → s.flash.charter = some ch → exec (.charterReqRx c m d) s =
      .next (if ch.digest = d then s.sendPeer x c 0x22 0 (beBytes 2 ch.bytes.length ++ ch.bytes) else s))

/-! ## Connectivity associations -/

/-- CA_BIND of a LIVE, resident CAK makes a participant at a free index: its CAK is pinned, its transmit SC is made, and
the first MKPDU leaves (R330, R331); a CAK that is not resident is loaded first.  CA_UNBIND erases the CA with its SCs and
SAs and unpins the CAK; of an index without a CA it completes with DONE. -/
def Sys2Proof.Claims.AssociationsAreBoundAndUnbound : Prop :=
  ∀ (x : Half) (h : Hdr) (i : Nat) (s : State), i < 1024 → s.flash.charter ≠ none →
    (∀ a e, Executes s h 0x0421 x → (s.img x).caArgsOk a = true → serves h.fn (hDomain a.handle) = true →
      (s.img x).ca i = none → e = (s.img x).key a.handle → e.st = 1 → e.kind = 4 → cknOk e.origin a.ckn = true →
      (s.img x).scTx.length < 4096 → (e.pinned = true ∨ (s.img x).pinned4 < 2048) →
      (e.resident = true → ∃ u k mi w, exec (.caBind h i a) s = .next u ∧ k < 4096 ∧ ((s.img x).sc .tx k).args = none ∧
        w = ({ s with fv := s.fv + 2 }.modImg x fun im => (((im.makeKeyResident a.handle s.now).pinKey a.handle
          true).createSc k (caSc a .tx (Config.portSci a.port))).setCa i (some
          { args := a, mi, mn := 0, peers := [], tx := k, rx := [], sak := none, at_ := s.now, regen := none,
            ckn := if e.origin = 2 then e.ckn else a.ckn })) ∧
        u = (w.sendMkpdu x i).postCpl x (cmdOf h 0x0421) stDone 0 [] ∧
        (∃ c, (u.img x).ca i = some c ∧ c.mn = 1 ∧ c.args = a) ∧ ((u.img x).key a.handle).pinned = true ∧
        (u.img x).sc .tx k = { args := some (caSc a .tx (Config.portSci a.port)) } ∧
        Completed u x h 0x0421 stDone [] ∧ u.half x.other = s.half x.other ∧ (u.img x).regs = (s.img x).regs ∧
        (∀ j, j ≠ i → (u.img x).ca j = (s.img x).ca j) ∧ (u.img x).scRx = (s.img x).scRx) ∧
      (e.resident = false → exec (.caBind h i a) s = .next (s.loadFor x a.handle
        { cmd := cmdOf h 0x0421, on := .load a.handle, status := stDone, cflags := 0, result := [], area := none,
          cont := .ca i a }))) ∧
    (Executes s h 0x0422 x →
      ((s.img x).ca i = none → exec (.caUnbind h i) s = .next (s.done x h 0x0422)) ∧
      (∀ c, (s.img x).cas = [(i, some c)] → serves h.fn c.domain = true → ∃ u, exec (.caUnbind h i) s = .next u ∧
        (u.img x).cas = [] ∧ (u.img x).sc .tx c.tx = {} ∧ (∀ an, an < 4 → ((u.img x).sa .tx c.tx an).inst = false) ∧
        (∀ q ∈ c.rx, (u.img x).sc .rx q.2 = {}) ∧ ((u.img x).key c.args.handle).pinned = false ∧
        Completed u x h 0x0422 stDone [] ∧ Within x s u ∧ (u.img x).regs = (s.img x).regs ∧
        (u.img x).chan = (s.img x).chan))

/-- An MKPDU with a wrong ICV, of another CKN, of the participant's own MI or with an old MN changes nothing (R332).  One
that lists this participant makes its sender a live peer with a receive SC and its pairing entry (R221, R330): the key server
then draws a SAK and distributes it; another participant installs the SAK that a later MKPDU of the key server distributes.
Every MKA Hello Time an MKPDU enters the queue of the CA's port (R241). -/
def Sys2Proof.Claims.ParticipantsExchangeKeys : Prop :=
  ∀ (x : Half) (i : Nat) (c : Ca) (ick : List Nat) (s : State), i < 1024 → s.holder = some x →
    (s.img x).cas = [(i, some c)] → ick = mkaIck ((s.img x).cakBytes c) c.ckn →
    (∀ f, readMkpdu f = none → exec (.mkpduRx i f) s = .next s) ∧
    (∀ f m, readMkpdu f = some m →
      (m.ckn ≠ c.ckn ∨ m.mi = c.mi → exec (.mkpduRx i f) s = .next s) ∧
      (∀ p, c.peers = [p] → m.mi = p.mi → m.mn ≤ p.mn → exec (.mkpduRx i f) s = .next s) ∧
      (∃ t, exec (.mkpduRx i f) s = .next t ∧ (mkpduOk ick f = false → t = s)) ∧
      (∀ a, m.ckn = c.ckn → m.mi ≠ c.mi → m.lists c = true → c.peers = [] → c.rx = [] → c.sak = none → m.sak = none →
        m.installed = [] → ((s.img x).key c.args.handle).st = 1 → (s.img x).scRx.length < 8192 →
        ((s.img x).sc .tx c.tx).args = some a →
        ∃ t, exec (.mkpduRx i f) s = .next t ∧ (mkpduOk ick f = true →
          ∃ k v, k < 8192 ∧ ((s.img x).sc .rx k).args = none ∧ (t.img x).ca i = some v ∧ v.peers =
            [{ mi := m.mi, mn := m.mn, priority := m.priority, sci := m.sci, live := true, rx := [], at_ := s.now }] ∧
          v.rx = [(m.sci, k)] ∧ tabGet 0 (t.img x).pairTab k = pairEntry c.tx ∧ t.out = s.out ∧
          t.half x.other = s.half x.other ∧ (t.img x).regs = (s.img x).regs ∧ t.tam = s.tam ∧
          (preferred c.args.priority (Config.portSci c.args.port) m.priority m.sci = false → v.sak = none ∧
            ((t.img x).sc .rx k).args =
              some { caSc c.args .rx m.sci with suite := a.suite, confOffset := a.confOffset }) ∧
          (preferred c.args.priority (Config.portSci c.args.port) m.priority m.sci = true →
            ((t.img x).sc .rx k).args = some (caSc c.args .rx m.sci) ∧ v.mn = c.mn + 1 ∧
            ∃ (key : Nat) (w : State), v.sak = some
                { an := 0, key, kn := c.kn + 1, mi := c.mi, server := true, at_ := s.now, inUse := false } ∧
              (w.img x).ca i = some { v with mn := c.mn, at_ := c.at_ } ∧ t = w.sendMkpdu x i))) ∧
      (∀ p d, m.ckn = c.ckn → m.mi ≠ c.mi → c.peers = [p] → p.live = true → m.mi = p.mi → p.mn < m.mn → m.server = true →
        m.sak = some d → c.args.suites.contains d.suite = true → c.sak = none → m.installed = [] →
        ((s.img x).key c.args.handle).st = 1 →
        preferred c.args.priority (Config.portSci c.args.port) m.priority m.sci = false →
        ∃ t, exec (.mkpduRx i f) s = .next t ∧ (mkpduOk ick f = true → ∃ v, (t.img x).ca i = some v ∧
          v.peers = [{ mi := m.mi, mn := m.mn, priority := m.priority, sci := m.sci, live := true, rx := [],
                       at_ := s.now }] ∧ v.rx = c.rx ∧ t.out = s.out ∧ t.half x.other = s.half x.other ∧
          (t.img x).regs = (s.img x).regs ∧ t.tam = s.tam ∧
          ((s.img x).openSak c d = none → v.sak = none) ∧
          (∀ key, (s.img x).openSak c d = some key → v.sak =
            some { an := d.an, key, kn := d.kn, mi := m.mi, server := false, at_ := s.now, inUse := false })))) ∧
    (((s.img x).key c.args.handle).st = 1 →
      (s.now < c.at_ + (s.img x).helloNs → exec (.mkaHello i) s = .next s) ∧
      (c.at_ + (s.img x).helloNs ≤ s.now → (s.img x).wantSak = [] → exec (.mkaHello i) s =
        .next ((s.modImg x fun im => { im with cas := [(i, some { c with mn := c.mn + 1, at_ := s.now })] }).originate x
          (32 + c.args.port) 0 (mkpduFrame ick (Config.portSci c.args.port / 2 ^ 16) ((s.img x).mkpduOf c)))))

/-- A live peer silent for an MKA Life Time is lost with its receive SC (R332); the transmit SC moves to a SAK no later
than a Life Time after its installation, and its former SA is retired (R338); a new CAK generation without a live peer for
a Life Time retires every SA (R333). -/
def Sys2Proof.Claims.LifeTimesEnd : Prop :=
  ∀ (x : Half) (i : Nat) (c : Ca) (s : State), i < 1024 → s.holder = some x → (s.img x).cas = [(i, some c)] →
    (∀ p, c.peers = [p] → p.live = true → (s.img x).mooredOn c.args.port = false → c.args.group = false →
      (s.now < p.at_ + (s.img x).lifeNs → exec (.mkaLifeExpire i (.peer p.mi)) s = .next s) ∧
      (p.at_ + (s.img x).lifeNs ≤ s.now → ∃ t, exec (.mkaLifeExpire i (.peer p.mi)) s = .next t ∧
        (t.img x).ca i = some { c with peers := [], rx := c.rx.filter fun q => decide (q.1 ≠ p.sci) } ∧
        (∀ q ∈ c.rx, q.1 = p.sci → (t.img x).sc .rx q.2 = {}) ∧ Within x s t ∧ (t.img x).regs = (s.img x).regs ∧
        (t.img x).scTx = (s.img x).scTx)) ∧
    (∀ k, c.sak = some k → k.inUse = false → ((s.img x).sa .tx c.tx k.an).inst = true →
      ((s.img x).sa .tx c.tx k.an).resident = true →
      (s.now < k.at_ + (s.img x).lifeNs → exec (.mkaLifeExpire i .sak) s = .next s) ∧
      (k.at_ + (s.img x).lifeNs ≤ s.now → ∃ t, exec (.mkaLifeExpire i .sak) s = .next t ∧
        ((t.img x).sc .tx c.tx).cur = some k.an ∧ ((t.img x).sa .tx c.tx k.an).inst = true ∧
        (t.img x).ca i = some { c with sak := some { k with inUse := true } } ∧
        (∀ o, o < 4 → o ≠ k.an → ((t.img x).sa .tx c.tx o).inst = false) ∧
        Within x s t ∧ (t.img x).regs = (s.img x).regs ∧
        (∀ n an, ((t.img x).sa .rx n an).inst = ((s.img x).sa .rx n an).inst ∧
          ((t.img x).sa .rx n an).pn = ((s.img x).sa .rx n an).pn))) ∧
    (∀ k, c.sak = some k → k.inUse = false → ((s.img x).sa .tx c.tx k.an).inst = true →
      ((s.img x).sa .tx c.tx k.an).resident = false → ((s.img x).sc .tx c.tx).cur ≠ some k.an →
      k.at_ + (s.img x).lifeNs ≤ s.now → ∃ t, exec (.mkaLifeExpire i .sak) s = .next t ∧
        ((t.img x).sc .tx c.tx).next = some k.an ∧ ((t.img x).sc .tx c.tx).cur = ((s.img x).sc .tx c.tx).cur ∧
        (((t.img x).sa .tx c.tx k.an).loading = true ∨ ((t.img x).sa .tx c.tx k.an).wanted = true) ∧
        (t.img x).cas = (s.img x).cas ∧ Within x s t) ∧
    (∀ t0, c.regen = some t0 → c.live = [] →
      (s.now < t0 + (s.img x).lifeNs → exec (.mkaLifeExpire i .regen) s = .next s) ∧
      (t0 + (s.img x).lifeNs ≤ s.now → ∃ t, exec (.mkaLifeExpire i .regen) s = .next t ∧
        (t.img x).ca i = some { c with sak := none, old := none, regen := none } ∧
        (∀ an, an < 4 → ((t.img x).sa .tx c.tx an).inst = false ∧ ∀ q ∈ c.rx, ((t.img x).sa .rx q.2 an).inst = false) ∧
        Within x s t ∧ (t.img x).regs = (s.img x).regs)) ∧
    (∀ an, an < 4 → (∀ k, c.sak = some k → an ≠ k.an) → (s.img x).oldRxDone c s.now = true →
      ∃ t, exec (.mkaLifeExpire i (.oldRx an)) s = .next t ∧
        (∀ q ∈ c.rx, ((t.img x).sa .rx q.2 an).inst = false) ∧ Within x s t ∧
        (∀ n a, ((t.img x).sa .tx n a).inst = ((s.img x).sa .tx n a).inst ∧
          ((t.img x).sa .tx n a).pn = ((s.img x).sa .tx n a).pn) ∧ (t.img x).scTx = (s.img x).scTx ∧
        (t.img x).regs = (s.img x).regs)

/-! ## Time -/

/-- TIME_SET steps its time base to the instant, makes it valid, marks late the armed entries that the step passes over,
and leaves the other time bases and the other half alone (R369, R373, R386).  An instant with wrong nanoseconds or reserved
bytes is REJECTED_ARGS (R368), as is TIME_OFFSET on a time base whose source is not commands (R393). -/
def Sys2Proof.Claims.TimeSetStepsOneTimeBase : Prop :=
  ∀ (x : Half) (h : Hdr) (tb : Nat) (i : Instant) (s : State), h.fn = 0 → tb < 4 →
    (Executes s h 0x0301 x →
      (instantOk i = true → ∃ u, exec (.timeSet h tb i) s = .next u ∧ ((u.half x).tb tb).value = i.time ∧
        ((u.half x).tb tb).valid = true ∧ ((u.half x).tb tb).rate = ((s.half x).tb tb).rate ∧
        (∀ n, n ≠ tb → (u.half x).tb n = (s.half x).tb n) ∧
        (∀ j e, (s.img x).schedAt j = some e → (u.img x).schedAt j = some
          { e with late := e.late ||
                    decide (e.tb = tb ∧ tvUnits ((s.half x).tb tb).value < tvUnits e.at_ ∧ tvUnits e.at_ ≤ tvUnits i.time) }) ∧
        Completed u x h 0x0301 stDone [] ∧ Within x s u ∧ (u.img x).regs = (s.img x).regs) ∧
      (instantOk i = false → exec (.timeSet h tb i) s = .next (s.postCpl x (cmdOf h 0x0301) stArgs 0 []))) ∧
    (Executes s h 0x0302 x → ∀ theta, (s.img x).tbSrc tb ≠ 2 ∨ instantOk i = false →
      exec (.timeOffset h tb theta i) s = .next (s.postCpl x (cmdOf h 0x0302) stArgs 0 []))

namespace Sys2Proof.Claims

/-- What an offset sample of its source does to a time base (R371, R372): one that is not valid, or is off by more than
its step limit, steps by −θ and becomes valid; another takes a rate within ±200,000 ppb.  The 16th sample in a row within
±50 ns locks the servo, and one outside it is in ACQUIRING. -/
def Sampled (n : Nat) (theta : Int) (b : TBase) (cfg : Word) (now : Nat) (v : TBase) : Prop :=
  v.lastAt = now + 1 ∧ v.discards = b.discards ∧
  (b.valid = false ∨ (bit cfg 27 = true ∧ bits cfg 15 0 * 65536 < theta.natAbs) →
    v.valid = true ∧ v.rate = b.rate ∧ v.value = (b.at ((tvUnits b.value : Int) - theta)).value) ∧
  (b.valid = true → (bit cfg 27 = false ∨ theta.natAbs ≤ bits cfg 15 0 * 65536) →
    v.valid = true ∧ v.value = b.value ∧ -200000 ≤ v.rate ∧ v.rate ≤ 200000 ∧
    v.integ = b.integ + theta * 32768 / 2 ^ bits cfg 19 16) ∧
  (50 * 65536 < theta.natAbs → v.st = .acquiring ∧ v.good = 0) ∧
  (theta.natAbs ≤ 50 * 65536 → b.st ≠ .holdover → v.good = min 16 (b.good + 1) ∧
    v.st = if 15 ≤ b.good then .locked else .acquiring) ∧ n < 4

end Sys2Proof.Claims

/-- A sample of a source that its time base does not select is counted and discarded (R372).  One of the selected source
steers its own time base alone, whichever way it comes: SERVO_SAMPLE, TIME_OFFSET, a 1PPS edge within 100 ms of a second
(R376), or the offset that a message of the PTP port and domain completes (R380): for a one-step Sync of the master that the
engine follows, arrival less origin less the mean path delay.  A message of another domain changes nothing. -/
def Sys2Proof.Claims.SamplesSteerTheirTimeBase : Prop :=
  ∀ (x : Half) (n : Nat) (theta : Int) (s : State), n < 4 → s.holder = some x →
    (∀ src dt, src < 5 →
      (src ≠ (s.img x).tbSrc n → exec (.servoSample n src theta dt) s = .next (s.modHalf x fun y =>
        y.setTb n { y.tb n with discards := (y.tb n).discards + 1 })) ∧
      (src ≠ 0 → src = (s.img x).tbSrc n → ∃ u, exec (.servoSample n src theta dt) s = .next u ∧
        Sampled n theta ((s.half x).tb n) ((s.img x).tbCfg n) s.now ((u.half x).tb n) ∧
        (∀ k, k ≠ n → (u.half x).tb k = (s.half x).tb k) ∧ Within x { s with fv := u.fv } u ∧
        (u.img x).regs = (s.img x).regs)) ∧
    (∀ h i, Executes s h 0x0302 x → h.fn = 0 → instantOk i = true → (s.img x).tbSrc n = 2 → -2 ^ 63 ≤ theta →
      theta < 2 ^ 63 → ∃ u, exec (.timeOffset h n theta i) s = .next u ∧
        Sampled n theta ((s.half x).tb n) ((s.img x).tbCfg n) s.now ((u.half x).tb n) ∧
        (∀ k, k ≠ n → (u.half x).tb k = (s.half x).tb k) ∧ Completed u x h 0x0302 stDone [] ∧
        Within x { s with fv := u.fv } u ∧ (u.img x).regs = (s.img x).regs) ∧
    (∀ tc e, tc < 2 → bit ((s.img x).tcCfg tc) 31 = false → bits ((s.img x).tcCfg tc) 29 28 = n →
      (s.img x).tbSrc n = 3 + tc → theta = ppsTheta e ((s.img x).cableNs tc) →
      ((((s.half x).tb n).valid = false ∨ (ppsTheta e 0).natAbs ≤ 100000000 * 65536) →
        ∃ u, exec (.ppsEdge tc e) s = .next u ∧
          Sampled n theta ((s.half x).tb n) ((s.img x).tbCfg n) s.now ((u.half x).tb n) ∧
          tabGet 0 u.board.ppsAt tc = s.now + 1 ∧ u.half x.other = s.half x.other ∧ u.out = s.out ∧
          (u.img x).regs = (s.img x).regs) ∧
      (((s.half x).tb n).valid = true → 100000000 * 65536 < (ppsTheta e 0).natAbs →
        ∃ u, exec (.ppsEdge tc e) s = .next u ∧ (u.half x).tbs = (s.half x).tbs ∧ u.half x.other = s.half x.other ∧
          u.out = s.out)) ∧
    (∀ port m dt w p, w = (s.img x).reg 0 0xC00300 → port < 64 → bits w 29 24 = port → p = (s.half x).ptp →
      (bit w 31 = true → bits w 15 8 = ptpDomain m →
        ((p.take m s.now).2 = none →
          exec (.ptpMessageRx port m) s = .next (s.modHalf x fun y => { y with ptp := (p.take m s.now).1 })) ∧
        ((p.take m s.now).2 = some (theta, dt) → bits w 21 20 = n → (s.img x).tbSrc n = 1 →
          ∃ u, exec (.ptpMessageRx port m) s = .next u ∧
            Sampled n theta ((s.half x).tb n) ((s.img x).tbCfg n) s.now ((u.half x).tb n) ∧
            (u.half x).ptp.at_ = s.now + 1 ∧ Within x { s with fv := u.fv } u ∧ (u.img x).regs = (s.img x).regs) ∧
        (p.follows m = true → ptpType m = 0 → ptpTwoStep m = false → (p.take m s.now).2 =
          some (p.rx - (ptpStamp m + ptpCorrection m) - p.delay, sinceSample p.at_ s.now)) ∧
        (p.follows m = false → (p.take m s.now).2 = none)) ∧
      (bit w 31 = false ∨ bits w 15 8 ≠ ptpDomain m → exec (.ptpMessageRx port m) s = .next s))

/-- Four expected intervals (Table 12.2: 1 s each, for PTP the Sync interval) without a sample put an acquiring or
locked servo into HOLDOVER, which holds its last rate (R372). 1.1 s without an edge of a 1PPS input posts PPS_LOSS
(R376). A 1PPS output pulses at a whole second of its valid time base, less CABLE_NS, for WIDTH_MS, and at no other
time (R377). -/
def Sys2Proof.Claims.HoldoverAndPulses : Prop :=
  ∀ (x : Half) (n tc : Nat) (b : TBase) (w : Word) (s : State), n < 4 → tc < 2 → s.holder = some x →
    w = (s.img x).tcCfg tc → b = (s.half x).tb n →
    (b.st = .acquiring ∨ b.st = .locked → b.lastAt ≠ 0 →
      (b.lastAt - 1 + (s.half x).holdoverNs ((s.img x).tbSrc n) ≤ s.now → ∃ u, exec (.servoHoldover n) s = .next u ∧
        (u.half x).tb n = { b with st := .holdover, good := 0 } ∧ (∀ k, k ≠ n → (u.half x).tb k = (s.half x).tb k) ∧
        Within x s u ∧ u.img x = s.img x) ∧
      (s.now < b.lastAt - 1 + (s.half x).holdoverNs ((s.img x).tbSrc n) → exec (.servoHoldover n) s = .next s)) ∧
    (∀ src, (s.half x).holdoverNs src = 4 * if src = 1 then (s.half x).ptp.every else 1000000000) ∧
    (bit w 31 = false → tc ∉ s.board.ppsLost →
      (tabGet 0 s.board.ppsAt tc - 1 + 1100000000 ≤ s.now → exec (.ppsLoss tc) s = .next
        ({ s with board := { s.board with ppsLost := s.board.ppsLost ++ [tc] } }.post x .cores 0x0303 [(1, tc), (1, 0)])) ∧
      (s.now < tabGet 0 s.board.ppsAt tc - 1 + 1100000000 → exec (.ppsLoss tc) s = .next s)) ∧
    (bits w 29 28 = n →
      (bit w 31 = true → b.valid = true → (b.ns + (s.img x).cableNs tc) % 1000000000 = 0 →
        exec (.ppsOutputPulse tc) s = .next (s.emit (.pulse tc (bits w 23 16)))) ∧
      (bit w 31 = false ∨ b.valid = false ∨ (2 < (b.ns + (s.img x).cableNs tc) % 1000000000 ∧
          (b.ns + (s.img x).cableNs tc) % 1000000000 < 999999998) → exec (.ppsOutputPulse tc) s = .next s))

/-! ## The helm -/

namespace Sys2Proof.Claims

/-- Half `x` has taken the helm (R409): its claim names a generation above every one it has seen, its own and the other
half's; it is ACTIVE_PAIRED or ACTIVE_SOLO; the usher's count, the key serials and the CFCs of Table 13.5 have moved past
what the last copies show; its registers and the other half are as they were. -/
def Took (s : State) (x : Half) (paired : Bool) (t : State) : Prop :=
  (t.half x).helm.claim = true ∧ (t.half x).helm.st = (if paired then .activePaired else .activeSolo) ∧
  (s.half x).helm.gen < (t.half x).helm.gen ∧ (s.half x).helm.maxSeen < (t.half x).helm.gen ∧
  ((s.half x.other).helm.claim = true → (s.half x.other).helm.gen < (t.half x).helm.gen) ∧
  (s.img x).seq + 65537 ≤ (t.img x).seq ∧ (t.img x).serial = 4096 * s.flash.serialBlk + 1 ∧
  t.flash.serialBlk = s.flash.serialBlk + 1 ∧
  (∀ r, (s.img x).termTrib r = true → tabGet 0 (t.img x).cfc r = (tabGet 0 (s.img x).cfc r + 65536) % 2 ^ 64) ∧
  (t.img x).regs = (s.img x).regs ∧ t.half x.other = s.half x.other ∧ t.modRegs = s.modRegs ∧ t.phase = s.phase

/-- The half has stopped (R40): its cause is kept, it claims nothing, and HALT has left; the other half goes on. -/
def Stopped (s : State) (x : Half) (cause fifo : Nat) (t : State) : Prop :=
  (∃ y, y = s.half x ∧ t.half x =
    { y with haltCause := cause, haltFifo := fifo,
             helm := { y.helm with st := .halted, claim := false, handover := none, sealed := none, offered := false } }) ∧
  t.out = s.out ++ [.halt x] ∧ (t.half x.other).helm = (s.half x.other).helm ∧ t.img x.other = s.img x.other ∧
  t.flash = s.flash ∧ t.tam = s.tam ∧ t.board = s.board

end Sys2Proof.Claims

/-- At the end of a crossing the active half keeps the copy of it for resending, with the next crossing number, the last
usher number and, once the deferrable records have drained, every entry of the crossing (R395, R397, R398), and counts a
crossing without an ACK (R405); the standby counts a crossing without a renewal.  A snapshot asked for takes its values
there (R516). -/
def Sys2Proof.Claims.CrossingsSendCopies : Prop :=
  ∀ (x : Half) (y : HState) (s : State), y = s.half x → y.up = true →
    (y.helm.st.active = true → y.sealable true = false → ∃ u c, exec (.crossingEnd x true) s = .next u ∧
      (u.half x).kept.getLast? = some c ∧ (u.half x).kept.length ≤ 8 ∧ c.n = y.helm.crossing + 1 ∧ c.gen = y.helm.gen ∧
      c.seq = y.img.seq ∧ c.entries = y.unsent ∧ c.cfc = y.img.cfc ∧ c.final = false ∧
      c.renew = decide (y.helm.st = .activePaired) ∧ c.img.map (·.regs) = some y.img.regs ∧
      (u.half x).helm.crossing = y.helm.crossing + 1 ∧ (u.half x).unsent = [] ∧
      (y.helm.st = .activePaired → (u.half x).helm.noAck = if y.helm.renewed then 0 else y.helm.noAck + 1) ∧
      Within x { s with fv := u.fv } u ∧ (u.img x).regs = y.img.regs) ∧
    (y.helm.st = .inStep ∨ y.helm.st = .out → ∃ u, exec (.crossingEnd x true) s = .next u ∧
      (u.half x).helm.silence = (if y.helm.renewed then 0 else y.helm.silence + 1) ∧ (u.half x).kept = y.kept ∧
      Within x s u ∧ u.img x = y.img) ∧
    (∀ h g f n addr, Executes s h 0x0601 x →
      (1 ≤ g → g ≤ 11 → 1 ≤ n → f + n ≤ (statShape g).2 → h.fn = 0 →
        exec (.statsSnapshot h g f n addr) s = .next (s.wait x
          { cmd := cmdOf h 0x0601, on := .crossing, status := stDone, cflags := 0, result := [],
            area := some (addr, [(8 * (statShape g).1 * n, 0)]), cont := .stats g f n addr }) ∧
        ∀ j, j.cmd = cmdOf h 0x0601 → j.on = .crossing → j.cont = .stats g f n addr → y.latchJob j =
          { j with on := .dma, result := [(4, n), (8, y.helm.crossing)], cont := .finish,
                   area := some (addr, y.statRun 0 g f n) }) ∧
      (n = 0 ∨ g = 0 ∨ 11 < g ∨ (statShape g).2 < f + n →
        exec (.statsSnapshot h g f n addr) s = .next (s.postCpl x (cmdOf h 0x0601) stArgs 0 [])))

/-- The standby in step applies the next copy and sends its ACK (R397); a gap draws NAK while the copy it lacks is kept
(R398), and FINAL makes it take the helm (R413).  An ACK renews the lease, lets the entries up to its crossing be written
to the rings, and answers an offer (R399, R405, R413); a half that no longer drives posts nothing for it (R35).  A ferry link
that is down brings neither (R70).  A frame mark sets the standby's framers to the active half's frame (R76, R412). -/
def Sys2Proof.Claims.CopiesAreAppliedAndAcknowledged : Prop :=
  ∀ (x : Half) (y o : HState) (s : State), y = s.half x → o = s.half x.other → y.up = true → o.up = true →
    (∀ c, y.helm.st = .inStep → y.ferryUp = true → o.kept = [c] → c.gen = y.helm.copyGen →
      (c.n = y.helm.crossing + 1 →
        (c.final = false → ∃ u a, exec (.crossingCopyRx x c.n) s = .next u ∧ (u.half x).helm.crossing = c.n ∧
          (u.img x).seq = c.seq ∧ (u.img x).cfc = c.cfc ∧ (u.img x).regs = (c.img.getD y.img).regs ∧
          (u.half x).acks.getLast? = some a ∧ a.n = c.n ∧ a.renew = c.renew ∧
          (c.renew = true → (u.half x).helm.silence = 0) ∧ (u.half x).helm.st = .inStep ∧
          u.half x.other = o ∧ u.out = s.out) ∧
        (c.final = true → ∃ u, exec (.crossingCopyRx x c.n) s = .next u ∧ (u.half x).helm.claim = true ∧
          (u.half x).helm.st = .activePaired ∧ y.helm.gen < (u.half x).helm.gen ∧
          c.seq + 65537 ≤ (u.img x).seq ∧ u.half x.other = o)) ∧
      (c.n ≤ y.helm.crossing → exec (.crossingCopyRx x c.n) s = .next s)) ∧
    (∀ k c, y.helm.st = .inStep → y.ferryUp = true → o.kept = [k, c] → c.gen = y.helm.copyGen →
      k.n = y.helm.crossing + 1 → c.n = y.helm.crossing + 2 →
      exec (.crossingCopyRx x c.n) s = .next (s.emit (.nak (y.helm.crossing + 1)))) ∧
    (∀ a, y.helm.st = .activePaired → s.holder = some x → y.ferryUp = true → o.acks = [a] → a.renew = true → a.fwd = [] → a.dbs = [] →
      hwBits a.health 63 63 = 1 → y.gov.paceLimit = false → y.kept = [] →
      (y.helm.handover = none → exec (.crossingAckRx x a.n) s = .next
        ((s.modHalf x.other fun z => { z with acks := [] }).modHelm x fun m =>
          { m with acked := max m.acked a.n, peerHealth := a.health, noAck := 0, renewed := true,
                   fwdCount := max m.fwdCount a.base }))) ∧
    (∀ a c p, y.helm.st = .activePaired → s.holder = some x → y.ferryUp = true → o.acks = [a] → a.fwd = [] → a.dbs = [] → hwBits a.health 63 63 = 1 →
      y.gov.paceLimit = false → y.helm.handover = none → y.kept = [c] → c.entries = [p] → y.helm.acked < c.n →
      c.n ≤ a.n → ∃ u, exec (.crossingAckRx x a.n) s = .next u ∧
        tabGet none u.rings (slotKey p.fn p.ring (p.pos % (s.img x).ringSize p.fn p.ring)) = some p.entry ∧
        (u.half x).helm.acked = max y.helm.acked a.n ∧ (u.img x).regs = (s.img x).regs ∧ u.flash = s.flash) ∧
    (∀ f, y.helm.st.active = true → ∃ u, exec (.copyNakRx x f) s = .next u ∧ (u.half x).helm.resent =
      min 4095 (y.helm.resent + (y.kept.filter fun c => decide (f ≤ c.n)).length) ∧ Within x s u ∧ u.img x = s.img x) ∧
    (∀ a, y.helm.st.active = true → s.holder ≠ some x → y.ferryUp = true → o.acks = [a] →
      exec (.crossingAckRx x a.n) s = .next (s.modHelm x fun m => { m with
        peerHealth := a.health, noAck := if a.renew then 0 else m.noAck, renewed := m.renewed || a.renew })) ∧
    (y.ferryUp = false → ∀ n, exec (.crossingCopyRx x n) s = .next s ∧ exec (.crossingAckRx x n) s = .next s) ∧
    (∀ n, y.helm.st.active = true →
      (mfasOf n = y.mfas → o.ferryUp = true → o.helm.st.active = false → exec (.frameMark x n) s =
        .next ((s.modHalf x.other fun z => { z with mfas := mfasOf n, helm := { z.helm with frameBits := n } }).emit
          (.frameMark n))) ∧
      (mfasOf n = y.mfas → o.ferryUp = false → exec (.frameMark x n) s = .next (s.emit (.frameMark n))) ∧
      (mfasOf n ≠ y.mfas → exec (.frameMark x n) s = .next s))

/-- The lease (R405, R406): after 6 crossings without an ACK the active half withdraws its claim; after 10 without a
renewal the standby in step takes the helm alone; after 12 the relinquished half takes it back if the other half claims
nothing.  A half that loses the helm keeps its events to be forwarded and loses its hall (R33, R200,
R262).  A half that sees HALT from the other on the ferry link takes the helm, or goes on alone and reports the halt once
(R40, R70). -/
def Sys2Proof.Claims.LeasesExpire : Prop :=
  ∀ (x : Half) (y o : HState) (s : State), y = s.half x → o = s.half x.other → y.up = true →
    (y.helm.st = .activePaired →
      (6 ≤ y.helm.noAck → exec (.relinquish x) s = .next (s.setHalf x { y.loseHelm with
        helm := { y.helm with st := .relinquished, claim := false, handover := none, offered := false } })) ∧
      (y.helm.noAck < 6 → exec (.relinquish x) s = .next s)) ∧
    (y.loseHelm.queue = [] ∧ y.loseHelm.unsent = [] ∧ y.loseHelm.kept = [] ∧ y.loseHelm.fwd = y.fwd ++ eventsOf y.queue ∧
      y.loseHelm.queues = [] ∧ y.loseHelm.held = [] ∧ y.loseHelm.sending = [] ∧ y.loseHelm.pke.lanes = [] ∧
      y.loseHelm.pke.queue = [] ∧ y.loseHelm.img.regs = y.img.regs) ∧
    (y.helm.st = .inStep → y.helm.sealed = none →
      (10 ≤ y.helm.silence → ∃ u, exec (.takeoverSilent x) s = .next u ∧ Took s x false u) ∧
      (y.helm.silence < 10 → exec (.takeoverSilent x) s = .next s)) ∧
    (y.helm.st = .relinquished →
      (12 ≤ y.helm.noAck → o.helm.claim = false → ∃ u, exec (.reclaim x) s = .next u ∧ Took s x false u) ∧
      (y.helm.noAck < 12 ∨ o.helm.claim = true → exec (.reclaim x) s = .next s)) ∧
    (o.haltCause ≠ 0 → y.ferryUp = true → y.img.seq ≠ 0 →
      (y.helm.st = .inStep → ∃ u, exec (.haltRx x) s = .next u ∧ Took s x false u) ∧
      (y.helm.st = .activePaired → ∃ u, exec (.haltRx x) s = .next u ∧ (u.half x).helm.st = .activeSolo ∧
        (u.half x).helm.claim = y.helm.claim ∧ (u.half x).helm.gen = y.helm.gen ∧ (u.half x).helm.haltNotice = true ∧
        (u.half x.other).helm = o.helm ∧ u.img x.other = s.img x.other ∧ (u.img x).regs = y.img.regs) ∧
      (y.helm.st = .activeSolo → y.helm.haltNotice = false → exec (.haltRx x) s = .next
        ((s.modHelm x fun m => { m with haltNotice := true }).post x .cores 0x0D05
          [(1, x.other.idx), (4, o.haltWord)]))) ∧
    (o.haltCause = 0 ∨ y.ferryUp = false → exec (.haltRx x) s = .next s)

/-- A half that sees a preferred claim withdraws: after FINAL it is the standby in step, otherwise it is out of step and
the half that keeps the helm reports the conflict (R404).  A claim that is lost is absent (R401).  A half that sealed FINAL
and has seen no preferred claim for 10 crossings takes the helm back (R413). -/
def Sys2Proof.Claims.ClaimsDecideWhoIsActive : Prop :=
  ∀ (x : Half) (y o : HState) (s : State), y = s.half x → o = s.half x.other → y.up = true →
    (o.helm.claim = true → s.obeyed = some x.other →
      (y.helm.st = .inStep → y.helm.sealed ≠ none → ∃ u, exec (.claimPreferredSeen x) s = .next u ∧
        (u.half x).helm.st = .inStep ∧ (u.half x).helm.claim = false ∧ (u.half x).helm.sealed = none ∧
        o.helm.gen ≤ (u.half x).helm.maxSeen ∧ Within x s u ∧ (u.img x).regs = (s.img x).regs) ∧
      (y.helm.st.active = true → ∃ u, exec (.claimPreferredSeen x) s = .next u ∧ (u.half x).helm.st = .out ∧
        (u.half x).helm.claim = false ∧ (u.half x).queue = [] ∧ o.helm.gen ≤ (u.half x).helm.maxSeen ∧
        (u.half x.other).helm = o.helm ∧ (u.img x).regs = y.img.regs ∧ u.flash = s.flash ∧ u.out = s.out ∧
        (o.helm.st.active = true → y.helm.claim = true →
          ∃ e, (u.half x.other).queue = o.queue ++ [(.cores, .ev e)] ∧ e.code = 0x0704))) ∧
    (s.obeyed = some x → exec (.claimPreferredSeen x) s = .next s) ∧
    exec (.claimLoss x) s = .next (s.modHelm x fun m => { m with claim := false }) ∧
    (∀ n, y.helm.sealed = some n →
      (10 ≤ n → s.obeyed ≠ some x.other → ∃ u, exec (.handoverReclaim x) s = .next u ∧ Took s x false u) ∧
      (n < 10 ∨ s.obeyed = some x.other → exec (.handoverReclaim x) s = .next s)) ∧
    (y.sealable true = true → ∃ u c, exec (.finalSeal x) s = .next u ∧ (u.half x).helm.st = .inStep ∧
      (u.half x).helm.sealed = some 0 ∧ (u.half x).helm.claim = y.helm.claim ∧ (u.half x).queue = [] ∧
      (u.half x).kept.getLast? = some c ∧ c.final = true ∧ c.ho = y.helm.handover ∧ Within x s u ∧
      (u.img x).regs = y.img.regs)

/-- A standby out of step asks to rejoin when the ferry link is up, its known answers are right and no half is halted
(R419), and takes the lane registers of the active half (R51); once its image, time bases and statistics equal the active half's and a round of self-test has passed, it is in
step and the active half is paired (R426). -/
def Sys2Proof.Claims.StandbysRejoin : Prop :=
  ∀ (x : Half) (y o : HState) (s : State), y = s.half x → o = s.half x.other → y.up = true → y.helm.st = .out →
    y.ferryUp = true → y.helm.katBad = [] → s.serving = some x.other → s.halvesInterwork = true →
    (y.helm.rejoining = false → o.haltCause = 0 → ∃ u, exec (.rejoinRequest x) s = .next u ∧
      (u.half x).helm.rejoining = true ∧ (u.half x).helm.st = .out ∧ u.out = s.out ++ [.rejoin x] ∧
      (∀ k, tabGet 0 (u.img x).regs k = if lneKey k then tabGet 0 o.img.regs k else tabGet 0 y.img.regs k) ∧
      (u.img x).keys = y.img.keys ∧ (∃ e, (u.half x.other).queue = o.queue ++ [(.cores, .ev e)] ∧ e.code = 0x0703) ∧
      u.flash = s.flash ∧ u.img x.other = s.img x.other) ∧
    (y.helm.rejoining = true → (∀ p ∈ y.helm.regionFails, p.2 < 3) → o.helm.st = .activeSolo →
      ∃ u, exec (.rejoinComplete x) s = .next u ∧ (u.half x).helm.st = .inStep ∧
        (u.half x.other).helm.st = .activePaired ∧ (u.img x).regs = o.img.regs ∧ (u.img x).keys = o.img.keys ∧
        (u.img x).saTx = o.img.saTx ∧ (u.img x).saRx = o.img.saRx ∧ (u.img x).peers = o.img.peers ∧
        (u.img x).sched = o.img.sched ∧ (u.img x).chan = o.img.chan ∧ (u.img x).stn = o.img.stn ∧
        (u.img x).fns = o.img.fns ∧ (u.img x).seq = o.img.seq ∧ (u.half x).mfas = o.mfas ∧
        u.img x.other = s.img x.other ∧
        (u.half x).tbs = o.tbs ∧
        ((∀ n, n < 64 → (y.lane n).target = o.img.lanePwr n) → (u.half x).stats = o.stats) ∧ (u.half x).helm.copyGen = o.helm.gen ∧
        u.flash = s.flash ∧ u.out = s.out) ∧
    (y.helm.rejoining = false → exec (.rejoinComplete x) s = .next s)

/-- Table 13.3: a failed known answer on a cipher lane is kept in KAT_OK until it passes and takes the standby out of
step; a table region that fails 3 times does too; a failed scrub halts the standby; an eye below its margin is counted in
LANES_LOW; the pace check is the governor's.  Tests of the standby do nothing on the active half. -/
def Sys2Proof.Claims.SelfTestsTakeAHalfOutOfStep : Prop :=
  ∀ (x : Half) (y : HState) (s : State), y = s.half x → y.up = true →
    exec (.selftestRun x .pace true) s = .next s ∧
    (∀ l mv ui ok, l < 64 → (y.lane l).pwrNow = 2 → ∃ u, exec (.selftestRun x (.eye l mv ui) ok) s = .next u ∧
      ((u.half x).lane l).eyeV = mv ∧ ((u.half x).lane l).eyeH = ui ∧ Within x s u ∧ u.img x = s.img x ∧
      (l ∈ (u.half x).helm.lanesLow ↔
        mv < bits (y.img.reg 0 0xD00020) 7 0 ∨ ui < bits (y.img.reg 0 0xD00020) 15 8)) ∧
    (y.helm.st.active = true → ∀ ok r, r < 2432 → exec (.selftestRun x (.table r) ok) s = .next s ∧
      exec (.selftestRun x .scrub ok) s = .next s ∧ exec (.selftestRun x .engine ok) s = .next s) ∧
    (y.helm.st = .inStep →
      (∀ l, l < 16384 → exec (.selftestRun x (.gcm l) true) s = .next (s.modHelm x fun m =>
          { m with katBad := m.katBad.filter (· ≠ l) }) ∧
        ∃ u, exec (.selftestRun x (.gcm l) false) s = .next u ∧ (u.half x).helm.st = .out ∧
          l ∈ (u.half x).helm.katBad ∧ Within x s u ∧ u.img x = s.img x) ∧
      (∀ r, r < 2432 →
        exec (.selftestRun x (.table r) true) s = .next (s.modHelm x fun m =>
          { m with regionFails := tabSet 0 m.regionFails r 0 }) ∧
        ∃ u, exec (.selftestRun x (.table r) false) s = .next u ∧
          tabGet 0 (u.half x).helm.regionFails r = tabGet 0 y.helm.regionFails r + 1 ∧
          (u.half x).helm.st = (if 2 ≤ tabGet 0 y.helm.regionFails r then .out else .inStep) ∧ Within x s u ∧
          u.img x = s.img x) ∧
      (s.phase ≠ .cold → ∃ u, exec (.selftestRun x .scrub false) s = .next u ∧
        (u.half x).haltCause = 2 ∧ (u.half x).helm.st = .halted ∧ u.out = s.out ++ [.halt x]) ∧
      (∃ u, exec (.selftestRun x .engine false) s = .next u ∧ (u.half x).pke.ok = false ∧ Within x s u ∧
        u.img x = s.img x))

/-- HELM_HANDOVER at once decides a handover in a paired module and waits for it; without a half in step, or with one
decided already, it is NO_RESOURCE (R413, R560). HELM_HALF_HALT halts the half it names, completing at once when
that is the standby (R40), as a half that finds a cause does by itself. HELM_HALF_RESTART sends the other half
through COLD with its restart count raised (R421); it may not name its own half. Says where these complete:
helmHandover, helmHalfHalt, helmHalfRestart, halfHalt. -/
def Obligations.HelmCommandsAct : Prop :=
  ∀ (x : Half) (h : Hdr) (y o : HState) (s : State), h.fn = 0 → y = s.half x → o = s.half x.other →
    (Executes s h 0x0701 x →
      (y.helm.st = .activePaired → o.helm.st = .inStep → y.helm.handover = none → (s.img x).schedFull 0 0 = false →
        exec (.helmHandover h .immediate 0) s = .next ((s.modHelm x fun m =>
            { m with
              handover := some
                { accepted := false, age := 0, late := false, returnMs := 0, tb := none,
                  by_ := some { table := h.table, pos := h.pos, tag := h.tag, op := 0x0701 } } }).wait x
          { cmd := cmdOf h 0x0701, on := .handover, status := stDone, cflags := 0, result := [], area := none,
            cont := .finish })) ∧
      (y.helm.st = .activeSolo ∨ o.helm.st ≠ .inStep →
        exec (.helmHandover h .immediate 0) s = .next (s.postCpl x (cmdOf h 0x0701) stNoRes 0 []))) ∧
    (Executes s h 0x0702 x → s.phase ≠ .cold →
      (o.haltCause = 0 → ∃ t, Stopped s x.other 5 0 t ∧
        exec (.helmHalfHalt h x.other) s = .next (t.done x h 0x0702)) ∧
      (y.haltCause = 0 → ∃ t, Stopped s x 5 0 t ∧ exec (.helmHalfHalt h x) s = .next t)) ∧
    (∀ cause f, 1 ≤ cause → cause ≤ 7 → f < 1024 →
      (s.phase ≠ .cold → y.haltCause = 0 → ∃ t, Stopped s x cause (if cause = 1 then f else 0) t ∧
        exec (.halfHalt x cause f) s = .next t) ∧
      (s.phase = .cold ∨ y.haltCause ≠ 0 → exec (.halfHalt x cause f) s = .next s)) ∧
    (Executes s h 0x0703 x →
      (o.restarts < 65535 → ∃ u, exec (.helmHalfRestart h x.other) s = .next u ∧
        u.half x.other = { boot := { powered := true }, restarts := o.restarts + 1 } ∧
        Completed u x h 0x0703 stDone [] ∧ (u.img x).regs = y.img.regs ∧ (u.half x).helm.claim = y.helm.claim ∧
        (u.half x).helm.st = .activeSolo) ∧
      (65535 ≤ o.restarts →
        exec (.helmHalfRestart h x.other) s = .next (s.postCpl x (cmdOf h 0x0703) stExhausted 0 [])) ∧
      exec (.helmHalfRestart h x) s = .next (s.postCpl x (cmdOf h 0x0703) stArgs 0 []))

/-! ## Lanes, the ferry link, the pace governor -/

/-- A lane reaches the power state that it moves toward (R562): DEEP forgets signal, lock and adaptation (R62), and a line
lane hunts (R94).  A change of signal or lock of a lane out of DEEP is kept and reported, and without both the lane is not
adapted (R53); an adaptation keeps its CTLE step, the written one where CTLE_AUTO is 0 (R52).  A PCS restart ends (R49). -/
def Sys2Proof.Claims.LanesMoveAndAdapt : Prop :=
  ∀ (x : Half) (n : Nat) (l : LaneSt) (s : State), n < 64 → (s.half x).up = true → l = (s.half x).lane n →
    (l.pwrNow = l.target → exec (.lanePwrMoveDone x n) s = .next s) ∧
    (l.pwrNow ≠ l.target → ∃ u v, exec (.lanePwrMoveDone x n) s = .next u ∧ v = (u.half x).lane n ∧
      v.pwrNow = l.target ∧ (l.target = 0 → v = { l with pwrNow := 0, signal := false, lock := false, adapted := false,
                                                          seen := false, searched := false }) ∧
      (l.target ≠ 0 → v.signal = l.signal ∧ v.adapted = l.adapted ∧
        v.ctle = if l.pwrNow = 0 then (s.img x).ctleStep n else l.ctle) ∧
      (∀ k, k ≠ n → (u.half x).lane k = (s.half x).lane k) ∧ (32 ≤ n → ((u.half x).rxLane (n - 32)).sync = false) ∧
      (n < 32 → u.img x = s.img x) ∧ Within x { s with fv := u.fv } u ∧ (u.img x).regs = (s.img x).regs) ∧
    (∀ sig lk, (l.signal ≠ sig ∨ l.lock ≠ lk) → (tabGet {} s.slips (slipKey n .rx) : Slip).stopped = false →
      (l.pwrNow = 0 → exec (.signalChange x n sig lk) s = .next s) ∧
      (l.pwrNow ≠ 0 → ∃ u, exec (.signalChange x n sig lk) s = .next u ∧ (u.half x).lane n =
          { l with signal := sig, lock := lk, seen := l.seen || sig, adapted := l.adapted && (sig && lk) } ∧
        (∀ k, k ≠ n → (u.half x).lane k = (s.half x).lane k) ∧
        (32 ≤ n → (sig && lk) = false → ((u.half x).rxLane (n - 32)).sync = false) ∧
        Within x { s with fv := u.fv } u ∧ (u.img x).regs = (s.img x).regs)) ∧
    (∀ c v h, c ≤ 40 → v < 256 → h < 256 → l.pwrNow ≠ 0 → l.signal = true → l.lock = true → l.adapted = false →
      ∃ step, step = (if (s.img x).ctleAuto n then c else (s.img x).ctleStep n) ∧
        exec (.laneAdapted x n c v h) s = .next ((s.modHalf x fun y => y.setLane n
          { l with adapted := true, searched := true, ctle := step, eyeV := v, eyeH := h }).postLevel x 0x0D07 n
            [(1, x.idx), (1, n), (1, step), (1, v), (1, h)])) ∧
    (n < 32 → exec (.clientPcsRestartDone x n) s =
      .next (s.modHalf x fun y => y.setLane n { l with pcsRestart := false }))

/-- The loss or return of a slipway supply is kept and reported once; the loss of both supplies, or of the output's
activity while its selected input is sending, stops the slipway for good (R66, R67); which sense failed is coded 0 and 1 (the
model's choice, notes/assumptions/106.md). -/
def Sys2Proof.Claims.SlipwaysStop : Prop :=
  ∀ (x : Half) (n : Nat) (d : Dir) (v : Slip) (s : State), n < 64 → s.holder = some x →
    v = tabGet {} s.slips (slipKey n d) →
    (∀ g, v.lost1 = g → exec (.slipwaySupply n d 1 g) s = .next
      ({ s with slips := tabSet {} s.slips (slipKey n d) { v with lost1 := !g } }.postLevel x 0x0D09
        (2 * slipKey n d + 1) [(1, n), (1, d.idx), (1, 1), (1, b2n g)])) ∧
    (∀ g, v.lost2 = g → exec (.slipwaySupply n d 2 g) s = .next
      ({ s with slips := tabSet {} s.slips (slipKey n d) { v with lost2 := !g } }.postLevel x 0x0D09
        (2 * slipKey n d + 2) [(1, n), (1, d.idx), (1, 2), (1, b2n g)])) ∧
    (∀ g, v.lost1 ≠ g → exec (.slipwaySupply n d 1 g) s = .next s) ∧
    (v.stopped = false →
      (v.lost1 = true → v.lost2 = true → exec (.slipwayFault n d .supplies) s = .next
        ({ s with slips := tabSet {} s.slips (slipKey n d) { v with stopped := true } }.postLevel x 0x0D08 (slipKey n d)
          [(1, n), (1, d.idx), (1, 0)])) ∧
      (v.lost1 = false → exec (.slipwayFault n d .supplies) s = .next s) ∧
      (s.slipFed n d = false → exec (.slipwayFault n d .activity) s = .next s) ∧
      (s.slipFed n d = true → exec (.slipwayFault n d .activity) s = .next
        ({ s with slips := tabSet {} s.slips (slipKey n d) { v with stopped := true, inactive := true } }.postLevel x
          0x0D08 (slipKey n d) [(1, n), (1, d.idx), (1, 1)]))) ∧
    (s.slipFed n .rx = true ∧
      s.slipFed n .tx = ((s.half x).up && decide (((s.half x).lane n).pwrNow = 2))) ∧
    (v.stopped = true → ∀ f, exec (.slipwayFault n d f) s = .next s)

/-- A ferry lane locks at the 64th valid header in a row and slips by one bit at an invalid one; locked, it loses lock and
leaves use at the 16th invalid header of a window of 64, or when its signal is lost (R68, Table 02.5).  A lock gained or lost
is posted.  A locked lane enters use at an alignment marker that deskew takes in; one that is not locked does not (R69,
R70). -/
def Sys2Proof.Claims.FerryLanesLockAndEnterUse : Prop :=
  ∀ (x : Half) (n : Nat) (v : FerryLane) (s : State), n < 8 → (s.half x).up = true → v = tabGet {} (s.half x).ferry n →
    (∀ hds lost w z, w = v.headers hds → z = (if lost then w.drop else w) →
      (∃ u, exec (.ferryLaneLock x { lane := n, headers := hds }) s = .next u ∧ (u.half x).ferry = tabSet {} (s.half x).ferry n w ∧ Within x s u ∧
        u.img x = s.img x ∧ (w.locked = v.locked → (u.half x).queue = (s.half x).queue)) ∧
      (∃ u, exec (.ferryLaneUnlock x { lane := n, headers := hds, lost }) s = .next u ∧ (u.half x).ferry = tabSet {} (s.half x).ferry n z ∧
        Within x s u ∧ u.img x = s.img x ∧ (lost = true → z.locked = false ∧ z.inUse = false) ∧
        (z.locked = v.locked → (u.half x).queue = (s.half x).queue))) ∧
    (v.locked = false → v.count = 0 → ∀ hds, (∀ hd ∈ hds, headerOk hd = true) →
      (hds.length < 64 → (v.headers hds).locked = false ∧ (v.headers hds).count = hds.length) ∧
      (hds.length = 64 → (v.headers hds).locked = true)) ∧
    (∀ hd, headerOk hd = false →
      (v.locked = false → v.header hd = { slips := (v.slips + 1) % 66 }) ∧
      (v.locked = true → v.bad + 1 ≠ 16 → (v.header hd).locked = true ∧ (v.header hd).inUse = v.inUse) ∧
      (v.locked = true → v.bad + 1 = 16 → v.header hd = { slips := (v.slips + 1) % 66 })) ∧
    (∀ at_, (v.locked = false ∨ (ferryDelays ((s.half x).ferryArrivals n at_)).isNone = true →
        exec (.ferryLaneAdmit x { lane := n, at_ }) s = .next s) ∧
      (v.locked = true → (ferryDelays ((s.half x).ferryArrivals n at_)).isSome = true →
        exec (.ferryLaneAdmit x { lane := n, at_ }) s = .next (s.modHalf x fun y => { y with
          ferry := tabSet {} y.ferry n { v with inUse := true, at_ } })))

/-- The pace governor (R22): a slowest pace above the target raises the core voltage by 5 mV up to 860 mV, 64 crossings
below the target less its hysteresis lower it by 5 mV down to 680 mV.  PACE_LIMIT rises after 4 crossings above 960 ps at
860 mV and falls after 64 at or below it; RATE_FLOOR rises above 1,280 ps and falls after 64 at or below it.  A FIFO that
rises above its level reports once until it has fallen to half of it (R37), and a lane counts the words that it could not
write only while RATE_FLOOR is raised (R38). -/
def Sys2Proof.Claims.GovernorSteersTheVoltage : Prop :=
  ∀ (x : Half) (p : List Nat) (g : Gov) (w : Word) (s : State), p.length = 16 → (s.half x).up = true →
    g = (s.half x).gov → w = (s.half x).reg 0 0x100 →
    (∃ u g' m, exec (.paceGovernorRun x p []) s = .next u ∧ g' = (u.half x).gov ∧ m = p.foldl max 0 ∧ g'.slowest = m ∧
      g'.paces = p ∧
      (bits w 25 16 < m → g'.vcore = (if g.vcore < 860 then g.vcore + 5 else g.vcore) ∧ g'.lowRun = 0) ∧
      (m ≤ bits w 25 16 → bits w 25 16 - bits w 15 8 ≤ m → g'.vcore = g.vcore ∧ g'.lowRun = 0) ∧
      (m < bits w 25 16 - bits w 15 8 → g.lowRun ≠ 63 → g'.vcore = g.vcore ∧ g'.lowRun = g.lowRun + 1) ∧
      (m < bits w 25 16 - bits w 15 8 → g.lowRun = 63 →
        g'.vcore = (if 680 < g.vcore then g.vcore - 5 else g.vcore) ∧ g'.lowRun = 0) ∧
      (g.paceLimit = false → (g'.paceLimit = true ↔ g'.vcore = 860 ∧ 960 < m ∧ 3 ≤ g.overRun)) ∧
      (g.paceLimit = true → (g'.paceLimit = false ↔ m ≤ 960 ∧ 63 ≤ g.underRun)) ∧
      (g'.rateFloor = true ↔ 1280 < m ∨ (g.rateFloor = true ∧ g.floorRun < 63)) ∧ Within x s u ∧ u.img x = s.img x) ∧
    (∀ v f, v.index < 640 → f = tabGet {} (s.half x).fifos v.index → ∃ u f', exec (.paceGovernorRun x p [v]) s = .next u ∧
      f' = tabGet {} (u.half x).fifos v.index ∧ f'.occ = v.occ ∧ f'.cerr = min 65535 (f.cerr + v.cerr) ∧
      f'.level = f.level ∧ Within x s u ∧ (v.index < 64 → ((u.half x).lane v.index).overrun =
        ((s.half x).lane v.index).overrun + if (u.half x).gov.rateFloor then v.lost else 0) ∧
      (f'.armed = true ↔ v.occ ≤ f.level / 2 ∨ (f.armed = true ∧ ¬ (f.level ≠ 0 ∧ f.occ ≤ f.level ∧ f.level < v.occ))))

/-! ## Frames on the line -/

/-- In HUNT an exact FAS opens a sounding (R89); a check within 3 errors at the predicted MFAS counts it, another discards
it (R91); CONFIRM_N sightings give SYNC (R92).  In SYNC a good frame moves the prediction on, its BIP is compared with that of the frame
before (R81), its segment joins the hail channel and the message that it completes is delivered with its lane (R85); LOSS_M frames in a row that are
not lose SYNC (R93); out of SYNC there are no frames to take. -/
def Sys2Proof.Claims.LanesAlign : Prop :=
  ∀ (x : Half) (k pos m : Nat) (l : RxLane) (s : State), k < 32 → m < 256 → l = (s.half x).rxLane k →
    ((s.half x).hunting k = true →
      (l.snds = [] → exec (.fasMatch x k pos m) s = .next (s.modHalf x fun y => y.setRxLane k
        { l with snds := [{ pos := pos + (if m % 2 = 0 then 138570 else 138870), mfas := (m + 1) % 256, count := 1 }] })) ∧
      (∀ c e, l.snds = [c] → c.pos = pos →
        exec (.fasMatch x k pos m) s = .next s ∧
        (3 < e ∨ m ≠ c.mfas → ∃ u, exec (.soundingCheck x k pos e m) s = .next u ∧
          (u.half x).rxLane k = { l with snds := [] } ∧ Within x s u ∧ u.img x = s.img x) ∧
        (e ≤ 3 → m = c.mfas → c.count + 1 < (s.img x).confirmN → exec (.soundingCheck x k pos e m) s =
          .next (s.modHalf x fun y => y.setRxLane k { l with snds :=
            [{ pos := pos + (if m % 2 = 0 then 138570 else 138870), mfas := (m + 1) % 256, count := c.count + 1 }] })) ∧
        (e ≤ 3 → m = c.mfas → (s.img x).confirmN ≤ c.count + 1 → ∃ u, exec (.soundingCheck x k pos e m) s = .next u ∧
          ((u.half x).rxLane k).sync = true ∧ ((u.half x).rxLane k).snds = [] ∧ ((u.half x).rxLane k).run = 0 ∧
          ((u.half x).rxLane k).mfas = (m + 1) % 256 ∧ Within x { s with fv := u.fv } u ∧
          (u.img x).regs = (s.img x).regs))) ∧
    ((s.half x).hunting k = false → exec (.fasMatch x k pos m) s = .next s) ∧
    (∀ f r, (s.half x).up = true → r = s.laneFrame x k f →
      (l.sync = false → exec (.laneFrameRx x k f) s = .next s) ∧
      (l.sync = true → (r.1 = none → exec (.laneFrameRx x k f) s = .next r.2) ∧
        ∀ msg, r.1 = some msg → exec (.laneFrameRx x k f) s = .next (r.2.peerMessage x (.lane k) msg)) ∧
      (l.sync = true → f.fasErrors ≤ 3 → f.ovh.getD 1 0 = l.mfas → ∃ v, v = (r.2.half x).rxLane k ∧ v.sync = true ∧
        v.run = 0 ∧ v.mfas = (l.mfas + 1) % 256 ∧ v.bip = some (frameBip f.ovh (f.payload.map Prod.fst)) ∧
        (∀ b, f.ovhOk = true → l.bip = some b → v.rei = bipErrors b (beNat (bytesAt f.ovh 2 2)) ∧
          v.wFrames = l.wFrames + 1 ∧ v.wBip = l.wBip + v.rei) ∧
        (f.ovhOk = false ∨ l.bip = none → v.rei = l.rei ∧ v.wFrames = l.wFrames ∧ v.wBip = l.wBip) ∧
        (f.ovhOk = false → v.lpos = l.lpos ∧ v.gid = l.gid) ∧
        (r.1, v.hail) = ((segment 32 2048 l.hail (if f.ovhOk then f.ovh.getD 5 0 else 0) ((f.ovh.drop 6).take 32)).2.1,
          (segment 32 2048 l.hail (if f.ovhOk then f.ovh.getD 5 0 else 0) ((f.ovh.drop 6).take 32)).1) ∧
        (s.isActive x = true → tabGet 0 (r.2.half x).stats (statKey 1 (32 + k) 1) =
          (tabGet 0 (s.half x).stats (statKey 1 (32 + k) 1) + f.corrCw) % 2 ^ 64) ∧
        Within x { s with fv := r.2.fv } r.2 ∧ (r.2.img x).regs = (s.img x).regs) ∧
      (l.sync = true → 3 < f.fasErrors ∨ f.ovh.getD 1 0 ≠ l.mfas →
        (l.run + 1 < (s.img x).lossM → ∃ v, v = (r.2.half x).rxLane k ∧
          v.sync = true ∧ v.run = l.run + 1 ∧ v.mfas = (l.mfas + 1) % 256 ∧ Within x { s with fv := r.2.fv } r.2) ∧
        ((s.img x).lossM ≤ l.run + 1 → ∃ v, v = (r.2.half x).rxLane k ∧ r.1 = none ∧
          v.sync = false ∧ v.lpos = none ∧ v.gid = none ∧ v.hail = none ∧ Within x { s with fv := r.2.fv } r.2 ∧
          (r.2.img x).regs = (s.img x).regs)))

/-- A window of a lane that was in SYNC throughout raises DEG when its BIP or uncorrectable ratio is above 10^−DEG_EXP and
clears it when both are at or below a tenth of that; every other window leaves it (R103); none ends before the length of Table 03.9, and each starts afresh.
PDEG of a side follows its path errors in the same way (Table 04.9).  A retime that comes into force ends the failed state
of its deskew set (R100). -/
def Sys2Proof.Claims.WindowsAndRetimesEnd : Prop :=
  ∀ (x : Half) (s : State),
    (∀ k g l e, k < 32 → (s.img x).laneGroup k = some g → l = (s.half x).rxLane k → e = (s.img x).groupDegExp g →
      (s.now < l.wAt + degWindowNs e → exec (.degWindowEnd x (.lane k)) s = .next s) ∧
      (l.wAt + degWindowNs e ≤ s.now → ∃ u v, exec (.degWindowEnd x (.lane k)) s = .next u ∧ v = (u.half x).rxLane k ∧ v.wFrames = 0 ∧ v.wBip = 0 ∧
        v.wCw = 0 ∧ v.wUncorr = 0 ∧ v.wBad = !l.sync ∧ v.sync = l.sync ∧
        (l.wBad = true → v.deg = l.deg) ∧
        (l.wBad = false →
          (131006 * l.wFrames < l.wBip * 10 ^ e ∨ l.wCw < l.wUncorr * 10 ^ e → v.deg = true) ∧
          (l.wBip * 10 ^ (e + 1) ≤ 131006 * l.wFrames → l.wUncorr * 10 ^ (e + 1) ≤ l.wCw → v.deg = false)) ∧
        v.wAt = s.now ∧ Within x s u ∧ u.img x = s.img x)) ∧
    (∀ t sd v e, t < 32 → (s.img x).tribEn t = true → sd ∈ (s.img x).tribSides t → v = (s.half x).side t sd →
      e = (s.img x).pdegExp t →
      (s.now < v.wAt + degWindowNs e → exec (.degWindowEnd x (.side t sd)) s = .next s) ∧
      (v.wAt + degWindowNs e ≤ s.now → ∃ u w, exec (.degWindowEnd x (.side t sd)) s = .next u ∧ w = (u.half x).side t sd ∧
        w.wRows = 0 ∧ w.wErr = 0 ∧ w.slots = v.slots ∧ (v.wBad = true → w.pdeg = v.pdeg) ∧
        (v.wBad = false → (129024 * v.wRows < v.wErr * 10 ^ e → w.pdeg = true) ∧
          (v.wErr * 10 ^ (e + 1) ≤ 129024 * v.wRows → w.pdeg = false)) ∧ w.wAt = s.now ∧ Within x s u ∧ u.img x = s.img x)) ∧
    (∀ e, degWindowNs e = if e ≤ 6 then 1000000 else 10 ^ (e - 1)) ∧
    (∀ g, g < 16 → (s.half x).rxLanes = [] → ∃ u, exec (.retimeInForce x g) s = .next u ∧
      ((u.half x).grp g).retiming = false ∧ Within x { s with fv := u.fv } u ∧ (u.img x).regs = (s.img x).regs)

/-- A frame of a failed slot delivers nothing, loses the row in progress and spoils the window (R104, R117, R134).  Otherwise
the pointer is interpreted (R127): in NORM a normal P equal to the current one changes nothing, an accepted increment or
decrement moves it by one modulo 1,018; in LOP three equal normal or new values in a row give NORM.  The COH of a row counts
only when its CRC is right, and gives the CFC and the path errors of the row before (R115, R116); with a wrong one the CFC
goes on by one.  A message of the channel that waits is taken by TMC_MESSAGE_RX in its order (R117); another does nothing. -/
def Sys2Proof.Claims.ContainerRowsAreInterpreted : Prop :=
  ∀ (x : Half) (t : Nat) (sd : Side) (i m : Nat) (gp : Nat × Nat) (v : SlotRx) (s : State), t < 32 → i < 8 →
    (s.half x).up = true → (s.img x).tribEn t = true → sd ∈ (s.img x).tribSides t → i < (s.img x).tribSlots t →
    gp = ((s.img x).slotsInUse t sd).getD i (0, 0) → v = ((s.half x).side t sd).slot i →
    ((s.half x).slotFailed gp.1 gp.2 = true → ∃ u w, exec (.containerRowRx x t sd i m) s = .next u ∧
      w = (u.half x).side t sd ∧ (w.slot i).part = none ∧ (w.slot i).rows = [] ∧ (w.slot i).cur = v.cur ∧ w.tmc = none ∧
      w.wBad = true ∧ Within x { s with fv := u.fv } u ∧ (u.img x).regs = (s.img x).regs) ∧
    ((s.half x).slotFailed gp.1 gp.2 = false → (s.half x).slotWords gp.1 gp.2 m = none →
      exec (.containerRowRx x t sd i m) s = .next s) ∧
    (∀ ws rcv, (s.half x).slotFailed gp.1 gp.2 = false → (s.half x).slotWords gp.1 gp.2 m = some ws →
      rcv = rcvPtr (wordBytes ((ws.headD (0, false)).1)) →
      ∃ u w, exec (.containerRowRx x t sd i m) s = .next u ∧ w = ((u.half x).side t sd).slot i ∧
        (v.norm = true →
          (rcv = some (0, v.cur) → w.norm = true ∧ w.cur = v.cur) ∧
          (rcv = some (1, v.cur) → 3 ≤ v.sinceAcc → w.norm = true ∧ w.cur = (v.cur + 1) % 1018) ∧
          (rcv = some (2, v.cur) → 3 ≤ v.sinceAcc → w.norm = true ∧ w.cur = (v.cur + 1017) % 1018) ∧
          (rcv = none → w.cur = v.cur ∧ (w.norm = true ↔ v.inv ≠ 7))) ∧
        (v.norm = false → ∀ p, rcv = some (0, p) → v.lopRun = 2 → v.lopVal = p → w.norm = true ∧ w.cur = p) ∧
        WithinOut x { s with fv := u.fv } u ∧ (u.img x).regs = (s.img x).regs ∧ (u.img x).tx = (s.img x).tx) ∧
    (∀ coh w, w = (((s.cohRow x t sd i coh).half x).side t sd).slot i →
      (crcOk coh = true → w.cfc = beNat (bytesAt coh 8 8) ∧
        (∀ b, v.pbip = some b → w.pathErr = bipErrors b (beNat (bytesAt coh 16 2))) ∧
        (v.pbip = none → w.pathErr = v.pathErr)) ∧
      (crcOk coh = false → w.cfc = (v.cfc + 1) % 2 ^ 64 ∧ w.pathErr = v.pathErr)) ∧
    ((s.img x).termTrib t = true → ∀ bs,
      (((s.half x).trib t).tmcRx.head? ≠ some bs → exec (.tmcMessageRx x t bs) s = .next s) ∧
      (∀ rest u, ((s.half x).trib t).tmcRx = bs :: rest →
        u = s.modHalf x (fun y => y.setTrib t { y.trib t with tmcRx := rest }) → pieceType (bs.getD 0 0) = false →
        (bs.length ≠ 28 ∨ beNat (bytesAt bs 1 1) ≠ 1 ∨ s.holder ≠ some x → exec (.tmcMessageRx x t bs) s = .next u) ∧
        (s.holder = some x → bs.length = 28 → beNat (bytesAt bs 0 1) = 0x13 → beNat (bytesAt bs 1 1) = 1 →
          ∀ k, ((s.img x).txA t).inSt 2 = some k → ((s.img x).txA t).st = .switched → k.epoch = beNat (bytesAt bs 2 4) →
          exec (.tmcMessageRx x t bs) s = .next (u.modImg x fun im => im.setTx t { im.txA t with confirmed := true }))))

/-- At the start of a lane frame the MFAS goes on by one (R75), a half that does not drive sends nothing, one that drives
sends a frame on every causeway lane in ACTIVE with its identity and MFAS (R78), and the CFC of each enabled terminating
tributary of an active half goes on by one (R114).  A decided adjustment of a hub side is carried out in the first eligible
frame, and not while AIS rows go out: in that frame the outgoing P moves by one modulo 1,018 and the store by one word
(R130, R131). -/
def Sys2Proof.Claims.FramesAreSent : Prop :=
  ∀ (x : Half) (s : State), (s.half x).up = true →
    (∀ arr m, m = ((s.half x).mfas + 1) % 256 → ∃ u, exec (.laneFrameTx x arr) s = .next u ∧ (u.half x).mfas = m ∧
      (s.obeyed ≠ some x → u.out = s.out) ∧
      (s.obeyed = some x → ∃ head payload : Nat → List Nat, u.out = s.out ++
          ((List.range 32).filter (s.half x).sendsFrames).map (fun k => Out.lane k (head k) (payload k)) ∧
        ∀ k, k < 32 → (s.half x).sendsFrames k = true →
          (head k).getD 8 0 = (s.half x).sentIdent k m ∧ (head k).getD 9 0 = m) ∧
      (s.isActive x = true → ∀ t, (s.img x).termTrib t = true →
        tabGet 0 (u.img x).cfc t = (tabGet 0 (s.img x).cfc t + 1) % 2 ^ 64) ∧
      (s.isActive x = false → u.img x = s.img x) ∧ WithinOut x { s with fv := u.fv } u ∧ (u.img x).regs = (s.img x).regs ∧
      (u.img x).rx = (s.img x).rx ∧ (u.half x).rxLanes = (s.half x).rxLanes) ∧
    (∀ t sd v inc n, t < 32 → (s.img x).tribEn t = true → (s.img x).tribPass t = true → v = (s.half x).side t sd →
      v.pend = some (inc, n) →
      ((s.half x).hubAis t sd = false → (s.half x).adjustDue n = true → v.txNew = 0 → exec (.pointerAdjust x t sd) s =
        .next (s.modHalf x fun y => y.setSide t sd { v with pend := none, act := if inc then 1 else 2 })) ∧
      ((s.half x).hubAis t sd = true ∨ (s.half x).adjustDue n = false ∨ v.txNew ≠ 0 →
        exec (.pointerAdjust x t sd) s = .next s)) ∧
    (∀ t sd v w sl w', v = (s.half x).side t sd → (s.half x).hubAis t sd = false → v.recentre = false → v.txNew = 0 →
      v.act = 1 ∨ v.act = 2 → w' = ((s.sendHub x t sd w sl).2.half x).side t sd →
      w'.txPtr = (if v.act = 1 then (v.txPtr + 1) % 1018 else (v.txPtr + 1017) % 1018) ∧ w'.act = 0 ∧ w'.sinceAdj = 0 ∧
      w'.fill = (if v.act = 1 then min 16 (v.fill + w.words - 1018) + 1 else min 16 (v.fill + w.words - 1018) - 1))

/-! ## The standing configuration, firmware and enrolment -/

namespace Sys2Proof.Claims

/-- A record is on its way to flash under the next identifier, and the command waits for it, its place among the
completions kept (R286, R29). -/
def Recorded (s : State) (x : Half) (h : Hdr) (op : Nat) (r : Rec) (result : List Fld) : State :=
  let f := s.flash
  let j : Job := { cmd := cmdOf h op, on := .flash f.nextRec, status := stDone, cflags := 0, result, area := none,
                   cont := .finish }
  let q : PendRec := { id := f.nextRec, by_ := x, rec_ := r }
  { s with flash := { f with nextRec := f.nextRec + 1, recs := f.recs ++ [q] } }.waitActed x j

/-- A half with the hash key of its station table. -/
def hashed (x : HState) (key : Nat) : HState := { x with img := { x.img with stnHash := key } }

/-- The run has ended with a cause and the command's completion is carried into the next run (R463, R483); both halves
start from reset with one hash key for the station table. -/
def NextRun (s : State) (x : Half) (c : Cmd) (cause : Nat) (t : State) : Prop :=
  t.phase = .booting ∧ (∃ key, t.a = hashed s.a.afterReset key ∧ t.b = hashed s.b.afterReset key) ∧
  t.tam.endCause = cause ∧
  t.tam.evidence = s.tam.evidence ∧ t.tam.log = s.tam.log ∧ t.flash.recs = [] ∧ t.flash.run = s.flash.run ∧
  t.carried = s.carried ++ [{ op := c.op, fn := c.fn, table := c.table, half := x, status := stDone, tag := c.tag,
                              pos := c.pos, cflags := 0, result := [] }] ∧
  t.board = s.board ∧ t.modRegs = s.modRegs ∧ t.host = s.host ∧ t.out = s.out

end Sys2Proof.Claims

/-- CFG_SAVE puts the registers of R496 with the next SAVE_COUNT into the slot that is not current, to be current once
durable; whether its read-back succeeds is free, and one that fails completes with INTEGRITY (R497). CFG_IMPORT does
so with an image that the host gives, and refuses one that is malformed (R503). MODULE_SET changes the policing and
posts MODULE_STATE (R500, R501). Model's choices in it: notes/assumptions/20.md, notes/assumptions/21.md,
notes/assumptions/22.md. Says where these complete: cfgSave, cfgImport, moduleSet, flashRecordDurable. -/
def Obligations.ConfigurationIsSavedAndModuleSet : Prop :=
  ∀ (x : Half) (h : Hdr) (s : State), h.fn = 0 → s.board.powerFail = false →
    (Executes s h 0x0820 x → ∀ c : CfgImg, c = { records := s.saveRecords x, saveCount := s.flash.nextSave, run := s.flash.run,
                                                 valid := true } →
      exec (.cfgSave h) s = .next (Recorded { s with fv := s.fv + 1 } x h 0x0820 (.cfg s.flash.spareSlot c)
        [(8, c.saveCount)]) ∨
      exec (.cfgSave h) s = .next ({ s with fv := s.fv + 1 }.postCpl x (cmdOf h 0x0820) stIntegrity 0 [])) ∧
    (Executes s h 0x0822 x → ∀ addr len i,
      (cfgInputBad len i = false → exec (.cfgImport h addr len i) s = .next (Recorded s x h 0x0822
        (.cfg s.flash.spareSlot { records := cfgRecords i, saveCount := s.flash.nextSave, run := s.flash.run,
                                  valid := true }) [(8, s.flash.nextSave)])) ∧
      (bytesAt i 0 4 ≠ ascii "FCFG" ∨ i.getD 4 0 ≠ 1 ∨ len ≠ 68 + 8 * cfgCount i ∨ i.length ≠ len ∨
          leNat (bytesAt i (64 + 8 * cfgCount i) 4) ≠ crc32c (i.take (64 + 8 * cfgCount i)) →
        exec (.cfgImport h addr len i) s = .next (s.postCpl x (cmdOf h 0x0822) stArgs 0 []))) ∧
    (∀ slot c id j, s.holder = some x → s.flash.recs = [{ id, by_ := x, rec_ := .cfg slot c }] → (s.img x).jobs = [j] →
      j.on = .flash id → (s.img x).sessions = [] → ∃ u, exec (.flashRecordDurable id) s = .next u ∧
        u.flash.cfgCur = some slot ∧ u.flash.config = some c ∧ u.flash.recs = [] ∧
        u.cfgDefaulted = (if j.cmd.op = 0x0820 ∧ j.status = stDone then false else s.cfgDefaulted) ∧
        u.half x.other = s.half x.other ∧ (u.img x).regs = (s.img x).regs) ∧
    (∀ service, Executes s h 0x0823 x →
      (s.tam.seed = true → (s.img x).service = service →
        exec (.moduleSet h service) s = .next (s.postCpl x (cmdOf h 0x0823) stDone cfAlready [])) ∧
      (s.tam.seed = true → (s.img x).service ≠ service → ∃ u e, exec (.moduleSet h service) s = .next u ∧
        (u.img x).service = service ∧ u.lastState = u.modState ∧ e.code = 0x0D0E ∧
        e.payload = [(1, s.lastState), (1, u.modState), (1, b2n service), (1, x.idx)] ∧
        (u.half x).queue = (s.half x).queue ++ [(.cores, .ev e), (.command, .cpl
          { op := 0x0823, fn := 0, table := h.table, half := x, status := stDone, tag := h.tag, pos := h.pos, cflags := 0,
            result := [] })] ∧ Within x { s with lastState := u.lastState } u ∧ (u.img x).regs = (s.img x).regs) ∧
      (s.tam.seed = false →
        exec (.moduleSet h service) s = .next (s.postCpl x (cmdOf h 0x0823) stArgs 0 [])))

/-- FW_STAGE completes with REJECTED_ARGS, LOCKED or PKE_REJECT as R553 says; an accepted image is written at the dual
verification deadline to the slot that is not the boot slot, and its stage record is journalled unless the read-back
fails. FW_ACTIVATE restarts the other half with a slot named (R554). FW_COMMIT, while both halves run the staged
slot and one is in step, makes it the boot slot once its record is durable, and burns both thermometers to its SVN
(R555). Model's choices in it: notes/assumptions/22.md, notes/assumptions/88.md. Says where these complete: fwStage,
fwActivate, fwCommit, flashRecordDurable. -/
def Obligations.FirmwareIsStagedActivatedAndCommitted : Prop :=
  ∀ (x : Half) (h : Hdr) (s : State), h.fn = 0 → s.board.powerFail = false →
    (∀ addr len i, Executes s h 0x0801 x → i.length = len → s.pkeFull x 0 = false →
      exec (.fwStage h addr len i) s = .next (
        if s.stageBad x i then s.postCpl x (cmdOf h 0x0801) stArgs 0 []
        else if !fwSigOk i then s.pkeOp x h 0x0801 704000 stPke [] none .finish
        else if s.offBootSlot then s.postCpl x (cmdOf h 0x0801) stLocked 0 []
        else s.pkeOp x h 0x0801 704000 stDone [(1, 1 - s.flash.bootSlot), (1, i.getD 5 0)] none
          (.stage (1 - s.flash.bootSlot) (fwOfInput i))) ∧
      (fwHeaderOk i = false ∨ fwPayloadOk i = false ∨ fwKeyOk i = false ∨ i.getD 5 0 < s.flash.rollback ∨
          (∃ w, s.fwOf x = some w ∧ interwork w (fwOfInput i) = false) → s.stageBad x i = true)) ∧
    (∀ j slot fw, j.cont = .stage slot fw → slot < 2 → ∃ ok u, s.released x j true = u ∧
      u.flash.slot slot = some { fw with loads := ok } ∧ u.flash.staged = none ∧ u.flash.bootSlot = s.flash.bootSlot ∧
      u.flash.slot (1 - slot) = s.flash.slot (1 - slot) ∧
      (ok = true → u.flash.recs = s.flash.recs ++ [{ id := s.flash.nextRec, by_ := x, rec_ := .stage slot fw }] ∧
        (u.img x).jobs = (s.img x).jobs ++ [{ j with on := .flash s.flash.nextRec, cont := .finish }]) ∧
      (ok = false → u.flash.recs = s.flash.recs ∧ u = { s with fv := s.fv + 1, flash := u.flash }.postCpl x j.cmd
        stIntegrity 0 [])) ∧
    (∀ slot, Executes s h 0x0802 x → slot < 2 → slot = s.flash.bootSlot ∨ s.flash.staged = some slot →
      ((s.half x.other).restarts < 65535 → ∃ u, exec (.fwActivate h x.other slot) s = .next u ∧
        u.half x.other =
          { boot := { powered := true, named := some slot }, restarts := (s.half x.other).restarts + 1 } ∧
        Completed u x h 0x0802 stDone [] ∧ (u.img x).regs = (s.img x).regs ∧ (u.half x).helm.st = .activeSolo ∧
        u.flash = s.flash.setPriv x.other { s.flash.priv x.other with
          restarts := (s.half x.other).restarts + 1 }) ∧
      (65535 ≤ (s.half x.other).restarts →
        exec (.fwActivate h x.other slot) s = .next (s.postCpl x (cmdOf h 0x0802) stExhausted 0 [])) ∧
      exec (.fwActivate h x slot) s = .next (s.postCpl x (cmdOf h 0x0802) stArgs 0 [])) ∧
    (∀ slot, Executes s h 0x0803 x → s.flash.staged = some slot →
      ((∀ y : Half, (s.half y).up = true ∧ (s.half y).boot.slot = slot) → (∃ y : Half, (s.half y).helm.st = .inStep) →
        exec (.fwCommit h) s = .next (Recorded s x h 0x0803 (.fwCommit slot)
          [(1, slot), (1, max s.flash.rollback (s.flash.svnOf slot))])) ∧
      ((∃ y : Half, (s.half y).up = false ∨ (s.half y).boot.slot ≠ slot) ∨ (∀ y : Half, (s.half y).helm.st ≠ .inStep) →
        exec (.fwCommit h) s = .next (s.postCpl x (cmdOf h 0x0803) stArgs 0 []))) ∧
    (∀ slot id j, s.holder = some x → s.flash.recs = [{ id, by_ := x, rec_ := .fwCommit slot }] → (s.img x).jobs = [j] →
      j.on = .flash id → j.cmd.op ≠ 0x0820 → (s.img x).sessions = [] → ∃ u, exec (.flashRecordDurable id) s = .next u ∧
        u.flash.bootSlot = slot ∧ u.flash.staged = none ∧ u.flash.rollA = max s.flash.rollback (s.flash.svnOf slot) ∧
        u.flash.rollB = u.flash.rollA ∧ Within x { s with flash := u.flash } u)

/-- ENROL_ANCHOR is accepted only while no anchor is held, and fails with PKE_REJECT for a key that is no point of its
curve; ENROL_CHARTER only for a charter that names this module under the held anchor with a CHARTER_SEQ above that of the
charter it replaces.  Each takes effect, and ENROLLED is posted, once its record is durable (R548); hails then rest for
four hail periods (R549). -/
def Sys2Proof.Claims.EnrolmentTakesEffectOnceDurable : Prop :=
  ∀ (x : Half) (h : Hdr) (addr : Nat) (s : State), h.fn = 0 → s.board.powerFail = false →
    (∀ a, Executes s h 0x0811 x →
      (s.flash.anchorTaken = false → (Anchor.mk a).formOk = true → exec (.enrolAnchor h addr a) s = .next (
        if (Anchor.mk a).keysOk then Recorded s x h 0x0811 (.anchor (Anchor.mk a)) []
        else s.postCpl x (cmdOf h 0x0811) stPke 0 [])) ∧
      (s.flash.anchor ≠ none ∨ a.length ≠ 184 ∨ bytesAt a 0 4 ≠ ascii "FANC" ∨ a.getD 4 0 ≠ 1 →
        exec (.enrolAnchor h addr a) s = .next (s.postCpl x (cmdOf h 0x0811) stArgs 0 []))) ∧
    (∀ c, Executes s h 0x0812 x → s.pkeFull x 0 = false →
      exec (.enrolCharter h addr c) s = .next (
        if s.ownCharterBad x (Charter.mk c) then s.postCpl x (cmdOf h 0x0812) stArgs 0 []
        else if s.flash.anchor.any (Charter.mk c).sigOk then
          s.pkeOp x h 0x0812 704000 stDone [(2, (Charter.mk c).member)] none (.charter (Charter.mk c))
        else s.pkeOp x h 0x0812 704000 stPke [] none .finish) ∧
      (s.flash.anchor = none ∨ c.length ≠ 3972 ∨ (Charter.mk c).idgen ≠ s.flash.idgen ∨
          (Charter.mk c).serial ≠ Config.moduleSerial ∨
          (Charter.mk c).ecdsa ≠ idEcdsa (s.half x).kram.birth s.flash.idgen ∨
          (∃ o, s.flash.charter = some o ∧ (Charter.mk c).seq ≤ o.seq) →
        exec (.enrolCharter h addr c) s = .next (s.postCpl x (cmdOf h 0x0812) stArgs 0 []))) ∧
    (∀ j c, j.cont = .charter c → ∃ u, s.released x j true = u ∧
      u.flash.recs = s.flash.recs ++ [{ id := s.flash.nextRec, by_ := x, rec_ := .charter c }] ∧
      u.flash.charter = s.flash.charter ∧
      (u.img x).jobs = (s.img x).jobs ++ [{ j with on := .flash s.flash.nextRec, cont := .finish }]) ∧
    (∀ id j r, s.holder = some x → s.flash.recs = [{ id, by_ := x, rec_ := r }] → (s.img x).jobs = [j] →
      j.on = .flash id → j.cmd.op ≠ 0x0820 → (s.img x).sessions = [] →
      (∀ a, r = .anchor a → exec (.flashRecordDurable id) s = .next (
        ((({ s with flash := { s.flash with recs := [], anchor := some a } }.post x .cores 0x0804
          [(1, 0), (2, 0), (8, 0)]).modImg x fun im => { im with jobs := [] }).postKept x j.cmd j.status j.cflags
          j.result))) ∧
      (∀ c, r = .charter c → ∃ n, n = s.now + 4 * (bits ((s.img x).reg 0 0xA00004) 10 0 * 1000000) ∧
        exec (.flashRecordDurable id) s = .next (
          (((({ s with flash := { s.flash with recs := [], charter := some c, lapsed := none } }.modImg x fun im =>
            { im with hush := n }).post x .cores 0x0804 [(1, 1), (2, c.member), (8, c.seq)]).modImg x fun im =>
            { im with jobs := [] }).postKept x j.cmd j.status j.cflags j.result))))

/-- A module without an anchor takes ENVELOPE_RENEW and DECOMMISSION with an authorisation length of 0 and acts at once;
another length is REJECTED_ARGS (R473, R556).  One with an anchor acts, for these and for IDGEN_ADVANCE, at the dual
verification deadline of an authorisation that names its charter, its IDGEN and its run (R550); a signature that fails
is PKE_REJECT then. -/
def Sys2Proof.Claims.AuthorisationsPermitTheirActs : Prop :=
  ∀ (x : Half) (h : Hdr) (addr len : Nat) (auth : List Nat) (s : State), h.fn = 0 →
    (s.flash.anchor = none →
      (Executes s h 0x0109 x → s.tam.seed = false → len = 0 → s.tamperHeld = false →
        ∃ u, exec (.envelopeRenew h addr len auth) s = .next u ∧ u.tam.seed = true ∧ u.tam.seedNo = s.tam.seedNo + 1 ∧
          u.flash.keys = s.flash.keys ∧ u.flash.charter = s.flash.charter ∧ NextRun s x (cmdOf h 0x0109) 4 u) ∧
      (Executes s h 0x0109 x → s.tam.seed = false → len = 0 → s.tamperHeld = true →
        exec (.envelopeRenew h addr len auth) s = .next (s.postCpl x (cmdOf h 0x0109) stLocked 0 [])) ∧
      (Executes s h 0x0814 x → len = 0 →
        ∃ u, exec (.decommission h addr len auth) s = .next u ∧ u.tam.seed = false ∧ u.flash.keys = [] ∧
          u.flash.anchor = none ∧ u.flash.charter = none ∧ u.flash.config.map (·.records) = some factoryImage.records ∧
          NextRun s x (cmdOf h 0x0814) 6 u) ∧
      (Executes s h 0x0109 x → s.tam.seed = true ∨ len ≠ 0 →
        exec (.envelopeRenew h addr len auth) s = .next (s.postCpl x (cmdOf h 0x0109) stArgs 0 [])) ∧
      (Executes s h 0x0814 x → len ≠ 0 →
        exec (.decommission h addr len auth) s = .next (s.postCpl x (cmdOf h 0x0814) stArgs 0 [])) ∧
      (Executes s h 0x0813 x →
        exec (.idgenAdvance h addr len auth) s = .next (s.postCpl x (cmdOf h 0x0813) stArgs 0 []))) ∧
    (∀ c a, s.flash.anchor = some a → s.flash.charter = some c →
      authNames c s.flash.idgen s.flash.run auth = true → len = 3764 → s.pkeFull x 0 = false →
      (Executes s h 0x0109 x → authForm 1 (auth.take 3764) = true → s.tam.seed = false → s.tamperHeld = false →
        exec (.envelopeRenew h addr len auth) s = .next (
          if authSig a auth then s.pkeOp x h 0x0109 704000 stDone [] none .renew
          else s.pkeOp x h 0x0109 704000 stPke [] none .finish)) ∧
      (Executes s h 0x0813 x → authForm 2 (auth.take 3764) = true → s.hssSpent x = true → s.flash.idgen < 15 →
        exec (.idgenAdvance h addr len auth) s = .next (
          if authSig a auth then s.pkeOp x h 0x0813 704000 stDone [] none .idgen
          else s.pkeOp x h 0x0813 704000 stPke [] none .finish)) ∧
      (Executes s h 0x0813 x → authForm 2 (auth.take 3764) = true → s.hssSpent x = true → 15 ≤ s.flash.idgen →
        exec (.idgenAdvance h addr len auth) s = .next (
          if authSig a auth then s.postCpl x (cmdOf h 0x0813) stExhausted 0 []
          else s.pkeOp x h 0x0813 704000 stPke [] none .finish)) ∧
      (Executes s h 0x0813 x → s.hssSpent x = false →
        exec (.idgenAdvance h addr len auth) s = .next (s.postCpl x (cmdOf h 0x0813) stArgs 0 [])) ∧
      (Executes s h 0x0814 x → authForm 3 (auth.take 3764) = true → exec (.decommission h addr len auth) s = .next (
        if authSig a auth then s.pkeOp x h 0x0814 704000 stDone [] none .decommission
        else s.pkeOp x h 0x0814 704000 stPke [] none .finish)) ∧
      (Executes s h 0x0814 x → auth.getD 5 0 ≠ 3 →
        exec (.decommission h addr len auth) s = .next (s.postCpl x (cmdOf h 0x0814) stArgs 0 []))) ∧
    (∀ c a, s.flash.anchor = some a → s.flash.charter = some c →
      authNames c s.flash.idgen s.flash.run auth = false →
      (Executes s h 0x0109 x →
        exec (.envelopeRenew h addr len auth) s = .next (s.postCpl x (cmdOf h 0x0109) stArgs 0 [])) ∧
      (Executes s h 0x0813 x →
        exec (.idgenAdvance h addr len auth) s = .next (s.postCpl x (cmdOf h 0x0813) stArgs 0 [])) ∧
      (Executes s h 0x0814 x →
        exec (.decommission h addr len auth) s = .next (s.postCpl x (cmdOf h 0x0814) stArgs 0 []))) ∧
    (∀ j, s.phase = .running →
      (j.cont = .renew → s.tamperHeld = false → ∃ u, s.released x j true = u ∧ u.tam.seed = true ∧
        u.tam.seedNo = s.tam.seedNo + 1 ∧ NextRun s x j.cmd 4 u) ∧
      (j.cont = .decommission → ∃ u, s.released x j true = u ∧ u.tam.seed = false ∧ u.flash.keys = [] ∧
        u.flash.anchor = none ∧ u.flash.charter = none ∧ NextRun s x j.cmd 6 u) ∧
      (j.cont = .idgen → ∃ u, s.released x j true = u ∧ u.flash.idgen = s.flash.idgen + 1 ∧ (u.img x).hssNext = 0 ∧
        u.flash.charter = none ∧ u.flash.anchor = s.flash.anchor ∧ Within x { s with flash := u.flash } u ∧
        (u.img x).keys = (s.img x).keys ∧ (u.img x).regs = (s.img x).regs))

/-! ## Protected memory -/

namespace Sys2Proof.Claims

/-- A byte of the data region of half `x` (R433). -/
def byteOf (s : State) (x : Half) (a : Nat) : BitVec 8 := memRead (s.half x).dram.data a

/-- A protection fault of a core (R452): its registers name the access; PROT_FAULT carries the faults since the last one
and leaves at most once per ms; the regions, the other cores and everything outside the half are as they were. -/
def Faulted (s : State) (x : Half) (core : Nat) (l : Level) (ty : AccessType) (a g : Nat) (t : State) : Prop :=
  let u := (s.half x).unit core
  let v := (t.half x).unit core
  let due := u.at_ = 0 ∨ u.at_ - 1 + 1000000 ≤ s.now
  v.info = BitVec.ofNat 32 (g * 2 ^ 27 + levelCode l * 2 ^ 25 + typeCode ty * 2 ^ 23) ∧ v.addr = a ∧
  v.regions = u.regions ∧ (due → v.at_ = s.now + 1 ∧ v.cnt = 0) ∧ (¬due → v.at_ = u.at_ ∧ v.cnt = u.cnt + 1) ∧
  (∀ k, k ≠ core → (t.half x).unit k = (s.half x).unit k) ∧ Within x s t ∧ (t.img x).regs = (s.img x).regs ∧
  (t.half x).dram = (s.half x).dram ∧
  ((s.half x).ctrs = [] → Posting s x →
    (due → ∃ e, (t.half x).queue = (s.half x).queue ++ [(.cores, .ev e)] ∧ e.code = 0x0D0B ∧ e.absorbed = u.cnt ∧
      e.payload = [(1, x.idx), (1, core), (1, levelCode l), (1, typeCode ty), (4, a), (1, g)]) ∧
    (¬due → (t.half x).queue = (s.half x).queue))

end Sys2Proof.Claims

/-- A line leaves with its four words each XOR one key-stream block of its counter pair, and a tag over that ciphertext
(R429, R430).  A line that DRAM returns as the half wrote it verifies and opens to its 64 bytes, with its group's counters
from the cache or through a walk that reads them back as they are; a tag that is not the tag of the line fails it, and so
does a group or node that does not hash to what is above it, or an error not corrected (R435, R436, R439). -/
def Sys2Proof.Claims.LinesAreSealedAndVerified : Prop :=
  ∀ (x : HState) (line : Nat) (key : List Nat) (major minor : Nat), key = x.inlineKey →
    major = x.dram.majorOf (line / 64) → minor = x.dram.minorOf line →
    (x.sealLine line).1.length = 4 ∧
    (∀ b, b < 4 → (x.sealLine line).1.getD b 0 = (x.dram.lineWords line).getD b 0 ^^^
      aes key (major % 2 ^ 64 * 2 ^ 64 + minor % 256 * 2 ^ 56 + line % 2 ^ 32 * 2 ^ 24 + b)) ∧
    (x.sealLine line).2 = lineTag x.tagKey major minor line (x.sealLine line).1 ∧
    x.lineOpened line { line := some (x.sealLine line) } = (List.range 64).map (fun i => memRead x.dram.data (64 * line + i)) ∧
    (∀ g : Option (List Nat), g = none ∨ g = some (x.dram.groupBytes (line / 512)) → ∀ reads,
      x.lineFails line { line := some (x.sealLine line), group := g } reads = none) ∧
    (∀ (b : DramIn) (reads : Bool), line / 512 ∈ x.dram.cache →
      (reads = false → x.lineFails line b reads = none) ∧
      (b.bad = true → x.lineFails line b true = some .uncorrectable) ∧
      (∀ c tag, b.bad = false → b.line = some (c, tag) → x.lineFails line b true =
        if lineTag x.tagKey major minor line c = tag then none else some .tag)) ∧
    (∀ (b : DramIn) (reads : Bool), line / 512 ∉ x.dram.cache →
      (b.bad = true → x.lineFails line b reads = some .uncorrectable) ∧
      (∀ g, b.bad = false → b.node = none → b.line = none → b.group = some g → x.lineFails line b reads =
        if treeMac x.tagKey 1 0 (line / 512) g = x.treeHash 0 (line / 512) then none else some .group) ∧
      (∀ l c, 1 ≤ l → l ≤ 5 → b.bad = false → b.node = some (l, c) → b.group = none → b.line = none →
        x.lineFails line b reads = if treeMac x.tagKey 2 l (line / 512 / 8 ^ l) c = x.treeHash l (line / 512 / 8 ^ l) then none
                                   else some .node))

/-- A line read returns its 64 bytes, as last written since initialisation, once its tag verifies; a read that finds its
group of counters in no cache walks the tree, is counted, and leaves the group cached (R432, R433, R435, R436); corrected
errors are counted (R442).  A write puts its bytes and no others, raises the minor counter of the line, or re-encrypts its
page, and the lines leave sealed (R437, R438).  A failure is recorded and halts the half with cause 2 (R439, R440); of a
write, the lines before the one that failed are written. -/
def Sys2Proof.Claims.MemoryIsReadAndWrittenByLines : Prop :=
  ∀ (x : Half) (agent : Nat) (y : HState) (s : State), y = s.half x → y.up = true → y.dram.init = true → agent < 7 →
    (∀ line n m e bus bs d, line < 234881024 → bs = (List.range 64).map (fun i => byteOf s x (64 * line + i)) →
      e = n + (if line / 512 ∈ y.dram.cache then 0 else m) →
      d = { y.dram with corr := min (2 ^ 32 - 1) (y.dram.corr + e), corrNew := min 65535 (y.dram.corrNew + e) } →
      (line / 512 ∈ y.dram.cache → exec (.dramRead x agent line n m {}) s =
        .next ((s.modHalf x fun z => { z with dram := d }).emit (.line x line bs))) ∧
      (line / 512 ∉ y.dram.cache → ∃ u c, exec (.dramRead x agent line n m {}) s = .next u ∧
        u.out = s.out ++ [.line x line bs] ∧
        (u.half x).dram = { d with walks := min (2 ^ 32 - 1) (d.walks + 1), cache := c } ∧ line / 512 ∈ c ∧
        (y.dram.cache.length < 1536 → c = y.dram.cache ++ [line / 512]) ∧ c.length ≤ max 1536 y.dram.cache.length ∧
        (∀ g ∈ c, g = line / 512 ∨ g ∈ y.dram.cache) ∧
        WithinOut x { s with fv := s.fv + 1 } u ∧ (u.img x).regs = y.img.regs) ∧
      (line / 512 ∈ y.dram.cache → y.lineFails line bus true = none → exec (.dramRead x agent line n m bus) s =
        .next ((s.modHalf x fun z => { z with dram := d }).emit (.line x line (y.lineOpened line bus)))) ∧
      (∀ k, s.phase ≠ .cold → y.lineFails line bus true = some k →
        ∃ u fa, exec (.dramRead x agent line n m bus) s = .next u ∧
        Stopped ({ s with fv := s.fv + 1 }.modHalf x fun z =>
          { z with dram := { d with failKind := failCode k, failAddr := fa, failAgent := failAgentOf agent k } }) x 2 0 u ∧
        (k = .tag → fa = 64 * line) ∧ (k = .group → fa = 0x3FE000000 + 64 * (line / 512)) ∧
        (k = .node ∨ k = .uncorrectable → fa < 2 ^ 36))) ∧
    (∀ addr size data, 0 < size → addr + size ≤ 0x380000000 →
      (∃ u, exec (.dramWrite x agent addr size data []) s = .next u ∧
        (∀ a, byteOf u x a = if addr ≤ a ∧ a < addr + size then BitVec.ofNat 8 (data / 2 ^ (8 * (a - addr)))
                             else byteOf s x a) ∧
        (addr / 64 = (addr + size - 1) / 64 → y.dram.minorOf (addr / 64) < 255 →
          (u.half x).dram.minorOf (addr / 64) = y.dram.minorOf (addr / 64) + 1 ∧
          (∀ l, l ≠ addr / 64 → (u.half x).dram.minorOf l = y.dram.minorOf l) ∧
          (∀ p, (u.half x).dram.majorOf p = y.dram.majorOf p) ∧ (u.half x).dram.reenc = y.dram.reenc ∧
          u.out = s.out ++ [.dram x (addr / 64) ((u.half x).sealLine (addr / 64)).1 ((u.half x).sealLine (addr / 64)).2]) ∧
        (addr / 64 = (addr + size - 1) / 64 → 255 ≤ y.dram.minorOf (addr / 64) →
          (∀ l, (u.half x).dram.minorOf l = if l / 64 = addr / 4096 then 0 else y.dram.minorOf l) ∧
          (∀ p, (u.half x).dram.majorOf p = if p = addr / 4096 then y.dram.majorOf p + 1 else y.dram.majorOf p) ∧
          (u.half x).dram.reenc = min (2 ^ 32 - 1) (y.dram.reenc + 1) ∧
          u.out = s.out ++ (List.range 64).map fun i => .dram x (64 * (addr / 4096) + i)
            ((u.half x).sealLine (64 * (addr / 4096) + i)).1 ((u.half x).sealLine (64 * (addr / 4096) + i)).2) ∧
        WithinOut x { s with fv := u.fv } u ∧ (u.half x).kram = y.kram ∧ (u.img x).regs = y.img.regs ∧
        (y.ctrs = [] → u.half x = { y with dram := (u.half x).dram })) ∧
      (∀ n b line, line = addr / 64 + n → n ≤ (addr + size - 1) / 64 - addr / 64 → b.bad = true →
        64 * line < addr ∨ addr + size < 64 * line + 64 → y.dram.minorOf line < 255 → s.phase ≠ .cold →
        ∃ u, exec (.dramWrite x agent addr size data (List.replicate n ({} : DramIn) ++ [b])) s = .next u ∧
        (∀ a, byteOf u x a = if addr ≤ a ∧ a < addr + size ∧ a < 64 * line then
            BitVec.ofNat 8 (data / 2 ^ (8 * (a - addr))) else byteOf s x a) ∧
        (u.half x).haltCause = 2 ∧ (u.half x).helm.st = .halted ∧ (u.half x).helm.claim = false ∧
        (u.half x).dram.failKind = 4 ∧ (u.half x).dram.failAgent = 2 ∧ u.out.getLast? = some (.halt x) ∧
        u.img x.other = s.img x.other ∧ u.flash = s.flash ∧ u.tam = s.tam) ∧
      (∀ b k full part, full = decide (255 ≤ y.dram.minorOf (addr / 64)) →
        part = decide (64 * (addr / 64) < addr ∨ addr + size < 64 * (addr / 64) + 64) → s.phase ≠ .cold →
        y.lineFails (addr / 64) b (full || part) = some k →
        ∃ u fa, exec (.dramWrite x agent addr size data [b]) s = .next u ∧
        Stopped ({ s with fv := s.fv + 1 }.modHalf x fun z => { z with dram := { y.dram with
          failKind := failCode k, failAddr := fa,
          failAgent := failAgentOf (if full then 4 else if part then 2 else agent) k } }) x 2 0 u ∧
        (k = .tag → fa = 64 * (addr / 64)) ∧ (k = .group → fa = 0x3FE000000 + 64 * (addr / 64 / 512))))

/-- Once the initialisation of a half's DRAM is done every byte reads 0, every minor counter is 0 and each page's major
counter starts at the restart count's base, nothing is cached (R433), and the half's memory keys are those of the run
(R268).  A half that is not ready, or before any claim, has no keys for it. -/
def Sys2Proof.Claims.InitialisationZeroesMemory : Prop :=
  ∀ (x : Half) (y : HState) (s : State), y = s.half x →
    (y.up = true → y.boot.ready = true → s.holder ≠ none → y.dram.init = false →
      ∃ u, exec (.dramInitDone x) s = .next u ∧ (u.half x).dram.init = true ∧ (u.half x).boot.dramDone = true ∧
        (∀ a, byteOf u x a = 0) ∧ (∀ l, (u.half x).dram.minorOf l = 0) ∧
        (∀ p, (u.half x).dram.majorOf p = y.restarts * 2 ^ 48) ∧
        (u.half x).dram.cache = [] ∧
        (u.half x).kram.dram = leNat (dramKeyBytes (y.kram.root.getD (erasedRoot y.kram.birth s.flash.run)) s.flash.run x) ∧
        u = s.setHalf x { y with boot := { y.boot with dramDone := true }, dram := (u.half x).dram,
                                 kram := { y.kram with dram := (u.half x).kram.dram } }) ∧
    (y.up = false ∨ y.boot.ready = false ∨ s.holder = none ∨ y.dram.init = true →
      exec (.dramInitDone x) s = .next s)

namespace Sys2Proof.Claims

/-- `n` bytes of an access of a core are done; an aligned word read in its own unit's registers brings the register. -/
def Accessed (s : State) (x : Half) (core : Nat) (ty : AccessType) (addr n : Nat) : State :=
  let t := s.emit (.access x core ty addr n)
  if 0xFFF00000 ≤ addr ∧ addr < 0xFFF0010C ∧ ty = .read ∧ n = 4 ∧ addr % 4 = 0 then
    t.emit (.read (((s.half x).unit core).readReg (addr - 0xFFF00000)))
  else t

end Sys2Proof.Claims

/-- The lowest-numbered enabled region that holds a byte governs it, with a permission for each level and type of access;
the unit's own registers belong to the secure level (R448, R449).  An access completes up to its first forbidden byte,
which faults (R450, R452).  The unit's registers read as they were written, its fault registers as the last fault left them
(R449, R452). -/
def Sys2Proof.Claims.AccessesStopAtTheFirstForbiddenByte : Prop :=
  ∀ (x : Half) (core : Nat) (l : Level) (ty : AccessType) (p : ProtUnit) (s : State), (s.half x).up = true → core < 5 →
    p = (s.half x).unit core →
    (∀ a, (0xFFF00000 ≤ a → a < 0xFFF0010C → l ≠ .secure → p.forbids l ty a = some 16) ∧
      (a < 0xFFF00000 ∨ 0xFFF0010C ≤ a ∨ l = .secure →
        (∀ r, r < 16 → (tabGet {} p.regions r : Region).holds a = true →
          (∀ k, k < r → (tabGet {} p.regions k : Region).holds a = false) →
          p.forbids l ty a = if (tabGet {} p.regions r : Region).allows l ty then none else some r) ∧
        ((∀ r, r < 16 → (tabGet {} p.regions r : Region).holds a = false) → p.forbids l ty a = none))) ∧
    (∀ addr size, 0 < size → addr + size ≤ 2 ^ 32 →
      ((∀ k, k < size → p.forbids l ty (addr + k) = none) →
        exec (.processorAccess x core l ty addr size) s = .next (Accessed s x core ty addr size)) ∧
      (∀ n g, n < size → (∀ k, k < n → p.forbids l ty (addr + k) = none) → p.forbids l ty (addr + n) = some g →
        ∃ u, exec (.processorAccess x core l ty addr size) s = .next u ∧
          Faulted (if n = 0 then s else Accessed s x core ty addr n) x core l ty (addr + n) g u)) ∧
    (∀ r, r < 16 → p.readReg (16 * r) = (tabGet {} p.regions r : Region).base.toNat ∧
      p.readReg (16 * r + 4) = (tabGet {} p.regions r : Region).limit.toNat ∧
      p.readReg (16 * r + 8) = (tabGet {} p.regions r : Region).perm.toNat) ∧
    p.readReg 0x104 = p.info.toNat ∧ p.readReg 0x108 = p.addr

/-- The secure level writes a region's base, limit and permissions, and its fence finds every access complete; a limit
below the base is refused (R42); below the secure level either write faults and changes no region (R449, R451). -/
def Sys2Proof.Claims.RegionsBelongToTheSecureLevel : Prop :=
  ∀ (x : Half) (core off : Nat) (w : Word) (s : State), (s.half x).up = true → core < 5 → off < 0x100 →
    (∀ g, g = (tabGet {} ((s.half x).unit core).regions (off / 16) : Region) →
      ∃ u v, exec (.protRegionWrite x core .secure off w) s = .next u ∧
        v = (tabGet {} ((u.half x).unit core).regions (off / 16) : Region) ∧
        (off % 16 = 0 → v = { g with base := BitVec.ofNat 32 (64 * bits w 31 6 + bits w 0 0) }) ∧
        (off % 16 = 4 → v = if bits w 31 6 < bits g.base 31 6 then g
                            else { g with limit := BitVec.ofNat 32 (64 * bits w 31 6) }) ∧
        (off % 16 = 8 → v = { g with perm := BitVec.ofNat 32 (bits w 8 0) }) ∧
        (off % 16 ≠ 0 → off % 16 ≠ 4 → off % 16 ≠ 8 → v = g) ∧
        (∀ k, k ≠ off / 16 → (tabGet {} ((u.half x).unit core).regions k : Region) =
          tabGet {} ((s.half x).unit core).regions k) ∧
        (∀ k, k ≠ core → (u.half x).unit k = (s.half x).unit k) ∧
        u = s.modHalf x fun z => { z with prot := (u.half x).prot }) ∧
    exec (.protFence x core .secure w) s = .next s ∧
    ∀ l, l ≠ .secure →
      (∃ u, exec (.protRegionWrite x core l off w) s = .next u ∧ Faulted s x core l .write (0xFFF00000 + off) 16 u) ∧
      (∃ u, exec (.protFence x core l w) s = .next u ∧ Faulted s x core l .write 0xFFF00100 16 u)

/-! ## Tamper -/

/-- A source that enters alarm while it is not latched raises an alarm: it is latched and enters the alarm log under the
next serial (R455, R461, R465).  Under its map the alarm is reported (posted by the half that holds the helm), halts the
half it names with cause 4, or 3 for BUS, or erases E: on mains that burns one step of evidence and ends the run with
cause 3 (R457, R458, R463, R468).  A halt that would leave no half running is an erasure (R467).  On the cell every alarm
erases, into the pending record (R469, R470). -/
def Sys2Proof.Claims.AlarmsAreLatchedLoggedAndAnswered : Prop :=
  ∀ (src resp : Nat) (e : LogEntry) (t : Tamper) (s : State), src < 21 → t = s.tam → src ∉ t.inAlarm → src ∉ t.latched →
    t.log.length < 64 → t.pend = none → t.erasedAt = none →
    e = { serial := t.nextSerial, src, resp, onCell := t.onCell, seconds := s.cellSeconds, missed := t.unlogged,
          posted := false } →
    ∀ t' : Tamper, t' = { t with inAlarm := t.inAlarm ++ [src], latched := t.latched ++ [src], log := t.log ++ [e],
                                 nextSerial := (t.nextSerial + 1) % 2 ^ 32, unlogged := 0 } →
    (t.onCell = false → src < 16 → bit (s.tmpMap src) 2 = false → resp = 1 →
      (s.holder = none → exec (.tamperAlarm [src]) s =
        .next { s with tam := t', board := { s.board with alert := true } }) ∧
      (∀ x, s.holder = some x → t.log = [] → (s.half x).queue = [] → (s.img x).fns = [] → (s.half x).unsent = [] →
        (s.half x).kept = [] → ∃ u v, exec (.tamperAlarm [src]) s = .next u ∧
          u = { s with tam := t', board := { s.board with alert := true } }.setHalf x
            { s.half x with queue := [(.alarm, .ev v)] } ∧
          v.code = 0x0C01 ∧ v.payload =
            [(8, e.serial), (1, src), (1, 1), (1, 0), (4, e.seconds), (4, e.missed)])) ∧
    (t.onCell = false → src < 16 → bit (s.tmpMap src) 2 = true → resp = 5 → s.phase ≠ .cold →
      ∃ u key, exec (.tamperAlarm [src]) s = .next u ∧ u.phase = .booting ∧ u.a = hashed s.a.afterReset key ∧
        u.b = hashed s.b.afterReset key ∧
        u.tam = { t' with seed := false, evidence := max t.evidence (min 127 (t.evidence + 1)),
                          saturated := t.saturated || decide (126 < t.evidence), erasedAt := some s.now,
                          erasedMask := 2 ^ src, endCause := 3 } ∧
        u.flash.keys = s.flash.keys ∧ u.flash.run = s.flash.run ∧ u.out = s.out) ∧
    (∀ x : Half, t.onCell = false → src = 16 + x.idx ∨ src = 18 + x.idx → bit (s.tmpMap src) 1 = true ∨ 18 ≤ src →
      s.phase ≠ .cold →
      (bit (s.tmpMap src) 2 = false → resp = 3 → (s.half x).haltCause = 0 → (s.half x.other).haltCause = 0 →
        ∃ u, exec (.tamperAlarm [src]) s = .next u ∧ u.tam = t' ∧ (u.half x).helm.st = .halted ∧
          (u.half x).helm.claim = false ∧ (u.half x).haltCause = (if src < 18 then 4 else 3) ∧
          u.out = s.out ++ [.halt x] ∧ (u.half x.other).helm = (s.half x.other).helm ∧ u.flash = s.flash) ∧
      (resp = 5 → (s.half x.other).haltCause ≠ 0 → ∃ u, exec (.tamperAlarm [src]) s = .next u ∧
        u.tam.seed = false ∧ u.tam.evidence = max t.evidence (min 127 (t.evidence + 1)) ∧ u.tam.endCause = 3 ∧
        u.tam.log = t.log ++ [e] ∧ u.phase = .booting)) ∧
    (t.onCell = true → src < 16 ∨ src = 20 → resp = 5 → s.holder = none →
      exec (.tamperAlarm [src]) s = .next { s with
        tam := { t' with seed := false, erasedMask := 2 ^ src, erasedAt := some s.now,
                         pend := some { target := t.evidence + 1, mask := 2 ^ src, seconds := s.cellSeconds } },
        board := { s.board with alert := true } })

/-- A source already in alarm, or not watched in the present supply, raises nothing; one that is latched still raises no
further alarm (R461).  An alarm within 5 µs of an erasure joins it: its bit joins the mask and the evidence stays (R466).
A source that leaves alarm stays latched; a temperature source leaves it only 5 °C inside its limit (R461). -/
def Sys2Proof.Claims.LatchesHoldAlarmsBack : Prop :=
  ∀ (src : Nat) (t : Tamper) (s : State), src < 21 → t = s.tam →
    (src ∈ t.inAlarm ∨ t.watches src = false → exec (.tamperAlarm [src]) s = .next s) ∧
    (src ∉ t.inAlarm → src ∈ t.latched → t.watches src = true → s.holder = none → exec (.tamperAlarm [src]) s =
      .next { s with tam := { t with inAlarm := t.inAlarm ++ [src] }, board := { s.board with alert := true } }) ∧
    (∀ t0, src < 16 → t.onCell = false → src ∉ t.inAlarm → src ∉ t.latched → bit (s.tmpMap src) 2 = true →
      t.erasedAt = some t0 → s.now < t0 + 5000 → s.holder = none → ∃ u, exec (.tamperAlarm [src]) s = .next u ∧
        u.tam.evidence = t.evidence ∧ u.tam.seed = false ∧ u.tam.erasedMask = t.erasedMask ||| 2 ^ src ∧
        u.tam.latched = t.latched ++ [src] ∧ u.phase = s.phase ∧ u.a = s.a ∧ u.b = s.b ∧ u.flash = s.flash) ∧
    (t.watches src = if t.onCell then decide (src < 16 ∨ src = 20) else decide (src < 20)) ∧
    ∀ t0 t1 : Int,
      (¬(src = 12 ∧ (t0 < -400 ∨ t1 < -400)) → ¬(src = 13 ∧ (1440 < t0 ∨ 1440 < t1)) →
        exec (.sourceLeavesAlarm { src, sensor0 := t0, sensor1 := t1 }) s =
          .next { s with tam := { t with temp0 := t0, temp1 := t1, inAlarm := t.inAlarm.filter (· ≠ src) } }) ∧
      ((src = 12 ∧ (t0 < -400 ∨ t1 < -400)) ∨ (src = 13 ∧ (1440 < t0 ∨ 1440 < t1)) →
        exec (.sourceLeavesAlarm { src, sensor0 := t0, sensor1 := t1 }) s = .next { s with tam := { t with temp0 := t0, temp1 := t1 } })

/-- Two halts named at once would leave no half running: both alarms are logged as erasures, in order of their sources, and
E is erased once (R466, R467). -/
def Sys2Proof.Claims.TwoHaltsAtOnceErase : Prop :=
  ∀ (t : Tamper) (s : State), t = s.tam → t.onCell = false → t.inAlarm = [] → t.latched = [] → t.log = [] →
    t.pend = none → t.erasedAt = none → s.phase ≠ .cold → bit (s.tmpMap 16) 1 = true → bit (s.tmpMap 17) 1 = true →
    ∃ u, exec (.tamperAlarm [16, 17]) s = .next u ∧ u.tam.log.map (fun e => (e.src, e.resp)) = [(16, 5), (17, 5)] ∧
      u.tam.seed = false ∧ u.tam.evidence = max t.evidence (min 127 (t.evidence + 1)) ∧ u.tam.endCause = 3 ∧
      u.phase = .booting ∧ ∃ key, u.a = hashed s.a.afterReset key ∧ u.b = hashed s.b.afterReset key

/-- While mains is present the cell is measured; CELL_STATE is posted when the holdup falls below 30 days, when a check
fails, and when either ends (R472).  A failed cell erases nothing. -/
def Sys2Proof.Claims.TheCellIsChecked : Prop :=
  ∀ (mv days : Nat) (failed charging : Bool) (t : Tamper) (s : State), t = s.tam →
    (t.onCell = true → exec (.cellCheck mv days failed charging) s = .next s) ∧
    (t.onCell = false →
      (∀ s', s' = { s with tam := { t with cellMv := min 4095 mv, holdup := min 65535 days,
                                           cellLow := decide (days < 30), cellFailed := failed, charging } } →
        (t.cellLow = decide (days < 30) → t.cellFailed = failed →
          exec (.cellCheck mv days failed charging) s = .next s') ∧
        (∀ x what, s.holder = some x → (s.half x).queue = [] →
          ((what = 0 ∧ days < 30 ∧ t.cellLow = false ∧ t.cellFailed = failed) ∨
            (what = 1 ∧ failed = true ∧ t.cellFailed = false ∧ t.cellLow = decide (days < 30)) ∨
            (what = 2 ∧ 30 ≤ days ∧ t.cellLow = true ∧ t.cellFailed = failed) ∨
            (what = 2 ∧ failed = false ∧ t.cellFailed = true ∧ t.cellLow = decide (days < 30))) →
          ∃ e, exec (.cellCheck mv days failed charging) s = .next ({ s' with board := { s.board with alert := true }
              }.setHalf x { s.half x with queue := [(.level, .ev e)] }) ∧
            e.code = 0x0C05 ∧ e.payload = [(2, min 4095 mv), (2, min 65535 days), (1, what)])))

/-! ## Power, board and sideband -/

namespace Sys2Proof.Claims

/-- The board controller says that something has changed: MGMT_ALERT# goes low, and the half that holds the helm, if one
does, posts the event as a level event (R36, R527). -/
def BoardSays (s : State) (code : Nat) (payload : List Fld) (t : State) : Prop :=
  ∀ s', s' = { s with board := { s.board with alert := true } } → (s.holder = none → t = s') ∧
    ∀ x, s.holder = some x → ∃ e, e.code = code ∧ e.payload = payload ∧ (∃ k, (k, .ev e) ∈ (t.half x).queue) ∧
      t = s'.modHalf x (fun y => { y with queue := (t.half x).queue }) ∧
      ((s.half x).queue = [] → (t.half x).queue = [(.level, .ev e)])

/-- Steps 4 to 7 of Table 18.8 with the readings of the two envelope sensors: at −10 °C or more both halves get power and
hold nothing yet but one hash key for the station table; below, they stay as they are (R534). -/
def Powered (s : State) (t0 t1 : Int) (t : State) : Prop :=
  t.tam.temp0 = t0 ∧ t.tam.temp1 = t1 ∧ t.flash = s.flash ∧ t.host = s.host ∧ t.out = s.out ∧
  (-160 ≤ t0 ∧ -160 ≤ t1 → t.board.power = .on ∧ t.phase = .booting ∧ t.board.powerFail = false ∧
    ∃ key, ∀ x : Half, t.half x = hashed { boot := { powered := true } } key) ∧
  (t0 < -160 ∨ t1 < -160 → t.board.power = .cold ∧ t.phase = s.phase ∧ ∀ x : Half, t.half x = s.half x)

/-- Both halves are without power: they hold nothing, records not yet durable are torn (R286), no cage draws power, and
what flash, OTP and host memory hold stays (R532, R537). -/
def Unpowered (s t : State) : Prop :=
  t.phase = .cold ∧ (∀ x : Half, t.half x = {}) ∧ t.flash = { s.flash with recs := [], compacting := false } ∧
  (∀ c, c < 8 → (t.cage c).powered = false ∧ (t.cage c).ready = false ∧ (t.cage c).present = (s.cage c).present ∧
    (t.cage c).fault = (s.cage c).fault) ∧ t.host = s.host ∧ t.tam.seed = s.tam.seed ∧ t.tam.evidence = s.tam.evidence ∧
  t.tam.log.map (·.serial) = s.tam.log.map (·.serial)

end Sys2Proof.Claims

/-- With mains on either inlet the secure domain leaves the cell, a pending record is completed (R469), and the halves get
power once the envelope sensors allow it, checked again at each recheck (R533, R534).  Only after CELL_EXHAUST on the cell
can the canary be found wrong: that burns EVIDENCE_LOST and one step, and the module is ERASED (R471). -/
def Sys2Proof.Claims.MainsPowersTheHalves : Prop :=
  ∀ (ps1 ps2 : Bool) (t0 t1 : Int) (t : Tamper) (s : State), t = s.tam →
    (s.board.power = .off → ps1 = true ∨ ps2 = true → ∃ u, exec (.mainsApplied ps1 ps2 t0 t1) s = .next u ∧
      Powered s t0 t1 u ∧ u.modRegs = [] ∧ u.tam.onCell = false ∧ u.tam.cellSec = s.cellSeconds ∧ u.tam.pend = none ∧
      u.board.ps1.ac = ps1 ∧ u.board.ps2.ac = ps2 ∧ u.board.trips = 0 ∧
      (20 ∉ t.latched → t.pend = none → u.tam.evidence = t.evidence ∧ u.tam.seed = t.seed ∧ u.tam.log = t.log ∧
        u.tam.endCause = t.endCause) ∧
      (∀ p, 20 ∉ t.latched → t.pend = some p → u.tam.evidence = max t.evidence (min 127 p.target) ∧
        u.tam.saturated = (t.saturated || decide (127 < p.target)) ∧ u.tam.log = t.log ∧
        u.tam.committed.map (fun c => (c.old, c.new, c.mask, c.seconds)) =
          some (t.evidence, u.tam.evidence, p.mask, p.seconds)) ∧
      (u.tam.lostNow = true → 20 ∈ t.latched ∧ u.tam.evidence = max t.evidence (min 127 (t.evidence + 1)) ∧
        u.tam.seed = false ∧ u.tam.evidenceLost = true ∧ u.tam.latched = [] ∧ u.tam.log = [] ∧ u.tam.endCause = 0)) ∧
    (s.board.power ≠ .off ∨ (ps1 = false ∧ ps2 = false) → exec (.mainsApplied ps1 ps2 t0 t1) s = .next s) ∧
    (s.board.power = .cold → ∃ u, exec (.envelopeColdRecheck t0 t1) s = .next u ∧ Powered s t0 t1 u ∧
      u.tam = { t with temp0 := t0, temp1 := t1 }) ∧
    (s.board.power ≠ .cold → exec (.envelopeColdRecheck t0 t1) s = .next s)

/-- A half whose rails fail stays unpowered and counts as halted with cause 7 (R533).  POWER_FAIL stands until COLD, and
from then no flash record starts; when the rails go off both halves lose all they hold and the secure domain passes to the
cell (R532).  MOD_RESET# held for 100 ms ends the run with cause 2, without an evidence step; a shorter pulse is ignored
(R526).  PERST# and link changes touch that half's link alone (R525).  A change of a supply is said; traffic goes on
(R530). -/
def Sys2Proof.Claims.PowerLossAndResets : Prop :=
  ∀ (x : Half) (y : HState) (s : State), y = s.half x →
    (s.board.power = .on → y.boot.powered = true → y.boot.started = false → exec (.halfRailFail x) s = .next (s.setHalf x
      { y with boot := { y.boot with powered := false, railFail := true }, haltCause := 7 })) ∧
    (s.board.power ≠ .on ∨ y.boot.started = true → exec (.halfRailFail x) s = .next s) ∧
    (s.board.power = .on → exec (.powerFail) s =
      .next { s with board := { s.board with powerFail := true, alert := true } }) ∧
    (s.board.power ≠ .on → exec (.powerFail) s = .next s) ∧
    (s.board.powerFail = true → ∀ r, (s.record x r).2.flash.recs = s.flash.recs) ∧
    (s.board.power ≠ .off → ∃ u, exec (.railsOff) s = .next u ∧ Unpowered s u ∧ u.board.power = .off ∧
      u.tam = { s.tam with onCell := true, cellSince := s.now }) ∧
    (s.board.power = .off → exec (.railsOff) s = .next s) ∧
    (∀ ms, (100 ≤ ms → s.board.power ≠ .off → s.phase ≠ .cold → ∃ key, exec (.modReset ms) s = .next { s with
        fv := s.fv + 1, board := { s.board with heldOff := false }, tam := { s.tam with endCause := 2 },
        a := hashed s.a.afterReset key, b := hashed s.b.afterReset key, phase := .booting, lastState := 1,
        flash := { s.flash with recs := [], compacting := false } }) ∧
      (ms < 100 ∨ s.board.power = .off → exec (.modReset ms) s = .next s)) ∧
    exec (.perst x) s = .next (s.setHalf x { y with boot := { y.boot with linkUp := false } }) ∧
    (∀ up, exec (.pcieLinkChange x up) s =
      .next (s.setHalf x { y with boot := { y.boot with linkUp := up && y.boot.started } })) ∧
    (∀ k ac dc fault w, k = 1 ∨ k = 2 → s.board.power ≠ .off →
      ∀ b : Board, b = { s.board with
        loadW := min 1023 w, ps1 := if k = 1 then { ac, dc, fault } else s.board.ps1,
        ps2 := if k = 2 then { ac, dc, fault } else s.board.ps2 } →
      ((if k = 1 then s.board.ps1 else s.board.ps2) = { ac, dc, fault } →
        exec (.psuState k ac dc fault w) s = .next { s with board := b }) ∧
      ((if k = 1 then s.board.ps1 else s.board.ps2) ≠ { ac, dc, fault } →
        ∃ u, exec (.psuState k ac dc fault w) s = .next u ∧
          BoardSays { s with board := b } 0x0D0F [(1, k), (1, b2n ac), (1, b2n dc), (1, b2n fault)] u))

/-- A cage is powered while POWER_EN is 1, an optical module is present and no fault holds it off; one that draws more than
BUDGET_W + 3 W, or more than 33 W, loses power and sets FAULT; CAGE_STATE says each change (R523, R524).  The temperature
and power of optics at high power show in the cage's status (R522). -/
def Sys2Proof.Claims.CagesFollowTheirOptics : Prop :=
  ∀ (c : Nat) (s : State), c < 8 →
    (∀ v : Cage, v = { present := true,
                       powered := bit (s.modReg (0x1100100 + 8 * c)) 31 && decide (s.board.power = .on) } →
      (v.powered = true → bit (s.modReg (0x1100100 + 8 * c)) 30 = false →
        ∃ u, exec (.opticsInsert c) s = .next u ∧ u.cage c = v ∧ (∀ k, k ≠ c → u.cage k = s.cage k) ∧
          u = { s with board := { s.board with cages := u.board.cages } }) ∧
      (v.powered = false ∨ bit (s.modReg (0x1100100 + 8 * c)) 30 = true →
        ∃ r u, exec (.opticsInsert c) s = .next u ∧ r.cage c = v ∧ (∀ k, k ≠ c → r.cage k = s.cage k) ∧
          r = { s with board := { s.board with cages := r.board.cages } } ∧
          BoardSays r 0x0D12 [(1, c), (1, 1), (1, b2n v.powered), (1, 0), (1, 0)] u)) ∧
    ((s.cage c).present = true → ∃ r u, exec (.opticsRemove c) s = .next u ∧ r.cage c = {} ∧
      (∀ x i, i < 8 → (s.half x).up = true → ((s.half x).lane (8 * c + i)).pwrNow ≠ 0 →
        ((r.half x).lane (8 * c + i)).signal = false ∧ ((r.half x).lane (8 * c + i)).lock = false ∧
        ((r.half x).lane (8 * c + i)).adapted =
          (((s.half x).lane (8 * c + i)).adapted && !((s.half x).lane (8 * c + i)).signal &&
            !((s.half x).lane (8 * c + i)).lock)) ∧
      (∀ x n, n / 8 ≠ c → (r.half x).lane n = (s.half x).lane n) ∧
      BoardSays r 0x0D12 [(1, c), (1, 0), (1, 0), (1, 0), (1, 0)] u) ∧
    ((s.cage c).present = false → exec (.opticsRemove c) s = .next s) ∧
    (∀ temp q v, v = s.cage c →
      (v.powered = true → bit (s.modReg (0x1100100 + 8 * c)) 30 = false →
        ∃ u, exec (.opticsReady c temp q) s = .next u ∧
          BoardSays (s.setCage c { v with ready := true, caseTemp := temp, powerQ := min 255 q }) 0x0D12
            [(1, c), (1, b2n v.present), (1, 1), (1, b2n v.fault), (1, min 255 q)] u) ∧
      (v.powered = false ∨ bit (s.modReg (0x1100100 + 8 * c)) 30 = true → exec (.opticsReady c temp q) s = .next s)) ∧
    (∀ q v, v = s.cage c →
      (v.powered = true → 4 * (bits (s.modReg (0x1100100 + 8 * c)) 4 0 + 3) < q ∨ 4 * 33 < q →
        ∃ r u, exec (.cageOvercurrent c q) s = .next u ∧
          BoardSays (s.setCage c { v with powered := false, ready := false, fault := true, powerQ := min 255 q }) 0x0D12
            [(1, c), (1, b2n v.present), (1, 0), (1, 1), (1, min 255 q)] r ∧
          u = r.setCage c { v with powered := false, ready := false, fault := true, powerQ := 0 }) ∧
      (v.powered = false ∨ (q ≤ 4 * (bits (s.modReg (0x1100100 + 8 * c)) 4 0 + 3) ∧ q ≤ 4 * 33) →
        exec (.cageOvercurrent c q) s = .next s))

namespace Sys2Proof.Claims

/-- The fans' duty after the reading of a sensor (R535): a junction or outlet sensor moves it to a value between `lo` and
100 %, unless a fan has failed; nothing else changes. -/
def Steered (s : State) (k : Sensor) (lo : Nat) (t : State) : Prop :=
  t = { s with fv := t.fv, board := { s.board with duty := t.board.duty } } ∧
  (k = .junctionA ∨ k = .junctionB ∨ k = .outlet → s.board.failed = [] → lo ≤ 100 →
    lo ≤ t.board.duty ∧ t.board.duty ≤ 100) ∧
  (k = .envelope0 ∨ k = .envelope1 ∨ k = .psu1 ∨ k = .psu2 ∨ s.board.failed ≠ [] → t.board.duty = s.board.duty)

end Sys2Proof.Claims

/-- With one fan failed the others run at 100 %, and FAN_STATE is posted; a second failure raises THERMAL_WARN too (R535).
A tray's removal and return are FAN_STATE (R536).  A sensor at its warning limit of Table 18.11 raises THERMAL_WARN once,
until it falls below; the fans' duty follows the junction and outlet sensors. -/
def Sys2Proof.Claims.FansAndWarnings : Prop :=
  ∀ (s : State) (b : Board), b = s.board → b.power ≠ .off →
    (∀ f, f < 4 → b.tray = true → f ∉ b.failed → b.failed.length ≠ 1 → ∃ u, exec (.fanFail f) s = .next u ∧
      BoardSays { s with board := { b with failed := b.failed ++ [f], duty := 100 } } 0x0D10
        [(1, 1), (1, ((b.failed ++ [f]).map (2 ^ ·)).sum), (1, 100)] u) ∧
    (∀ f, f < 4 → b.tray = true → f ∉ b.failed → b.failed.length = 1 → ∃ r u k v, exec (.fanFail f) s = .next u ∧
      BoardSays { s with board := { b with failed := b.failed ++ [f], duty := 100 } } 0x0D10
        [(1, 1), (1, ((b.failed ++ [f]).map (2 ^ ·)).sum), (1, 100)] r ∧
      BoardSays { r with fv := r.fv + 2 } 0x0D11 [(1, 0), (1, 0), (1, k), (2, v)] u) ∧
    (∀ f, f < 4 → b.tray = false ∨ f ∈ b.failed → exec (.fanFail f) s = .next s) ∧
    (b.tray = true → (∃ u, exec (.fanTrayRemove) s = .next u ∧ BoardSays { s with board := { b with tray := false } } 0x0D10
      [(1, 0), (1, (b.failed.map (2 ^ ·)).sum), (1, b.duty)] u) ∧ exec (.fanTrayInsert) s = .next s) ∧
    (b.tray = false → exec (.fanTrayRemove) s = .next s ∧
      (b.failed.length < 2 → ∃ u, exec (.fanTrayInsert) s = .next u ∧
        BoardSays { s with board := { b with tray := true, failed := [], duty := 100 } } 0x0D10
          [(1, 1), (1, 0), (1, 100)] u) ∧
      (2 ≤ b.failed.length → ∃ r u k v, exec (.fanTrayInsert) s = .next u ∧
        BoardSays { s with board := { b with tray := true, failed := [], duty := 100 } } 0x0D10
          [(1, 1), (1, 0), (1, 100)] r ∧
        BoardSays { r with fv := r.fv + 2 } 0x0D11 [(1, 0), (1, 1), (1, k), (2, v)] u)) ∧
    (∀ k v, (warnLimit k ≤ v → k ∉ b.warned → ∃ r u, exec (.thermalWarn k v) s = .next u ∧
        Steered ((s.setTemp k v).modBoard fun d => { d with warned := d.warned ++ [k] }) k b.duty r ∧ BoardSays r 0x0D11
          [(1, 0), (1, 0), (1, sensorCode k), (2, (v % 65536).toNat)] u) ∧
      (v < warnLimit k ∨ k ∈ b.warned → exec (.thermalWarn k v) s = .next s) ∧
      (v < warnLimit k → k ∈ b.warned → ∃ r u, exec (.thermalWarnClear k v) s = .next u ∧
        Steered ((s.setTemp k v).modBoard fun d => { d with warned := d.warned.filter (· ≠ k) }) k
          (bits (s.modReg 0x1100010) 6 0) r ∧ BoardSays r 0x0D11 [(1, 0), (1, 1), (1, sensorCode k), (2, (v % 65536).toNat)] u) ∧
      (warnLimit k ≤ v ∨ k ∉ b.warned → exec (.thermalWarnClear k v) s = .next s))

/-- A junction at 115 °C or an envelope sensor at 88 °C trips: THERMAL is posted and written, and the halves and cages lose
power; the tamper controller notes end cause 5.  At 60 °C or less the module restarts from step 4, unless three trips
within one hour hold it off until MOD_RESET# or the loss of mains (R537).  A sensor without a trip limit never trips. -/
def Sys2Proof.Claims.TripsRemovePower : Prop :=
  ∀ (k : Sensor) (v t0 t1 : Int) (b : Board) (s : State), b = s.board →
    (b.power = .on → k = .junctionA ∨ k = .junctionB → 1840 ≤ v → ∃ u, exec (.thermalTrip k v) s = .next u ∧
      Unpowered s u ∧ u.board.power = .tripped ∧ u.board.trips = min 255 (b.trips + 1) ∧ u.tam.endCause = 5 ∧
      (b.heldOff = false → (b.tripTimes.filter fun t => decide (s.now < t + 3600000000000)).length < 2 →
        u.board.heldOff = false) ∧
      (2 ≤ (b.tripTimes.filter fun t => decide (s.now < t + 3600000000000)).length → u.board.heldOff = true)) ∧
    (b.power = .on → k = .envelope0 ∨ k = .envelope1 → 1408 ≤ v → ∃ u, exec (.thermalTrip k v) s = .next u ∧
      Unpowered s u ∧ u.board.power = .tripped ∧ u.tam.endCause = 5) ∧
    (b.power ≠ .on ∨ k = .outlet ∨ k = .psu1 ∨ k = .psu2 → exec (.thermalTrip k v) s = .next s) ∧
    (b.power = .tripped → b.heldOff = false → t0 ≤ 960 → t1 ≤ 960 → ∃ u, exec (.thermalRestart t0 t1) s = .next u ∧
      Powered s t0 t1 u) ∧
    (b.power ≠ .tripped ∨ b.heldOff = true ∨ 960 < t0 ∨ 960 < t1 → exec (.thermalRestart t0 t1) s = .next s)

/-- With REF_IN set the module reference locks to an input within ±10 ppm and REF_STATE says so; when the input is lost it
holds its last frequency (R528).  The sideband answers its pages whatever the halves do and changes no register, key or
table; reading the change flags raises MGMT_ALERT# again (R527, Table 18.7). -/
def Sys2Proof.Claims.ReferenceAndSideband : Prop :=
  ∀ (s : State) (b : Board), b = s.board →
    (∀ ppb, (s.refIn = true → -10000 ≤ ppb → ppb ≤ 10000 → ∃ u, exec (.refLock ppb) s = .next u ∧
        BoardSays { s with board := { b with refState := 1, refPpb := ppb } } 0x0D13
          [(1, 0), (4, (ppb % 4294967296).toNat)] u) ∧
      (s.refIn = false ∨ ppb < -10000 ∨ 10000 < ppb → exec (.refLock ppb) s = .next s)) ∧
    (b.refState = 1 → ∃ u, exec (.refLoss) s = .next u ∧
      BoardSays { s with board := { b with refState := 2 } } 0x0D13 [(1, 1), (4, (b.refPpb % 4294967296).toNat)] u) ∧
    (b.refState ≠ 1 → exec (.refLoss) s = .next s) ∧
    (b.power ≠ .off →
      exec (.sidebandRead 0x00) s = .next (s.emit (.sideband 0x00 [(48, Config.moduleSerial)])) ∧
      exec (.sidebandRead 0x10) s =
        .next (s.emit (.sideband 0x10 [(4, s.moduleStat), (4, s.tmpStat), (4, b.thermalStat)])) ∧
      exec (.sidebandRead 0x20) s = .next (s.emit (.sideband 0x20 [(4, b.psuStat), (4, b.fanStat)])) ∧
      exec (.sidebandRead 0x30) s =
        .next (s.emit (.sideband 0x30 ((List.range 6).map fun k => (4, s.tempStat k)))) ∧
      exec (.sidebandRead 0x40) s = .next (s.emit (.sideband 0x40 ((List.range 8).map fun c => (4, s.cageStat c)))) ∧
      (∃ f, exec (.sidebandRead 0x50) s = .next ({ s with fv := s.fv + 1, board := { b with alert := false } }.emit
        (.sideband 0x50 [(4, f)])))) ∧
    (b.power = .off → ∀ p, exec (.sidebandRead p) s = .next s)

/-! ## Bring-up -/

namespace Sys2Proof.Claims

/-- The half has loaded a slot: its boot after steps 1 to 4 of R540, the roots in its key RAM (R266), its thermometer burned
to the other's and its restart count in its private partition. -/
def Loaded (s : State) (x : Half) (slot : Nat) (refused : Option Nat) (w : Fw) (t : State) : Prop :=
  t = { s with tam := { s.tam with bus := none }, flash := t.flash }.setHalf x (t.half x) ∧
  t.flash = (match x with
    | .A => { s.flash with rollA := max s.flash.rollA s.flash.rollB }
    | .B => { s.flash with rollB := max s.flash.rollA s.flash.rollB }).setPriv x
      { s.flash.priv x with restarts := (s.half x).restarts } ∧
  (t.half x).boot = { (s.half x).boot with
    started := true, slot, svn := w.svn, refused, named := none,
    hssReady := decide ((s.flash.priv x).hss = some s.flash.idgen) } ∧
  (t.half x).kram = { (s.half x).kram with
    puf := Config.puf, birth := birthSecret Config.fuse Config.puf,
    root := if s.tam.seed then some (storageRoot (Config.envelopeSeed s.tam.seedNo)
      (birthSecret Config.fuse Config.puf)) else none } ∧
  (t.half x).pke = { (s.half x).pke with ok := true } ∧ (t.half x).helm = (s.half x).helm ∧
  (t.half x).img = (s.half x).img

end Sys2Proof.Claims

/-- At the release of reset a half burns its thermometer to match the other's, then loads the slot named for it, else the
boot slot; one refused (its checks fail, or its SVN is below V) leaves the other, or the boot slot after a named one, and
FW_BOOT_FAIL (R555); it takes P and E, and so the storage root (R266); a half that loads neither halts with cause 6 (R361, R362, R540). -/
def Sys2Proof.Claims.HalvesLoadTheirImages : Prop :=
  ∀ (x : Half) (y : HState) (first second : Nat) (s : State), y = s.half x → s.phase ≠ .cold → y.boot.powered = true →
    y.boot.started = false → first = y.boot.named.getD s.flash.bootSlot →
    second = (if y.boot.named = none then 1 - s.flash.bootSlot else s.flash.bootSlot) →
    (∀ v, v = max s.flash.rollA s.flash.rollB →
      (∀ w, s.flash.slot first = some w → w.loads = true → v ≤ w.svn → ∃ u, exec (.bootStart x) s = .next u ∧
        Loaded s x first none w u) ∧
      (∀ w, (s.flash.slot first = none ∨ ∃ w', s.flash.slot first = some w' ∧ (w'.loads = false ∨ w'.svn < v)) →
        s.flash.slot second = some w → w.loads = true → v ≤ w.svn → ∃ u, exec (.bootStart x) s = .next u ∧
          (s.holder = none → Loaded s x second (some first) w u) ∧
          (s.holder = some x.other → ∃ e r, Loaded s x second none w r ∧ e.code = 0x0805 ∧
            e.payload = [(1, x.idx), (1, first), (1, second)] ∧
            u = r.modHalf x.other fun z => { z with queue := z.queue ++ [(.cores, .ev e)] })) ∧
      ((s.flash.slot first = none ∨ ∃ w', s.flash.slot first = some w' ∧ (w'.loads = false ∨ w'.svn < v)) →
        (s.flash.slot second = none ∨ ∃ w', s.flash.slot second = some w' ∧ (w'.loads = false ∨ w'.svn < v)) →
        y.haltCause = 0 → ∃ u, exec (.bootStart x) s = .next u ∧ (u.half x).haltCause = 6 ∧
          (u.half x).helm.claim = false ∧ u.out = s.out ++ [.halt x])) ∧
    (exec (.hssStateRebuilt x) s = .next s)

/-- Half A claims the helm with generation 1 as soon as it is ready; half B only after it has been ready for 2 s without a
claim of half A, which has numbered no event of the run (the model's reading: notes/assumptions/105.md).  A half that is
ready while the other's claim stands becomes standby (R541).  A rebuilt HSS traversal state is sealed in the half's private partition (R355). -/
def Sys2Proof.Claims.TheFirstReadyHalfClaims : Prop :=
  ∀ (x : Half) (y o : HState) (s : State), y = s.half x → o = s.half x.other → y.up = true →
    (y.boot.ready = false → ∃ u, exec (.halfReady x) s = .next u ∧ (u.half x).boot = { y.boot with
        ready := true, readyAt := s.now } ∧ u = { s with a := u.a, b := u.b } ∧
      (x = .A → o.helm.claim = false → s.phase = .booting → (u.half x).helm = { y.helm with
        st := .activeSolo, claim := true, gen := 1, maxSeen := max 1 y.helm.maxSeen, renewed := true }) ∧
      (x = .B → o.helm.claim = false → s.phase = .booting → (u.half x).helm = y.helm ∧ u.half x.other = o) ∧
      (o.helm.claim = true → (u.half x).helm = { y.helm with
        st := .out, maxSeen := max y.helm.maxSeen o.helm.gen } ∧ u.half x.other = o)) ∧
    (y.boot.ready = true → exec (.halfReady x) s = .next s) ∧
    (x = .B → s.phase = .booting → y.boot.ready = true → y.boot.readyAt + 2000000000 ≤ s.now → o.helm.claim = false →
      o.img.seq = 0 → y.helm.claim = false → ∃ u, exec (.halfBClaimTimeout) s = .next u ∧ (u.half x).helm = { y.helm with
        st := .activeSolo, claim := true, gen := 1, maxSeen := max 1 y.helm.maxSeen, renewed := true } ∧
      u = { s with a := u.a, b := u.b }) ∧
    (x = .B → s.now < y.boot.readyAt + 2000000000 ∨ o.helm.claim = true ∨ o.img.seq ≠ 0 ∨ s.phase ≠ .booting →
      exec (.halfBClaimTimeout) s = .next s) ∧
    exec (.hssStateRebuilt x) s = .next ({ s with flash := s.flash.setPriv x { s.flash.priv x with
      hss := some s.flash.idgen } }.setHalf x { y with boot := { y.boot with hssReady := true } })

/-- The half that made the first claim numbers BOOT as 1, for every function, with the run that begins and the cause of the
last one's end; it adds 1 to the run number, sets the run-end register to 1, rebuilds the key register and takes fresh
blocks (R542, R544, R545).  Rings are not enabled yet, so BOOT is the first event that each function holds. -/
def Sys2Proof.Claims.BootIsNumberedFirst : Prop :=
  ∀ (x : Half) (y : HState) (s : State), y = s.half x → s.phase = .booting → s.holder = some x → y.img.seq = 0 →
    y.img.fns = [] → y.img.regs = [] → y.unsent = [] → ∃ u, exec (.boot x) s = .next u ∧
      u.flash.run = s.flash.run + 1 ∧ u.tam.endCause = 1 ∧ u.tam.committed = none ∧ u.tam.evidence = s.tam.evidence ∧
      u.tam.log = s.tam.log ∧ u.phase = .booting ∧
      u.flash.keys = (if s.tam.seed then s.flash.keys else []) ∧ (u.img x).keys = rebuildKeys u.flash.keys ∧
      u.flash.serialBlk = s.flash.serialBlk + 1 ∧ (u.img x).serial = 4096 * s.flash.serialBlk + 1 ∧ 0 < (u.img x).seq ∧
      (s.flash.config = none → u.cfgDefaulted = true) ∧
      ∀ fn, fn < 16 → ∃ n e r, ((u.img x).fnSt fn).held = n :: r ∧ n.seq = 1 ∧ n.post = .ev e ∧ e.code = 0x0801 ∧
        e.payload = [(8, s.flash.run + 1), (1, s.tam.endCause), (1, x.idx), (1, y.boot.slot), (1, y.boot.svn),
          (1, s.tam.evidence), (1, b2n s.tam.saturated), (1, b2n (!s.tam.seed)), (1, b2n s.flash.charter.isSome)]

/-- BOOT waits for a holder that has numbered nothing.  BOOTING ends once its events are numbered, the DRAM of the half that
holds the helm is initialised and its HSS traversal state is there; the module is then SOLO or ERASED, and says so if that
is a change (R500, R542, R543). -/
def Sys2Proof.Claims.BootingEndsOnceReady : Prop :=
  ∀ (x : Half) (y : HState) (s : State), y = s.half x →
    (s.phase ≠ .booting ∨ s.holder ≠ some x ∨ y.img.seq ≠ 0 → exec (.boot x) s = .next s) ∧
    (s.holder = some x →
      (s.phase = .booting → y.img.seq ≠ 0 → y.boot.hssReady = true → y.boot.dramDone = true →
        ∃ u, exec (.bootingEnd) s = .next u ∧ u.phase = .running ∧ u.lastState = u.modState ∧ u.holder = some x ∧
          u.flash = s.flash ∧ u.board = s.board ∧ u.half x.other = s.half x.other ∧ (u.img x).regs = y.img.regs ∧
          (u.img x).keys = y.img.keys ∧
          (s.tam.seed = true → s.a.helm.st ≠ .inStep → s.b.helm.st ≠ .inStep → u.modState = 4)) ∧
      (s.phase ≠ .booting ∨ y.img.seq = 0 ∨ y.boot.hssReady = false ∨ y.boot.dramDone = false →
        exec (.bootingEnd) s = .next s))

/-! ## The usher -/

/-- The usher of the half that holds the helm numbers the oldest post of a source, with the next sequence number (R30, R36).
A completion is written at its ring's next position, at once in SOLO, and in a pair once the standby has it; an event on
a ring that is not enabled is held (R490, R545).  CNT_OVERFLOW takes its counter's value then (R509).  Another half, a
source with nothing waiting or with a completion that is not there yet, and a usher before BOOT, change nothing; an alarm of
the log enters the room that an alarm leaves (R36). -/
def Sys2Proof.Claims.TheUsherNumbersTheOldestPost : Prop :=
  ∀ (x : Half) (src : Src) (y : HState) (s : State), y = s.half x →
    (s.holder ≠ some x ∨ y.img.seq = 0 ∨ (∀ q ∈ y.queue, q.1 ≠ src) → exec (.usherEvent x src) s = .next s) ∧
    (∀ pre c r, y.queue = pre ++ (src, .due c) :: r → (∀ q ∈ pre, q.1 ≠ src) →
      exec (.usherEvent x src) s = .next s) ∧
    (∀ e a i o v, e.code = 0x0601 → e.payload = [a, i, o, v] → y.atAcceptance (.ev e) =
      .ev { e with payload := [a, i, o, (8, (y.ctr i.2).val)] }) ∧
    (∀ pre p r, s.holder = some x → 0 < y.img.seq → y.ctrs = [] → y.queue = pre ++ (src, p) :: r → (∀ c, p ≠ .due c) →
      (∀ q ∈ pre, q.1 ≠ src) →
      ∃ u more, exec (.usherEvent x src) s = .next u ∧ (u.img x).seq = y.img.seq + 1 ∧
        (u.half x).queue = pre ++ r ++ more ∧ (src ≠ .alarm → more = []) ∧ (∀ q ∈ more, q.1 = .alarm) ∧
        (u.img x).regs = y.img.regs ∧ u.half x.other = s.half x.other ∧ u.board = s.board ∧
        (∀ c n, p = .cpl c → n = { seq := y.img.seq + 1, post := p } → y.img.ringEn c.fn 1 = true →
          (y.img.fnSt c.fn).cpl.stalled = false → (y.img.fnSt c.fn).discard = [] →
          ∀ e : Placed, e = { fn := c.fn, ring := 1, pos := (y.img.fnSt c.fn).cpl.count,
                              entry := .main (phaseOf (y.img.fnSt c.fn).cpl.count (y.img.ringSize c.fn 1)) 0 n } →
            ((u.img x).fnSt c.fn).cpl.count = (y.img.fnSt c.fn).cpl.count + 1 ∧
            (y.helm.st = .activePaired → (u.half x).unsent = y.unsent ++ [e] ∧ u.rings = s.rings) ∧
            (y.helm.st = .activeSolo → y.unsent = [] → (u.half x).unsent = [] ∧
              u.rings = tabSet none s.rings (slotKey c.fn 1 (e.pos % y.img.ringSize c.fn 1)) (some e.entry))) ∧
        (∀ e, p = .ev e → e.code ≠ 0x0601 → e.route = .pf → y.img.ringEn 0 2 = false → (y.img.fnSt 0).held = [] →
          ((u.img x).fnSt 0).held = [{ seq := y.img.seq + 1, post := p }] ∧
          (y.helm.st = .activePaired → (u.half x).unsent = y.unsent)))

/-- An interrupt that moderation holds back goes out once its delay has passed, and the count of entries starts afresh
(R491). -/
def Sys2Proof.Claims.ModeratedInterruptsGoOut : Prop :=
  ∀ (x : Half) (fn r : Nat) (g : Ring) (s : State), fn < 16 → r = 1 ∨ r = 2 → s.holder = some x →
    g = ((s.img x).fnSt fn).ring r →
    (0 < g.modCount → g.modSince + 256 * bits ((s.img x).reg fn (0x100110 + 0x20 * r)) 31 16 ≤ s.now →
      exec (.msixDelayExpire fn r) s = .next ((s.modImg x fun im => im.modRing fn r fun v => { v with modCount := 0 }).emit
        (.msix fn (bits ((s.img x).reg fn (0x100108 + 0x20 * r)) 12 10)))) ∧
    (g.modCount = 0 ∨ s.now < g.modSince + 256 * bits ((s.img x).reg fn (0x100110 + 0x20 * r)) 31 16 →
      exec (.msixDelayExpire fn r) s = .next s)

/-- What a half posts waits at its usher while it is active, goes to the active half while it is standby or has stopped
driving, and is lost once it is halted (R33, R35); a level event whose source has one waiting already takes its place with
the new state, whatever the state was, and counts the change it absorbs (R31, R36). -/
def Sys2Proof.Claims.PostsGoWhereTheHalfStands : Prop :=
  ∀ (x : Half) (src : Src) (e : Ev) (y : HState) (s : State), y = s.half x →
    ((y.helm.st = .inStep ∨ y.helm.st = .out ∨ y.helm.st = .relinquished) →
      (e.key = 0 ∨ (∀ o, Post.ev o ∈ y.fwd.drop y.fwdOut → o.key ≠ e.key) →
        s.postEv x src e = s.setHalf x { y with fwd := y.fwd ++ [.ev e] }) ∧
      (∀ sent pre o r, e.key ≠ 0 → y.fwd = sent ++ pre ++ .ev o :: r → sent.length = y.fwdOut → o.key = e.key →
        (∀ v, Post.ev v ∈ pre → v.key ≠ e.key) → s.postEv x src e = s.setHalf x
          { y with fwd := sent ++ pre ++ .ev { e with absorbed := o.absorbed + e.absorbed + 1 } :: r })) ∧
    (y.helm.st = .halted → s.postEv x src e = s.setHalf x y) ∧
    (Posting s x → (e.key = 0 ∨ ∀ q ∈ y.queue, ∀ o, q.2 = .ev o → o.key ≠ e.key) →
      s.postEv x src e = s.setHalf x { y with queue := y.queue ++ [(src, .ev e)] }) ∧
    (∀ pre q o r, Posting s x → e.key ≠ 0 → y.queue = pre ++ (q, .ev o) :: r → o.key = e.key →
      (∀ z ∈ pre, ∀ v, z.2 = .ev v → v.key ≠ e.key) →
      s.postEv x src e = s.setHalf x
        { y with queue := pre ++ (q, .ev { e with absorbed := o.absorbed + e.absorbed + 1 }) :: r })

/-! ## What registers and indicators show -/

/-- A function that does not reach a register reads 0 (R41); a register of no step of its own reads as the last accepted
write left it.  The upper half of a wide value reads as the low read latched it (R43, R302, R366, R427, R454, R519), and a
count that a read has taken reads 0 (R14).  `HLM_STAT`, `HLM_GEN` and `GLB_PACE_STAT` show the half and its claim. -/
def Sys2Proof.Claims.RegistersReadAsTheStateStands : Prop :=
  ∀ (x : Half) (s : State),
    (∀ fn off, reaches fn off = false → s.readWord x fn off = 0) ∧
    (∀ w, s.holder = some x → 2 ≤ bits w 3 0 → bits w 3 0 ≤ 8 → 2 ≤ bits w 11 8 → bits w 11 8 ≤ 15 →
      ∃ u, exec (.registerWrite x 0 0x300000 w) s = .next u ∧
        u.readWord x 0 0x300000 = bits w 11 8 * 256 + bits w 3 0) ∧
    (∃ u, exec (.usherSeqLoRead x 0) s = .next u ∧ u.readWord x 0 0x204 = (s.img x).seq / 2 ^ 32) ∧
    (∃ u, exec (.keyRunLoRead x 0) s = .next u ∧ u.readWord x 0 0x900204 = s.flash.run / 2 ^ 32) ∧
    (∃ u, exec (.hssNextLoRead x 0) s = .next u ∧ u.readWord x 0 0xB00008 = (s.img x).hssNext / 2 ^ 32) ∧
    (∃ u, exec (.peerHealthLoRead x 0) s = .next u ∧ u.readWord x 0 0xD00010 = (s.half x).helm.peerHealth / 2 ^ 32) ∧
    (∃ u, exec (.pmmFailLoRead x 0) s = .next u ∧ u.readWord x 0 0xE00008 =
      16 * (s.half x).dram.failAgent + (s.half x).dram.failAddr / 2 ^ 32 % 16) ∧
    (∀ i, i < 256 → ∃ u, exec (.cntValLoRead x 0 i) s = .next u ∧
      u.readWord x 0 (0x100000C + 0x10 * i) = ((s.half x).ctr i).word / 2 ^ 32) ∧
    (∃ u, exec (.pmmWalkCntRead x 0) s = .next u ∧ u.readWord x 0 0xE00010 = 0) ∧
    (∃ u, exec (.pmmCorrRead x 0) s = .next u ∧ u.readWord x 0 0xE00014 = 0) ∧
    s.readWord x 0 0xD00000 = b2n (decide (s.obeyed = some x)) * 2 ^ 31 + x.idx * 2 ^ 30 +
      helmCode (s.half x).helm.st * 2 ^ 27 + b2n (s.half x.other).helm.claim * 2 ^ 26 +
      b2n (s.half x).helm.rejoining * 2 ^ 25 + (s.half x).restarts ∧
    s.readWord x 0 0xD00004 = (match s.obeyed with | some h => (s.half h).helm.gen | none => 0) ∧
    s.readWord x 0 0x104 = b2n (s.half x).gov.paceLimit * 2 ^ 31 + b2n (s.half x).gov.rateFloor * 2 ^ 30 +
      (s.half x).gov.group % 16 * 2 ^ 24 + ((s.half x).gov.vcore - 680) / 5 * 2 ^ 12 + (s.half x).gov.slowest % 4096

/-- Bit p of `HAL_EXPRESS_STAT` (R265): line port p is enabled; the class-0 shaper of egress port 32 + p is enabled with at
most 25 % of the port rate, of 200,000 Mb/s a lane, and a burst of 0; preemption is active; the shaper has held no frame in
the last second; PACE_LIMIT is clear. -/
def Sys2Proof.Claims.ExpressConditionsShow : Prop :=
  ∀ (x : Half) (p : Nat) (s : State), p < 32 →
    ((s.readWord x 0 0x800014 / 2 ^ p % 2 = 1) ↔
      (s.img x).portEn p = true ∧ ((s.img x).shaper (8 * (32 + p))).en = true ∧
      4 * ((s.img x).shaper (8 * (32 + p))).rate ≤ 200000 * (s.img x).portWidth (4 + p / 8) ∧
      ((s.img x).shaper (8 * (32 + p))).burst = 0 ∧ tabGet 0 (s.half x).preempt p = 2 ∧
      (tabGet 0 (s.half x).heldLast p = 0 ∨ tabGet 0 (s.half x).heldLast p - 1 + 1000000000 ≤ s.now) ∧
      (s.half x).gov.paceLimit = false)

/-- The indicators follow the module state and the helm states (R520, Table 18.2): STATE amber blinking while no half holds
the helm; A and B green, amber, amber blinking or red; a cage green, amber or off. -/
def Sys2Proof.Claims.LampsFollowTheState : Prop :=
  ∀ (x : Half) (c : Nat) (s : State),
    (s.board.power = .off → s.stateLamp = .off) ∧
    (s.board.power ≠ .off → (s.tam.seed = false → s.stateLamp = .red) ∧
      (s.tam.seed = true → (s.phase = .cold → s.stateLamp = .off) ∧
        (s.phase ≠ .cold → s.holder = none ∨ s.phase = .booting → s.stateLamp = .amberBlinking) ∧
        (∀ h, s.phase = .running → s.holder = some h → s.stateLamp =
          (if s.a.helm.st ≠ .inStep ∧ s.b.helm.st ≠ .inStep then .greenBlinking
           else if (s.img h).service then .green else .amber)))) ∧
    ((s.half x).helm.st.active = true → s.halfLamp x = .green) ∧
    ((s.half x).helm.st = .inStep → s.halfLamp x = .amber) ∧
    ((s.half x).helm.st = .out → s.halfLamp x = .amberBlinking) ∧
    ((s.half x).helm.st = .halted → (s.half x).haltCause ≠ 0 → s.halfLamp x = .red) ∧
    ((s.cage c).fault = true → s.cageLamp c = .amber) ∧
    ((s.cage c).fault = false → (s.cage c).present = false ∨ (s.cage c).powered = false → s.cageLamp c = .off) ∧
    (∀ h, s.holder = some h → (s.cage c).fault = false → (s.cage c).present = true → (s.cage c).powered = true →
      (∀ i, i < 8 → ((s.half h).lane (8 * c + i)).inActive = true ∧ ((s.half h).lane (8 * c + i)).signal = true) →
      s.cageLamp c = .green)

/-! ## The statements that take several of the above together -/

/-- Every well-formed step runs; no step is refused, and only an absent unit faults. Model's choices in it:
notes/assumptions/5.md. -/
def Obligations.EveryKnownUnitsStepRuns : Prop :=
  EveryWellFormedStepRuns ∧ OnlyAbsentUnitsFault

/-- A command runs on the serving half and its ring, or does nothing but complete. Model's choices in it:
notes/assumptions/3.md. -/
def Obligations.CommandsAreTurnedAwayWithoutEffect : Prop :=
  CommandsNeedAServingHalf ∧ StandbyCommandsAreTurnedAway ∧ WrongRingIsRejected

/-- Wide reads latch their upper half; read-clear counts clear; nothing else changes. Model's choices in it:
notes/assumptions/17.md. Says where these complete: usherSeqLoRead, keyRunLoRead, hssNextLoRead, peerHealthLoRead,
pmmFailLoRead, timTbNsRead, fifoCerrRead, prbsErrRead, pkeLateRead, pmmReencCntRead, pmmWalkCntRead, pmmCorrRead,
dbStatRead, ringErrRead. -/
def Obligations.ReadsLatchAndClear : Prop :=
  LowReadsLatchTheUpperHalf ∧ ReadClearCountsClear ∧ HostInterfaceCountsClear

/-- Programmable counters: one sample per read, reprogramming clears, 48 bits wrap with STICKY. Model's choices in it:
notes/assumptions/18.md, notes/assumptions/19.md. Says where these complete: cntValLoRead, cntCfgWrite,
cntThreshWrite, counterWindowRead, counterWrap. -/
def Obligations.CountersSampleReprogramAndWrap : Prop :=
  CounterReadsAreOneSample ∧ CountersReprogramAndWrap

/-- Doorbells: odd widths only count, standbys forward, consumer doorbells free entries. Model's choices in it:
notes/assumptions/33.md. Says where these complete: cmdPiDoorbell, tblPiDoorbell, cplCiDoorbell, evtCiDoorbell. -/
def Obligations.DoorbellsCountForwardAndFree : Prop :=
  OddDoorbellsOnlyCount ∧ ConsumerDoorbellsFreeEntries ∧ StandbyForwardsDoorbells

/-- A producer doorbell takes descriptors in phase; a mismatch that stays stalls the ring. Says where these complete:
cmdPiDoorbell, tblPiDoorbell, phaseRetryExpire. -/
def Obligations.DescriptorsAreTakenInPhase : Prop :=
  DoorbellTakesTheNextDescriptor ∧ PhaseMismatchStallsAfterTwoMicroseconds

/-- Paired writes, own registers and mode writes keep their rules on the half they name. Model's choices in it:
notes/assumptions/25.md. Says where these complete: registerWrite. -/
def Obligations.PairedRegistersNeedTheHelm : Prop :=
  PairedWritesKeepTheirRules ∧ OwnRegistersStayInTheirHalf ∧ ModeWritesNeedTheHelm

/-- Cage, port, lane and group writes change their registers and what they drive. Says where these complete:
lanePwrWrite, cageModeWrite, cageSplitWrite, clientModeWrite, groupEnableWrite, groupRetime. -/
def Obligations.ModeAndLaneWritesTakeEffect : Prop :=
  CageAndPortModesChange ∧ LaneAndGroupWritesTakeEffect

/-- Tributary, security port and threshold writes. Model's choices in it: notes/assumptions/25.md. Says where these
complete: tribEnable, tribDisable, pktPortEnable, xpnThreshHiWrite. -/
def Obligations.TributaryAndPortWritesTakeEffect : Prop :=
  TributaryEnableAndDisable ∧ SecyPortAndThresholdWrites

/-- TMP and MOD writes: latches, LOCK and POWER_EN. Says where these complete: tmpLatchClear, tmpLockSet,
cagePowerEnWrite. -/
def Obligations.TamperAndCageWritesTakeEffect : Prop :=
  TamperLatchesAndLock ∧ CagePowerWrites

/-- A ring is enabled empty; a Function Level Reset disables a function's rings. Says where these complete: ringEnable,
ringDisable, functionLevelReset. -/
def Obligations.RingsEnableEmptyAndReset : Prop :=
  RingsEnableEmpty ∧ FunctionResetDisablesItsRings

/-- Scheduled commands are armed, fire when due, are listed and cancelled. Model's choices in it:
notes/assumptions/8.md, notes/assumptions/66.md. Says where these complete: tribSwitch, tribKeyStep, secySaActivate,
shaperSet, schedList, schedCancel, helmHandover, schedFire, schedLateFire. -/
def Obligations.ScheduledActionsAreArmedAndFire : Prop :=
  ScheduledCommandsAreArmed ∧ DueEntriesFire ∧ ScheduleIsListedAndCancelled

/-- Forces hold until released, spans are judged, client faults substitute. Model's choices in it:
notes/assumptions/42.md, notes/assumptions/43.md, notes/assumptions/46.md. Says where these complete: tribForce,
clientFault, clientFaultClear, spanVerdict. -/
def Obligations.ForcesSpansAndSubstitution : Prop :=
  ForcesHoldUntilReleased ∧ SpansAreJudged ∧ ClientFaultsSubstitute

/-- Binding starts the first key change; unbinding erases every slot. Model's choices in it: notes/assumptions/9.md,
notes/assumptions/37.md, notes/assumptions/39.md. Says where these complete: tribCipherBind, tribCipherUnbind. -/
def Obligations.TributaryCiphersBindAndUnbind : Prop :=
  BindStartsTheFirstKeyChange ∧ UnbindErasesEverySlot

/-- Transmit and receive associations of a tributary follow their tables. Model's choices in it: notes/assumptions/9.md,
notes/assumptions/37.md, notes/assumptions/41.md. Says where these complete: keyNextRx, keyReadyRx, keyConfirmRx,
keyRefuseRx, keyNextResend, epochSwitch, txKeyRetire, txKeyRevert, rxKeyRetire, keyConfirmResend, spanCountRekey. -/
def Obligations.KeyChangesFollowTheirTables : Prop :=
  TransmitAssociationFollowsItsTable ∧ ReceiveAssociationAnswers

/-- Secure channels are created and deleted, associations installed and retired. Model's choices in it:
notes/assumptions/8.md. Says where these complete: secyScCreate, secyScDelete, secySaInstall, secySaRetire. -/
def Obligations.ChannelsAndAssociationsAreInstalled : Prop :=
  ChannelsAreCreatedAndDeleted ∧ AssociationsAreInstalledAndRetired

/-- Associations are activated, pinned and read; loads and holds end. Model's choices in it: notes/assumptions/52.md.
Says where these complete: secySaActivate, secySaPin, secySaRead, saLoadComplete, holdExpire, preemptVerify. -/
def Obligations.AssociationsAreActivatedAndLoaded : Prop :=
  AssociationsAreActivatedPinnedAndRead ∧ LoadsAndHoldsEnd

/-- Channel entries are written whole; bulk commands stop at the first failure. Says where these complete: chanWrite,
chanRead, chanBulk, trieBulk. -/
def Obligations.ChannelTableCommandsAreAtomic : Prop :=
  TableCommandsKeepTheirForm ∧ ChannelWritesAreAtomic ∧ BulkCommandsStopAtTheFirstFailure

/-- Prefix commands change one prefix; a rebuild switches by one write. Model's choices in it: notes/assumptions/94.md.
Says where these complete: trieAdd, trieDel, trieRebuildBegin, trieRebuildCommit, trieRebuildAbort, trieLookup,
trieNodeRelease, trieBankRelease. -/
def Obligations.PrefixTablesChangeByOnePrefix : Prop :=
  PrefixChangesTouchOnePrefix ∧ RebuildsSwitchByOneWrite

/-- Station commands change one key; learning and aging. Model's choices in it: notes/assumptions/53.md,
notes/assumptions/94.md. Says where these complete: stnAdd, stnDel, stnRelease, stnFlush, stnDump, pairWrite,
stationLearn, channelAgingSweep, stationAgingSweep, stationMoorExpire. -/
def Obligations.StationsAreSetLearnedAndAged : Prop :=
  StationCommandsChangeOneKey ∧ MovesKeepEveryLookup ∧ LearningAndAging

/-- Shapers, policers and samples are set and read; refills fill the buckets. Model's choices in it:
notes/assumptions/51.md, notes/assumptions/54.md. Says where these complete: shaperSet, shaperRead, policerSet,
policerRead, sampleRead, refillTick. -/
def Obligations.HallCommandsAndBuckets : Prop :=
  HallCommandsSetAndRead ∧ RefillTicksFillTheBuckets

/-- Client frames enter their queue; the scheduler takes the lowest class. Model's choices in it:
notes/assumptions/6.md, notes/assumptions/49.md, notes/assumptions/50.md. Says where these complete: clientFrameRx,
schedulerPick. -/
def Obligations.FramesQueueAndLeaveInOrder : Prop :=
  ClientFramesEnterTheirQueue ∧ SchedulerTakesTheLowestClass

/-- Line frames are decrypted into their queue; verdicts raise the packet number. Model's choices in it:
notes/assumptions/6.md, notes/assumptions/49.md. Says where these complete: lineFrameRx, frameVerdict. -/
def Obligations.SecuredFramesAreCheckedAndDelivered : Prop :=
  LineFramesDecryptIntoTheirQueue ∧ VerdictsRaiseThePacketNumber

/-- A key is created by its blob and exists once written and journalled. Model's choices in it: notes/assumptions/4.md,
notes/assumptions/8.md, notes/assumptions/36.md, notes/assumptions/39.md. Says where these complete: keyAreaSet,
domainCreate, keyImport, flashRecordDurable, dmaTransferEnd. -/
def Obligations.KeysAreCreatedDurably : Prop :=
  KeyCreationStartsWithItsBlob ∧ KeysExistOnceWrittenAndJournalled

/-- Keys keep their handle at replacement, are checked at loading, and invalidation cascades. Model's choices in it:
notes/assumptions/4.md, notes/assumptions/9.md, notes/assumptions/36.md, notes/assumptions/39.md. Says where these
complete: keyReplace, keyInvalidate, keyFree, cascadeGraceEnd, keyLoad, keyCommitDurable, journalCompaction. -/
def Obligations.KeysAreReplacedLoadedAndInvalidated : Prop :=
  ReplacementKeepsTheHandle ∧ LoadsAreChecked ∧ InvalidationCascades

/-- The public-key engine starts operations and releases results at their deadline. Model's choices in it:
notes/assumptions/7.md, notes/assumptions/9.md, notes/assumptions/78.md. Says where these complete: keyProvenance,
pkeCurveLoad, pkeCurveClear, pkeVerify, pkeAttest, pkeRelease, pkeKatDone. -/
def Obligations.EngineOperationsEndAtTheirDeadline : Prop :=
  EngineStartsOperations ∧ ResultsAreReleasedAtTheirDeadline

/-- Pieces join reassemblies, hails keep the peer table, peers depart and are released. Model's choices in it:
notes/assumptions/60.md, notes/assumptions/61.md. Says where these complete: peerQuery, peerRelease, hailSend,
peerPieceRx, reassemblyTimeout, hailRx, carrierLoss, peerMoorExpire. -/
def Obligations.PeersArriveAndDepart : Prop :=
  PiecesJoinReassemblies ∧ HailsKeepThePeerTable ∧ PeersDepartMooredAndAreReleased

/-- Rekey tasks are set, cleared and fire; keys and participants end with their life times. Model's choices in it:
notes/assumptions/62.md. Says where these complete: rekeySet, rekeyClear, mkaLifeExpire, cwyReplaceStep. -/
def Obligations.RekeysAndLifeTimes : Prop :=
  RekeysAreSetAndCleared ∧ LifeTimesEnd

/-- Pairings open sessions, offers are answered, sessions end, charters are exchanged. Model's choices in it:
notes/assumptions/7.md, notes/assumptions/56.md, notes/assumptions/58.md. Says where these complete: pairingSet,
pairingClear, zkaStart, zkaCancel, zkaAutoStart, zkaOfferRx, zkaAbortRx, charterReqRx, charterRx, zkaSessionTimeout. -/
def Obligations.PairingsOpenAndEndSessions : Prop :=
  PairingsOpenSessions ∧ OffersAreAnswered ∧ SessionsEndAndChartersAreExchanged

/-- Initiator and responder of a key agreement follow their tables. Model's choices in it: notes/assumptions/9.md,
notes/assumptions/58.md, notes/assumptions/59.md. Says where these complete: zkaAnswerRx, zkaFinishRx, zkaDoneRx,
zkaFinishResend, zkaClosedExpire, flashRecordDurable. -/
def Obligations.AgreementsFollowTheirTables : Prop :=
  InitiatorFollowsItsTable ∧ ResponderFollowsItsTable

/-- Connectivity associations are bound and unbound, and their participants exchange keys. Model's choices in it:
notes/assumptions/55.md, notes/assumptions/56.md, notes/assumptions/57.md. Says where these complete: caBind,
caUnbind, mkpduRx, mkaHello. -/
def Obligations.ConnectivityAssociationsExchangeKeys : Prop :=
  AssociationsAreBoundAndUnbound ∧ ParticipantsExchangeKeys

/-- Time bases are set, steered by samples, and hold over. Model's choices in it: notes/assumptions/63.md,
notes/assumptions/64.md. Says where these complete: timeSet, timeOffset, ppsEdge, ppsLoss, ppsOutputPulse,
servoSample, servoHoldover, ptpMessageRx. -/
def Obligations.TimeBasesAreSetAndSteered : Prop :=
  TimeSetStepsOneTimeBase ∧ SamplesSteerTheirTimeBase ∧ HoldoverAndPulses

/-- Crossings send copies, which the standby applies and acknowledges. Model's choices in it: notes/assumptions/67.md,
notes/assumptions/68.md, notes/assumptions/69.md, notes/assumptions/72.md. Says where these complete: statsSnapshot,
crossingEnd, crossingCopyRx, crossingAckRx, copyNakRx, frameMark. -/
def Obligations.CopiesCrossTheFerry : Prop :=
  CrossingsSendCopies ∧ CopiesAreAppliedAndAcknowledged

/-- Leases expire into takeovers and claims decide which half is active. Model's choices in it: notes/assumptions/38.md,
notes/assumptions/70.md, notes/assumptions/71.md. Says where these complete: relinquish, takeoverSilent, reclaim,
haltRx, claimPreferredSeen, claimLoss, finalSeal, handoverReclaim. -/
def Obligations.TheHelmPassesByLeaseAndClaim : Prop :=
  LeasesExpire ∧ ClaimsDecideWhoIsActive

/-- Standbys rejoin; a failed self-test takes a half out of step. Model's choices in it: notes/assumptions/71.md. Says
where these complete: rejoinRequest, rejoinComplete, selftestRun. -/
def Obligations.StandbysRejoinAndTestThemselves : Prop :=
  StandbysRejoin ∧ SelfTestsTakeAHalfOutOfStep

/-- Lanes move through their power states and adapt; ferry lanes lock and enter use. Model's choices in it:
notes/assumptions/6.md, notes/assumptions/89.md. Says where these complete: lanePwrMoveDone, signalChange,
laneAdapted, ferryLaneLock, ferryLaneUnlock, ferryLaneAdmit, clientPcsRestartDone. -/
def Obligations.LanesMoveAdaptAndLock : Prop :=
  LanesMoveAndAdapt ∧ FerryLanesLockAndEnterUse

/-- Slipways stop when they must; the governor steers the voltage. Model's choices in it: notes/assumptions/6.md,
notes/assumptions/48.md. Says where these complete: slipwaySupply, slipwayFault, paceGovernorRun. -/
def Obligations.SlipwaysAndGovernorFollowTheirRules : Prop :=
  SlipwaysStop ∧ GovernorSteersTheVoltage

/-- Causeway lanes hunt, lock and align; windows and retimes end. Model's choices in it: notes/assumptions/44.md,
notes/assumptions/45.md. Says where these complete: fasMatch, soundingCheck, laneFrameRx, retimeInForce,
degWindowEnd. -/
def Obligations.LanesAlignAndRetime : Prop :=
  LanesAlign ∧ WindowsAndRetimesEnd

/-- Container rows are interpreted, frames are sent, pointers adjusted. Model's choices in it: notes/assumptions/45.md,
notes/assumptions/47.md. Says where these complete: laneFrameTx, pointerAdjust, containerRowRx, tmcMessageRx. -/
def Obligations.ContainersAndFramesAreInterpreted : Prop :=
  ContainerRowsAreInterpreted ∧ FramesAreSent

/-- Anchor and charter take effect once durable; authorisations permit their acts. Model's choices in it:
notes/assumptions/75.md, notes/assumptions/76.md, notes/assumptions/91.md, notes/assumptions/93.md. Says where these
complete: envelopeRenew, enrolAnchor, enrolCharter, idgenAdvance, decommission, flashRecordDurable. -/
def Obligations.EnrolmentAndAuthorisedActs : Prop :=
  EnrolmentTakesEffectOnceDurable ∧ AuthorisationsPermitTheirActs

/-- Protected DRAM: initialisation, line reads and writes, counters, failures. Model's choices in it:
notes/assumptions/15.md, notes/assumptions/79.md. Says where these complete: dramInitDone, dramRead, dramWrite. -/
def Obligations.MemoryIsInitialisedReadAndWritten : Prop :=
  LinesAreSealedAndVerified ∧ MemoryIsReadAndWrittenByLines ∧ InitialisationZeroesMemory

/-- Protection units stop an access at its first forbidden byte; regions belong to the secure level. Model's choices in
it: notes/assumptions/26.md. Says where these complete: protRegionWrite, protFence, processorAccess. -/
def Obligations.ProtectionUnitsGuardEveryAccess : Prop :=
  AccessesStopAtTheFirstForbiddenByte ∧ RegionsBelongToTheSecureLevel

/-- Tamper alarms are latched, logged and answered under their maps; latches hold further alarms back. Model's choices
in it: notes/assumptions/80.md, notes/assumptions/81.md. Says where these complete: tamperAlarm, sourceLeavesAlarm. -/
def Obligations.AlarmsAreLatchedAndAnswered : Prop :=
  AlarmsAreLatchedLoggedAndAnswered ∧ TwoHaltsAtOnceErase ∧ LatchesHoldAlarmsBack

/-- Mains, recheck, rails, resets, supplies, thermal trip and restart. Model's choices in it: notes/assumptions/82.md,
notes/assumptions/83.md, notes/assumptions/84.md. Says where these complete: mainsApplied, envelopeColdRecheck,
halfRailFail, powerFail, railsOff, psuState, modReset, perst, thermalTrip, thermalRestart, pcieLinkChange. -/
def Obligations.PowerComesAndGoes : Prop :=
  MainsPowersTheHalves ∧ PowerLossAndResets ∧ TripsRemovePower

/-- Cages, fans, warnings, reference, cell and sideband. Model's choices in it: notes/assumptions/26.md,
notes/assumptions/85.md, notes/assumptions/86.md, notes/assumptions/87.md. Says where these complete: sidebandRead,
opticsInsert, opticsRemove, opticsReady, cageOvercurrent, fanFail, fanTrayRemove, fanTrayInsert, thermalWarn,
refLock, refLoss, cellCheck, thermalWarnClear. -/
def Obligations.TheBoardReportsItsUnits : Prop :=
  CagesFollowTheirOptics ∧ FansAndWarnings ∧ ReferenceAndSideband ∧ TheCellIsChecked

/-- Halves load their images and the first ready half claims the helm. Model's choices in it: notes/assumptions/73.md,
notes/assumptions/88.md. Says where these complete: bootStart, halfReady, halfBClaimTimeout, hssStateRebuilt. -/
def Obligations.HalvesLoadAndClaim : Prop :=
  HalvesLoadTheirImages ∧ TheFirstReadyHalfClaims

/-- BOOT is numbered first and BOOTING ends once its steps are done. Model's choices in it: notes/assumptions/29.md,
notes/assumptions/31.md, notes/assumptions/73.md, notes/assumptions/74.md, notes/assumptions/90.md. Says where these
complete: boot, bootingEnd. -/
def Obligations.BootingRunsItsSteps : Prop :=
  BootIsNumberedFirst ∧ BootingEndsOnceReady

/-- Posts wait where their half stands, the usher numbers the oldest, interrupts are moderated. Model's choices in it:
notes/assumptions/28.md, notes/assumptions/30.md, notes/assumptions/31.md. Says where these complete:
msixDelayExpire, usherEvent. -/
def Obligations.PostsAreNumberedAndDelivered : Prop :=
  PostsGoWhereTheHalfStands ∧ TheUsherNumbersTheOldestPost ∧ ModeratedInterruptsGoOut

/-- Registers read as the state stands, and the indicators follow it. Model's choices in it: notes/assumptions/97.md.
Says where these complete: registerWrite, usherSeqLoRead, keyRunLoRead, hssNextLoRead, peerHealthLoRead,
pmmFailLoRead, cntValLoRead, pmmWalkCntRead, pmmCorrRead. -/
def Obligations.RegistersAndLampsShowTheState : Prop :=
  RegistersReadAsTheStateStands ∧ ExpressConditionsShow ∧ LampsFollowTheState
end

