-- ==== Sys2Proof/Laws/Bits.lean ====
section
/-! SUPPORT. The bit fields of a register word: reading a field after one is replaced. -/

namespace Sys2Proof.Machine

open Sys2Proof

/-- A word is its part above a field, the field, and its part below. -/
theorem toNat_split (w : Word) {hi lo : Nat} (h : lo ≤ hi) :
    w.toNat = 2 ^ (hi + 1) * (w.toNat / 2 ^ (hi + 1)) + (2 ^ lo * bits w hi lo + w.toNat % 2 ^ lo) := by
  have e : 2 ^ (hi + 1) = 2 ^ lo * 2 ^ (hi + 1 - lo) := by rw [← Nat.pow_add]; congr 1; omega
  have h1 := Nat.div_add_mod w.toNat (2 ^ lo)
  have h2 := Nat.div_add_mod (w.toNat / 2 ^ lo) (2 ^ (hi + 1 - lo))
  unfold bits
  rw [e, ← Nat.div_div_eq_div_mul, Nat.mul_assoc, ← Nat.add_assoc, ← Nat.mul_add, h2, h1]

/-- Bit `i` of a word with a field replaced. -/
theorem setBits_getLsbD (w : Word) {hi lo : Nat} (v : Nat) (h : lo ≤ hi) (_ : hi ≤ 31) (i : Nat) (hi32 : i < 32) :
    (setBits w hi lo v).getLsbD i = if lo ≤ i ∧ i ≤ hi then v.testBit (i - lo) else w.getLsbD i := by
  have e : 2 ^ (hi + 1) = 2 ^ lo * 2 ^ (hi + 1 - lo) := by rw [← Nat.pow_add]; congr 1; omega
  have hw := toNat_split w h
  have hc : w.toNat % 2 ^ lo < 2 ^ lo := Nat.mod_lt _ (Nat.two_pow_pos _)
  have hv : v % 2 ^ (hi + 1 - lo) < 2 ^ (hi + 1 - lo) := Nat.mod_lt _ (Nat.two_pow_pos _)
  have hb : bits w hi lo < 2 ^ (hi + 1 - lo) := Nat.mod_lt _ (Nat.two_pow_pos _)
  have small : ∀ u c, u < 2 ^ (hi + 1 - lo) → c < 2 ^ lo → 2 ^ lo * u + c < 2 ^ (hi + 1) := by
    intro u c hu hc
    rw [e]
    calc 2 ^ lo * u + c < 2 ^ lo * u + 2 ^ lo := by omega
      _ = 2 ^ lo * (u + 1) := by rw [Nat.mul_succ]
      _ ≤ 2 ^ lo * 2 ^ (hi + 1 - lo) := Nat.mul_le_mul_left _ hu
  have bit : ∀ a u c j, u < 2 ^ (hi + 1 - lo) → c < 2 ^ lo → (2 ^ (hi + 1) * a + (2 ^ lo * u + c)).testBit j =
      if j < hi + 1 then (if j < lo then c.testBit j else u.testBit (j - lo)) else a.testBit (j - (hi + 1)) := by
    intro a u c j hu hc
    rw [Nat.testBit_two_pow_mul_add _ (small u c hu hc), Nat.testBit_two_pow_mul_add _ hc]
  have key : (setBits w hi lo v).getLsbD i =
      (2 ^ (hi + 1) * (w.toNat / 2 ^ (hi + 1)) + (2 ^ lo * (v % 2 ^ (hi + 1 - lo)) + w.toNat % 2 ^ lo)).testBit i := by
    unfold setBits
    rw [BitVec.getLsbD_ofNat, decide_eq_true hi32, Bool.true_and]
    congr 1
    have c1 := Nat.mul_comm (bits w hi lo) (2 ^ lo)
    have c2 := Nat.mul_comm (v % 2 ^ (hi + 1 - lo)) (2 ^ lo)
    omega
  have wkey : w.getLsbD i =
      (2 ^ (hi + 1) * (w.toNat / 2 ^ (hi + 1)) + (2 ^ lo * bits w hi lo + w.toNat % 2 ^ lo)).testBit i := by
    rw [← hw]; rfl
  rw [key, wkey, bit _ _ _ _ hv hc, bit _ _ _ _ hb hc]
  by_cases a : i < hi + 1
  · by_cases b : i < lo
    · rw [if_pos a, if_pos b, if_pos a, if_pos b, if_neg (by omega)]
    · rw [if_pos a, if_neg b, if_pos (by omega), Nat.testBit_mod_two_pow, decide_eq_true (by omega), Bool.true_and]
  · rw [if_neg a, if_neg a, if_neg (by omega)]

/-- A field read bit by bit. -/
theorem bits_testBit (w : Word) (hi lo j : Nat) :
    (bits w hi lo).testBit j = (decide (j < hi + 1 - lo) && w.getLsbD (lo + j)) := by
  unfold bits
  rw [Nat.testBit_mod_two_pow, Nat.testBit_div_two_pow, Nat.add_comm j lo]; rfl

/-- The replaced field reads back. -/
theorem bits_setBits (w : Word) {hi lo : Nat} (v : Nat) (h : lo ≤ hi) (h31 : hi ≤ 31) :
    bits (setBits w hi lo v) hi lo = v % 2 ^ (hi + 1 - lo) := by
  apply Nat.eq_of_testBit_eq
  intro j
  rw [bits_testBit, Nat.testBit_mod_two_pow]
  by_cases hj : j < hi + 1 - lo
  · rw [setBits_getLsbD w v h h31 _ (by omega), if_pos (by omega)]
    simp
  · simp [hj]

/-- A field that does not overlap the replaced one is unchanged. -/
theorem bits_setBits_of_disjoint (w : Word) {hi lo hi' lo' : Nat} (v : Nat) (h : lo ≤ hi) (h31 : hi ≤ 31)
    (h31' : hi' ≤ 31) (d : hi' < lo ∨ hi < lo') : bits (setBits w hi lo v) hi' lo' = bits w hi' lo' := by
  apply Nat.eq_of_testBit_eq
  intro j
  rw [bits_testBit, bits_testBit]
  by_cases hj : j < hi' + 1 - lo'
  · rw [setBits_getLsbD w v h h31 _ (by omega), if_neg (by omega)]
  · simp [hj]

/-- A field is smaller than its width allows. -/
theorem bits_lt (w : Word) (hi lo : Nat) : bits w hi lo < 2 ^ (hi + 1 - lo) := Nat.mod_lt _ (Nat.two_pow_pos _)

end Sys2Proof.Machine
end

