-- ==== Sys2Proof/Laws/Bytes.lean ====
section
/-! SUPPORT. Byte strings: their lengths, the field that stands where it was put, numbers that come back from their bytes,
and the modes of AES that undo themselves. -/

namespace Sys2Proof.Machine

open Sys2Proof

/-! ## Lengths -/

/-- Padded bytes have the length asked for. -/
@[simp] theorem padTo_length (n : Nat) (bs : List Nat) : (padTo n bs).length = n := by
  simp [padTo]

/-- A field of a byte string has the length asked for. -/
@[simp] theorem bytesAt_length (bs : List Nat) (off n : Nat) : (bytesAt bs off n).length = n := padTo_length _ _

/-- A number as bytes has the length asked for. -/
@[simp] theorem beBytes_length (n v : Nat) : (beBytes n v).length = n := by simp [beBytes]

/-- A number as bytes, least byte first, has the length asked for. -/
@[simp] theorem leBytes_length (n v : Nat) : (leBytes n v).length = n := by simp [leBytes]

/-- A field has its length in bytes. -/
@[simp] theorem fldBytes_length (f : Fld) : (fldBytes f).length = f.1 := by simp [fldBytes]

/-- A CRC adds 4 bytes. -/
@[simp] theorem withCrc_length (bs : List Nat) : (withCrc bs).length = bs.length + 4 := by simp [withCrc]

/-- A digest has the length of its function. -/
@[simp] theorem sha2_length (bits : Nat) (data : List Nat) : (sha2 bits data).length = bits / 8 := padTo_length _ _
@[simp] theorem sha3_length (bits : Nat) (data : List Nat) : (sha3 bits data).length = bits / 8 := padTo_length _ _
@[simp] theorem kmac_length (key data : List Nat) (bits : Nat) (c : String) : (kmac key data bits c).length = bits / 8 :=
  padTo_length _ _

/-! ## Fields -/

/-- Bytes of the length asked for need no padding. -/
theorem padTo_eq {n : Nat} {bs : List Nat} (h : bs.length = n) : padTo n bs = bs := by
  rw [padTo, List.take_append_of_le_length (Nat.le_of_eq h.symm), List.take_of_length_le (Nat.le_of_eq h)]

/-- A field stands where it was put. -/
theorem bytesAt_append {a b c : List Nat} {off n : Nat} (ha : a.length = off) (hb : b.length = n) :
    bytesAt (a ++ b ++ c) off n = b := by
  rw [bytesAt, List.append_assoc, List.drop_append_of_le_length (Nat.le_of_eq ha.symm),
    List.drop_of_length_le (Nat.le_of_eq ha), List.nil_append, padTo, List.append_assoc,
    List.take_append_of_le_length (Nat.le_of_eq hb.symm), List.take_of_length_le (Nat.le_of_eq hb)]

/-! ## Numbers -/

theorem beBytes_succ (n v : Nat) : beBytes (n + 1) v = beBytes n (v / 256) ++ [v % 256] := by
  rw [beBytes, List.range_succ, List.map_append, beBytes]
  congr 1
  · refine List.map_congr_left fun i hi => ?_
    have := List.mem_range.1 hi
    rw [show n + 1 - 1 - i = n - 1 - i + 1 by omega, Nat.pow_succ, Nat.mul_comm, Nat.div_div_eq_div_mul]
  · simp

/-- A number comes back from its bytes, as far as they reach. -/
@[simp] theorem beNat_beBytes (n v : Nat) : beNat (beBytes n v) = v % 256 ^ n := by
  induction n generalizing v with
  | zero => simp [beBytes, beNat, Nat.mod_one]
  | succ n ih =>
    have h := ih (v / 256)
    unfold beNat at h ⊢
    rw [beBytes_succ, List.foldl_append, List.foldl_cons, List.foldl_nil, h, Nat.pow_succ, Nat.mul_comm (256 ^ n),
      Nat.mod_mul, Nat.mod_mod]
    omega

/-- The two byte orders are each other's reverse. -/
theorem leBytes_reverse (n v : Nat) : (leBytes n v).reverse = beBytes n v := by
  induction n generalizing v with
  | zero => rfl
  | succ n ih =>
    rw [beBytes_succ, ← ih, leBytes, List.range_succ_eq_map, List.map_cons, List.reverse_cons, List.map_map]
    congr 2
    · refine List.map_congr_left fun i _ => ?_
      show v / 256 ^ (i + 1) % 256 = v / 256 / 256 ^ i % 256
      rw [Nat.pow_succ, Nat.mul_comm, Nat.div_div_eq_div_mul]
    · simp

/-- A number comes back from its bytes, least byte first, as far as they reach. -/
@[simp] theorem leNat_leBytes (n v : Nat) : leNat (leBytes n v) = v % 256 ^ n := by
  rw [leNat, leBytes_reverse, beNat_beBytes]

/-! ## Modes that undo themselves -/

theorem zipIdx_xor_xor (f : Nat → Nat) (ws : List Nat) :
    ((ws.zipIdx.map fun p => p.1 ^^^ f p.2).zipIdx.map fun p => p.1 ^^^ f p.2) = ws := by
  refine List.ext_getElem (by simp) fun i h1 h2 => ?_
  simp [Nat.xor_assoc]

/-- Encrypting twice under GCM is nothing. -/
@[simp] theorem gcmCrypt_gcmCrypt (key : List Nat) (iv i : Nat) (ws : List Nat) :
    gcmCrypt key iv i (gcmCrypt key iv i ws) = ws :=
  zipIdx_xor_xor (fun j => gcmStream key iv (i + j)) ws

/-- Encrypting twice under SIV is nothing. -/
@[simp] theorem sivCrypt_sivCrypt (key : List Nat) (v : Nat) (ws : List Nat) :
    sivCrypt key v (sivCrypt key v ws) = ws :=
  zipIdx_xor_xor (fun j => aes (key.drop 32) (((v &&& (2 ^ 128 - 1 - 2 ^ 63 - 2 ^ 31)) + j) % 2 ^ 128)) ws

end Sys2Proof.Machine
end

