-- ==== Sys2Proof/Laws/State.lean ====
section
/-! SUPPORT. The state by its fields: what the named updates of `Machine/Ops.lean` and `Machine/BoardOps.lean` set, and
that they leave every other field alone. -/

namespace Sys2Proof.Machine

open Sys2Proof

/-! ## The two halves -/

@[simp] theorem Half.other_other (h : Half) : h.other.other = h := by cases h <;> rfl
@[simp] theorem Half.other_ne (h : Half) : h.other ≠ h := by cases h <;> decide
@[simp] theorem Half.ne_other (h : Half) : h ≠ h.other := by cases h <;> decide

/-- A half is this one or the other one. -/
theorem Half.eq_or_other (h k : Half) : k = h ∨ k = h.other := by cases h <;> cases k <;> simp [Half.other]

@[simp] theorem half_setHalf (s : State) (h : Half) (x : HState) : (s.setHalf h x).half h = x := by cases h <;> rfl
@[simp] theorem half_setHalf_other (s : State) (h : Half) (x : HState) : (s.setHalf h x).half h.other = s.half h.other := by
  cases h <;> rfl
@[simp] theorem half_other_setHalf (s : State) (h : Half) (x : HState) : (s.setHalf h.other x).half h = s.half h := by
  cases h <;> rfl
@[simp] theorem setHalf_setHalf (s : State) (h : Half) (x y : HState) : (s.setHalf h x).setHalf h y = s.setHalf h y := by
  cases h <;> rfl
@[simp] theorem setHalf_half (s : State) (h : Half) : s.setHalf h (s.half h) = s := by cases h <;> rfl

/-- The half that a replacement does not name is as it was. -/
theorem half_setHalf_of_ne (s : State) {h k : Half} (x : HState) (n : k ≠ h) : (s.setHalf h x).half k = s.half k := by
  cases h <;> cases k <;> first | rfl | exact absurd rfl n

/-- Replacements of the two halves commute. -/
theorem setHalf_comm (s : State) (h : Half) (x y : HState) :
    (s.setHalf h x).setHalf h.other y = (s.setHalf h.other y).setHalf h x := by cases h <;> rfl

@[simp] theorem half_modHalf (s : State) (h : Half) (f : HState → HState) : (s.modHalf h f).half h = f (s.half h) := by
  simp [State.modHalf]
@[simp] theorem half_modHalf_other (s : State) (h : Half) (f : HState → HState) :
    (s.modHalf h f).half h.other = s.half h.other := by simp [State.modHalf]
@[simp] theorem modHalf_modHalf (s : State) (h : Half) (f g : HState → HState) :
    (s.modHalf h f).modHalf h g = s.modHalf h fun x => g (f x) := by simp [State.modHalf]
@[simp] theorem modHalf_id (s : State) (h : Half) : (s.modHalf h fun x => x) = s := by simp [State.modHalf]
@[simp] theorem img_modHalf (s : State) (h : Half) (f : HState → HState) : (s.modHalf h f).img h = (f (s.half h)).img := by
  simp [State.img]
@[simp] theorem img_setHalf (s : State) (h : Half) (x : HState) : (s.setHalf h x).img h = x.img := by simp [State.img]
@[simp] theorem img_modImg (s : State) (h : Half) (f : Image → Image) : (s.modImg h f).img h = f (s.img h) := by
  simp [State.modImg, State.img]
@[simp] theorem img_modImg_other (s : State) (h : Half) (f : Image → Image) : (s.modImg h f).img h.other = s.img h.other := by
  simp [State.modImg, State.img]
@[simp] theorem half_modImg (s : State) (h : Half) (f : Image → Image) :
    (s.modImg h f).half h = { s.half h with img := f (s.half h).img } := by simp [State.modImg]
@[simp] theorem half_modImg_other (s : State) (h : Half) (f : Image → Image) :
    (s.modImg h f).half h.other = s.half h.other := by simp [State.modImg]
@[simp] theorem half_modHelm (s : State) (h : Half) (f : Helm → Helm) :
    (s.modHelm h f).half h = { s.half h with helm := f (s.half h).helm } := by simp [State.modHelm]
@[simp] theorem half_modHelm_other (s : State) (h : Half) (f : Helm → Helm) :
    (s.modHelm h f).half h.other = s.half h.other := by simp [State.modHelm]
@[simp] theorem img_modHelm (s : State) (h : Half) (f : Helm → Helm) : (s.modHelm h f).img h = s.img h := by
  simp [State.img]

/-! ## A change of a half leaves every field outside the halves -/

@[simp] theorem setHalf_pending (s : State) (h : Half) (x : HState) : (s.setHalf h x).pending = s.pending := by cases h <;> rfl
@[simp] theorem setHalf_now (s : State) (h : Half) (x : HState) : (s.setHalf h x).now = s.now := by cases h <;> rfl
@[simp] theorem setHalf_fv (s : State) (h : Half) (x : HState) : (s.setHalf h x).fv = s.fv := by cases h <;> rfl
@[simp] theorem setHalf_phase (s : State) (h : Half) (x : HState) : (s.setHalf h x).phase = s.phase := by cases h <;> rfl
@[simp] theorem setHalf_flash (s : State) (h : Half) (x : HState) : (s.setHalf h x).flash = s.flash := by cases h <;> rfl
@[simp] theorem setHalf_tam (s : State) (h : Half) (x : HState) : (s.setHalf h x).tam = s.tam := by cases h <;> rfl
@[simp] theorem setHalf_modRegs (s : State) (h : Half) (x : HState) : (s.setHalf h x).modRegs = s.modRegs := by cases h <;> rfl
@[simp] theorem setHalf_board (s : State) (h : Half) (x : HState) : (s.setHalf h x).board = s.board := by cases h <;> rfl
@[simp] theorem setHalf_slips (s : State) (h : Half) (x : HState) : (s.setHalf h x).slips = s.slips := by cases h <;> rfl
@[simp] theorem setHalf_lastState (s : State) (h : Half) (x : HState) : (s.setHalf h x).lastState = s.lastState := by cases h <;> rfl
@[simp] theorem setHalf_cfgDefaulted (s : State) (h : Half) (x : HState) : (s.setHalf h x).cfgDefaulted = s.cfgDefaulted := by cases h <;> rfl
@[simp] theorem setHalf_carried (s : State) (h : Half) (x : HState) : (s.setHalf h x).carried = s.carried := by cases h <;> rfl
@[simp] theorem setHalf_out (s : State) (h : Half) (x : HState) : (s.setHalf h x).out = s.out := by cases h <;> rfl
@[simp] theorem setHalf_host (s : State) (h : Half) (x : HState) : (s.setHalf h x).host = s.host := by cases h <;> rfl
@[simp] theorem setHalf_rings (s : State) (h : Half) (x : HState) : (s.setHalf h x).rings = s.rings := by cases h <;> rfl
@[simp] theorem setHalf_descs (s : State) (h : Half) (x : HState) : (s.setHalf h x).descs = s.descs := by cases h <;> rfl
@[simp] theorem setHalf_descEnd (s : State) (h : Half) (x : HState) : (s.setHalf h x).descEnd = s.descEnd := by cases h <;> rfl

@[simp] theorem modHalf_pending (s : State) (h : Half) (f : HState → HState) : (s.modHalf h f).pending = s.pending := by cases h <;> rfl
@[simp] theorem modHalf_now (s : State) (h : Half) (f : HState → HState) : (s.modHalf h f).now = s.now := by cases h <;> rfl
@[simp] theorem modHalf_fv (s : State) (h : Half) (f : HState → HState) : (s.modHalf h f).fv = s.fv := by cases h <;> rfl
@[simp] theorem modHalf_phase (s : State) (h : Half) (f : HState → HState) : (s.modHalf h f).phase = s.phase := by cases h <;> rfl
@[simp] theorem modHalf_flash (s : State) (h : Half) (f : HState → HState) : (s.modHalf h f).flash = s.flash := by cases h <;> rfl
@[simp] theorem modHalf_tam (s : State) (h : Half) (f : HState → HState) : (s.modHalf h f).tam = s.tam := by cases h <;> rfl
@[simp] theorem modHalf_modRegs (s : State) (h : Half) (f : HState → HState) : (s.modHalf h f).modRegs = s.modRegs := by cases h <;> rfl
@[simp] theorem modHalf_board (s : State) (h : Half) (f : HState → HState) : (s.modHalf h f).board = s.board := by cases h <;> rfl
@[simp] theorem modHalf_slips (s : State) (h : Half) (f : HState → HState) : (s.modHalf h f).slips = s.slips := by cases h <;> rfl
@[simp] theorem modHalf_lastState (s : State) (h : Half) (f : HState → HState) : (s.modHalf h f).lastState = s.lastState := by cases h <;> rfl
@[simp] theorem modHalf_cfgDefaulted (s : State) (h : Half) (f : HState → HState) : (s.modHalf h f).cfgDefaulted = s.cfgDefaulted := by cases h <;> rfl
@[simp] theorem modHalf_carried (s : State) (h : Half) (f : HState → HState) : (s.modHalf h f).carried = s.carried := by cases h <;> rfl
@[simp] theorem modHalf_out (s : State) (h : Half) (f : HState → HState) : (s.modHalf h f).out = s.out := by cases h <;> rfl
@[simp] theorem modHalf_host (s : State) (h : Half) (f : HState → HState) : (s.modHalf h f).host = s.host := by cases h <;> rfl
@[simp] theorem modHalf_rings (s : State) (h : Half) (f : HState → HState) : (s.modHalf h f).rings = s.rings := by cases h <;> rfl
@[simp] theorem modHalf_descs (s : State) (h : Half) (f : HState → HState) : (s.modHalf h f).descs = s.descs := by cases h <;> rfl
@[simp] theorem modHalf_descEnd (s : State) (h : Half) (f : HState → HState) : (s.modHalf h f).descEnd = s.descEnd := by cases h <;> rfl

@[simp] theorem modImg_pending (s : State) (h : Half) (f : Image → Image) : (s.modImg h f).pending = s.pending := by cases h <;> rfl
@[simp] theorem modImg_now (s : State) (h : Half) (f : Image → Image) : (s.modImg h f).now = s.now := by cases h <;> rfl
@[simp] theorem modImg_fv (s : State) (h : Half) (f : Image → Image) : (s.modImg h f).fv = s.fv := by cases h <;> rfl
@[simp] theorem modImg_phase (s : State) (h : Half) (f : Image → Image) : (s.modImg h f).phase = s.phase := by cases h <;> rfl
@[simp] theorem modImg_flash (s : State) (h : Half) (f : Image → Image) : (s.modImg h f).flash = s.flash := by cases h <;> rfl
@[simp] theorem modImg_tam (s : State) (h : Half) (f : Image → Image) : (s.modImg h f).tam = s.tam := by cases h <;> rfl
@[simp] theorem modImg_modRegs (s : State) (h : Half) (f : Image → Image) : (s.modImg h f).modRegs = s.modRegs := by cases h <;> rfl
@[simp] theorem modImg_board (s : State) (h : Half) (f : Image → Image) : (s.modImg h f).board = s.board := by cases h <;> rfl
@[simp] theorem modImg_slips (s : State) (h : Half) (f : Image → Image) : (s.modImg h f).slips = s.slips := by cases h <;> rfl
@[simp] theorem modImg_lastState (s : State) (h : Half) (f : Image → Image) : (s.modImg h f).lastState = s.lastState := by cases h <;> rfl
@[simp] theorem modImg_cfgDefaulted (s : State) (h : Half) (f : Image → Image) : (s.modImg h f).cfgDefaulted = s.cfgDefaulted := by cases h <;> rfl
@[simp] theorem modImg_carried (s : State) (h : Half) (f : Image → Image) : (s.modImg h f).carried = s.carried := by cases h <;> rfl
@[simp] theorem modImg_out (s : State) (h : Half) (f : Image → Image) : (s.modImg h f).out = s.out := by cases h <;> rfl
@[simp] theorem modImg_host (s : State) (h : Half) (f : Image → Image) : (s.modImg h f).host = s.host := by cases h <;> rfl
@[simp] theorem modImg_rings (s : State) (h : Half) (f : Image → Image) : (s.modImg h f).rings = s.rings := by cases h <;> rfl
@[simp] theorem modImg_descs (s : State) (h : Half) (f : Image → Image) : (s.modImg h f).descs = s.descs := by cases h <;> rfl
@[simp] theorem modImg_descEnd (s : State) (h : Half) (f : Image → Image) : (s.modImg h f).descEnd = s.descEnd := by cases h <;> rfl

@[simp] theorem modHelm_pending (s : State) (h : Half) (f : Helm → Helm) : (s.modHelm h f).pending = s.pending := by cases h <;> rfl
@[simp] theorem modHelm_now (s : State) (h : Half) (f : Helm → Helm) : (s.modHelm h f).now = s.now := by cases h <;> rfl
@[simp] theorem modHelm_fv (s : State) (h : Half) (f : Helm → Helm) : (s.modHelm h f).fv = s.fv := by cases h <;> rfl
@[simp] theorem modHelm_phase (s : State) (h : Half) (f : Helm → Helm) : (s.modHelm h f).phase = s.phase := by cases h <;> rfl
@[simp] theorem modHelm_flash (s : State) (h : Half) (f : Helm → Helm) : (s.modHelm h f).flash = s.flash := by cases h <;> rfl
@[simp] theorem modHelm_tam (s : State) (h : Half) (f : Helm → Helm) : (s.modHelm h f).tam = s.tam := by cases h <;> rfl
@[simp] theorem modHelm_modRegs (s : State) (h : Half) (f : Helm → Helm) : (s.modHelm h f).modRegs = s.modRegs := by cases h <;> rfl
@[simp] theorem modHelm_board (s : State) (h : Half) (f : Helm → Helm) : (s.modHelm h f).board = s.board := by cases h <;> rfl
@[simp] theorem modHelm_slips (s : State) (h : Half) (f : Helm → Helm) : (s.modHelm h f).slips = s.slips := by cases h <;> rfl
@[simp] theorem modHelm_lastState (s : State) (h : Half) (f : Helm → Helm) : (s.modHelm h f).lastState = s.lastState := by cases h <;> rfl
@[simp] theorem modHelm_cfgDefaulted (s : State) (h : Half) (f : Helm → Helm) : (s.modHelm h f).cfgDefaulted = s.cfgDefaulted := by cases h <;> rfl
@[simp] theorem modHelm_carried (s : State) (h : Half) (f : Helm → Helm) : (s.modHelm h f).carried = s.carried := by cases h <;> rfl
@[simp] theorem modHelm_out (s : State) (h : Half) (f : Helm → Helm) : (s.modHelm h f).out = s.out := by cases h <;> rfl
@[simp] theorem modHelm_host (s : State) (h : Half) (f : Helm → Helm) : (s.modHelm h f).host = s.host := by cases h <;> rfl
@[simp] theorem modHelm_rings (s : State) (h : Half) (f : Helm → Helm) : (s.modHelm h f).rings = s.rings := by cases h <;> rfl
@[simp] theorem modHelm_descs (s : State) (h : Half) (f : Helm → Helm) : (s.modHelm h f).descs = s.descs := by cases h <;> rfl
@[simp] theorem modHelm_descEnd (s : State) (h : Half) (f : Helm → Helm) : (s.modHelm h f).descEnd = s.descEnd := by cases h <;> rfl

/-! ## Other named updates -/

@[simp] theorem emit_out (s : State) (o : Out) : (s.emit o).out = s.out ++ [o] := rfl
@[simp] theorem emit_pending (s : State) (o : Out) : (s.emit o).pending = s.pending := rfl
@[simp] theorem emit_now (s : State) (o : Out) : (s.emit o).now = s.now := rfl
@[simp] theorem emit_fv (s : State) (o : Out) : (s.emit o).fv = s.fv := rfl
@[simp] theorem emit_phase (s : State) (o : Out) : (s.emit o).phase = s.phase := rfl
@[simp] theorem emit_flash (s : State) (o : Out) : (s.emit o).flash = s.flash := rfl
@[simp] theorem emit_tam (s : State) (o : Out) : (s.emit o).tam = s.tam := rfl
@[simp] theorem emit_modRegs (s : State) (o : Out) : (s.emit o).modRegs = s.modRegs := rfl
@[simp] theorem emit_board (s : State) (o : Out) : (s.emit o).board = s.board := rfl
@[simp] theorem emit_slips (s : State) (o : Out) : (s.emit o).slips = s.slips := rfl
@[simp] theorem emit_lastState (s : State) (o : Out) : (s.emit o).lastState = s.lastState := rfl
@[simp] theorem emit_cfgDefaulted (s : State) (o : Out) : (s.emit o).cfgDefaulted = s.cfgDefaulted := rfl
@[simp] theorem emit_carried (s : State) (o : Out) : (s.emit o).carried = s.carried := rfl
@[simp] theorem emit_host (s : State) (o : Out) : (s.emit o).host = s.host := rfl
@[simp] theorem emit_rings (s : State) (o : Out) : (s.emit o).rings = s.rings := rfl
@[simp] theorem emit_descs (s : State) (o : Out) : (s.emit o).descs = s.descs := rfl
@[simp] theorem emit_descEnd (s : State) (o : Out) : (s.emit o).descEnd = s.descEnd := rfl
@[simp] theorem emit_a (s : State) (o : Out) : (s.emit o).a = s.a := rfl
@[simp] theorem emit_b (s : State) (o : Out) : (s.emit o).b = s.b := rfl
@[simp] theorem emit_half (s : State) (o : Out) (h : Half) : (s.emit o).half h = s.half h := by cases h <;> rfl
@[simp] theorem emit_img (s : State) (o : Out) (h : Half) : (s.emit o).img h = s.img h := by cases h <;> rfl

@[simp] theorem draw_fst (s : State) : s.draw.1 = Config.freeNat s.fv := rfl
@[simp] theorem draw_snd (s : State) : s.draw.2 = { s with fv := s.fv + 1 } := rfl

@[simp] theorem modBoard_board (s : State) (f : Board → Board) : (s.modBoard f).board = f s.board := rfl
@[simp] theorem modBoard_pending (s : State) (f : Board → Board) : (s.modBoard f).pending = s.pending := rfl
@[simp] theorem modBoard_now (s : State) (f : Board → Board) : (s.modBoard f).now = s.now := rfl
@[simp] theorem modBoard_fv (s : State) (f : Board → Board) : (s.modBoard f).fv = s.fv := rfl
@[simp] theorem modBoard_phase (s : State) (f : Board → Board) : (s.modBoard f).phase = s.phase := rfl
@[simp] theorem modBoard_flash (s : State) (f : Board → Board) : (s.modBoard f).flash = s.flash := rfl
@[simp] theorem modBoard_tam (s : State) (f : Board → Board) : (s.modBoard f).tam = s.tam := rfl
@[simp] theorem modBoard_modRegs (s : State) (f : Board → Board) : (s.modBoard f).modRegs = s.modRegs := rfl
@[simp] theorem modBoard_slips (s : State) (f : Board → Board) : (s.modBoard f).slips = s.slips := rfl
@[simp] theorem modBoard_lastState (s : State) (f : Board → Board) : (s.modBoard f).lastState = s.lastState := rfl
@[simp] theorem modBoard_cfgDefaulted (s : State) (f : Board → Board) : (s.modBoard f).cfgDefaulted = s.cfgDefaulted := rfl
@[simp] theorem modBoard_carried (s : State) (f : Board → Board) : (s.modBoard f).carried = s.carried := rfl
@[simp] theorem modBoard_out (s : State) (f : Board → Board) : (s.modBoard f).out = s.out := rfl
@[simp] theorem modBoard_host (s : State) (f : Board → Board) : (s.modBoard f).host = s.host := rfl
@[simp] theorem modBoard_rings (s : State) (f : Board → Board) : (s.modBoard f).rings = s.rings := rfl
@[simp] theorem modBoard_descs (s : State) (f : Board → Board) : (s.modBoard f).descs = s.descs := rfl
@[simp] theorem modBoard_descEnd (s : State) (f : Board → Board) : (s.modBoard f).descEnd = s.descEnd := rfl
@[simp] theorem modBoard_a (s : State) (f : Board → Board) : (s.modBoard f).a = s.a := rfl
@[simp] theorem modBoard_b (s : State) (f : Board → Board) : (s.modBoard f).b = s.b := rfl
@[simp] theorem modBoard_half (s : State) (f : Board → Board) (h : Half) : (s.modBoard f).half h = s.half h := by cases h <;> rfl
@[simp] theorem modBoard_img (s : State) (f : Board → Board) (h : Half) : (s.modBoard f).img h = s.img h := by cases h <;> rfl

@[simp] theorem modTam_tam (s : State) (f : Tamper → Tamper) : (s.modTam f).tam = f s.tam := rfl
@[simp] theorem modTam_pending (s : State) (f : Tamper → Tamper) : (s.modTam f).pending = s.pending := rfl
@[simp] theorem modTam_now (s : State) (f : Tamper → Tamper) : (s.modTam f).now = s.now := rfl
@[simp] theorem modTam_fv (s : State) (f : Tamper → Tamper) : (s.modTam f).fv = s.fv := rfl
@[simp] theorem modTam_phase (s : State) (f : Tamper → Tamper) : (s.modTam f).phase = s.phase := rfl
@[simp] theorem modTam_flash (s : State) (f : Tamper → Tamper) : (s.modTam f).flash = s.flash := rfl
@[simp] theorem modTam_modRegs (s : State) (f : Tamper → Tamper) : (s.modTam f).modRegs = s.modRegs := rfl
@[simp] theorem modTam_board (s : State) (f : Tamper → Tamper) : (s.modTam f).board = s.board := rfl
@[simp] theorem modTam_slips (s : State) (f : Tamper → Tamper) : (s.modTam f).slips = s.slips := rfl
@[simp] theorem modTam_lastState (s : State) (f : Tamper → Tamper) : (s.modTam f).lastState = s.lastState := rfl
@[simp] theorem modTam_cfgDefaulted (s : State) (f : Tamper → Tamper) : (s.modTam f).cfgDefaulted = s.cfgDefaulted := rfl
@[simp] theorem modTam_carried (s : State) (f : Tamper → Tamper) : (s.modTam f).carried = s.carried := rfl
@[simp] theorem modTam_out (s : State) (f : Tamper → Tamper) : (s.modTam f).out = s.out := rfl
@[simp] theorem modTam_host (s : State) (f : Tamper → Tamper) : (s.modTam f).host = s.host := rfl
@[simp] theorem modTam_rings (s : State) (f : Tamper → Tamper) : (s.modTam f).rings = s.rings := rfl
@[simp] theorem modTam_descs (s : State) (f : Tamper → Tamper) : (s.modTam f).descs = s.descs := rfl
@[simp] theorem modTam_descEnd (s : State) (f : Tamper → Tamper) : (s.modTam f).descEnd = s.descEnd := rfl
@[simp] theorem modTam_a (s : State) (f : Tamper → Tamper) : (s.modTam f).a = s.a := rfl
@[simp] theorem modTam_b (s : State) (f : Tamper → Tamper) : (s.modTam f).b = s.b := rfl
@[simp] theorem modTam_half (s : State) (f : Tamper → Tamper) (h : Half) : (s.modTam f).half h = s.half h := by cases h <;> rfl
@[simp] theorem modTam_img (s : State) (f : Tamper → Tamper) (h : Half) : (s.modTam f).img h = s.img h := by cases h <;> rfl

@[simp] theorem setModReg_modRegs (s : State) (off : Nat) (w : Word) :
    (s.setModReg off w).modRegs = tabSet 0 s.modRegs off (w ^^^ resetWord off) := rfl
@[simp] theorem setModReg_pending (s : State) (off : Nat) (w : Word) : (s.setModReg off w).pending = s.pending := rfl
@[simp] theorem setModReg_now (s : State) (off : Nat) (w : Word) : (s.setModReg off w).now = s.now := rfl
@[simp] theorem setModReg_fv (s : State) (off : Nat) (w : Word) : (s.setModReg off w).fv = s.fv := rfl
@[simp] theorem setModReg_phase (s : State) (off : Nat) (w : Word) : (s.setModReg off w).phase = s.phase := rfl
@[simp] theorem setModReg_flash (s : State) (off : Nat) (w : Word) : (s.setModReg off w).flash = s.flash := rfl
@[simp] theorem setModReg_tam (s : State) (off : Nat) (w : Word) : (s.setModReg off w).tam = s.tam := rfl
@[simp] theorem setModReg_board (s : State) (off : Nat) (w : Word) : (s.setModReg off w).board = s.board := rfl
@[simp] theorem setModReg_slips (s : State) (off : Nat) (w : Word) : (s.setModReg off w).slips = s.slips := rfl
@[simp] theorem setModReg_lastState (s : State) (off : Nat) (w : Word) : (s.setModReg off w).lastState = s.lastState := rfl
@[simp] theorem setModReg_cfgDefaulted (s : State) (off : Nat) (w : Word) : (s.setModReg off w).cfgDefaulted = s.cfgDefaulted := rfl
@[simp] theorem setModReg_carried (s : State) (off : Nat) (w : Word) : (s.setModReg off w).carried = s.carried := rfl
@[simp] theorem setModReg_out (s : State) (off : Nat) (w : Word) : (s.setModReg off w).out = s.out := rfl
@[simp] theorem setModReg_host (s : State) (off : Nat) (w : Word) : (s.setModReg off w).host = s.host := rfl
@[simp] theorem setModReg_rings (s : State) (off : Nat) (w : Word) : (s.setModReg off w).rings = s.rings := rfl
@[simp] theorem setModReg_descs (s : State) (off : Nat) (w : Word) : (s.setModReg off w).descs = s.descs := rfl
@[simp] theorem setModReg_descEnd (s : State) (off : Nat) (w : Word) : (s.setModReg off w).descEnd = s.descEnd := rfl
@[simp] theorem setModReg_a (s : State) (off : Nat) (w : Word) : (s.setModReg off w).a = s.a := rfl
@[simp] theorem setModReg_b (s : State) (off : Nat) (w : Word) : (s.setModReg off w).b = s.b := rfl
@[simp] theorem setModReg_half (s : State) (off : Nat) (w : Word) (h : Half) : (s.setModReg off w).half h = s.half h := by cases h <;> rfl
@[simp] theorem setModReg_img (s : State) (off : Nat) (w : Word) (h : Half) : (s.setModReg off w).img h = s.img h := by cases h <;> rfl

@[simp] theorem setCage_cages (s : State) (c : Nat) (v : Cage) :
    (s.setCage c v).board = { s.board with cages := tabSet {} s.board.cages c v } := rfl
@[simp] theorem setCage_pending (s : State) (c : Nat) (v : Cage) : (s.setCage c v).pending = s.pending := rfl
@[simp] theorem setCage_now (s : State) (c : Nat) (v : Cage) : (s.setCage c v).now = s.now := rfl
@[simp] theorem setCage_fv (s : State) (c : Nat) (v : Cage) : (s.setCage c v).fv = s.fv := rfl
@[simp] theorem setCage_phase (s : State) (c : Nat) (v : Cage) : (s.setCage c v).phase = s.phase := rfl
@[simp] theorem setCage_flash (s : State) (c : Nat) (v : Cage) : (s.setCage c v).flash = s.flash := rfl
@[simp] theorem setCage_tam (s : State) (c : Nat) (v : Cage) : (s.setCage c v).tam = s.tam := rfl
@[simp] theorem setCage_modRegs (s : State) (c : Nat) (v : Cage) : (s.setCage c v).modRegs = s.modRegs := rfl
@[simp] theorem setCage_slips (s : State) (c : Nat) (v : Cage) : (s.setCage c v).slips = s.slips := rfl
@[simp] theorem setCage_lastState (s : State) (c : Nat) (v : Cage) : (s.setCage c v).lastState = s.lastState := rfl
@[simp] theorem setCage_cfgDefaulted (s : State) (c : Nat) (v : Cage) : (s.setCage c v).cfgDefaulted = s.cfgDefaulted := rfl
@[simp] theorem setCage_carried (s : State) (c : Nat) (v : Cage) : (s.setCage c v).carried = s.carried := rfl
@[simp] theorem setCage_out (s : State) (c : Nat) (v : Cage) : (s.setCage c v).out = s.out := rfl
@[simp] theorem setCage_host (s : State) (c : Nat) (v : Cage) : (s.setCage c v).host = s.host := rfl
@[simp] theorem setCage_rings (s : State) (c : Nat) (v : Cage) : (s.setCage c v).rings = s.rings := rfl
@[simp] theorem setCage_descs (s : State) (c : Nat) (v : Cage) : (s.setCage c v).descs = s.descs := rfl
@[simp] theorem setCage_descEnd (s : State) (c : Nat) (v : Cage) : (s.setCage c v).descEnd = s.descEnd := rfl
@[simp] theorem setCage_a (s : State) (c : Nat) (v : Cage) : (s.setCage c v).a = s.a := rfl
@[simp] theorem setCage_b (s : State) (c : Nat) (v : Cage) : (s.setCage c v).b = s.b := rfl
@[simp] theorem setCage_half (s : State) (c : Nat) (v : Cage) (h : Half) : (s.setCage c v).half h = s.half h := by cases h <;> rfl
@[simp] theorem setCage_img (s : State) (c : Nat) (v : Cage) (h : Half) : (s.setCage c v).img h = s.img h := by cases h <;> rfl

end Sys2Proof.Machine
end

