-- ==== Sys2Proof/Laws/Command.lean ====
section
/-! SUPPORT. The shared run of a command: everything that `State.command` can do, said once. -/

namespace Sys2Proof.Machine

open Sys2Proof

/-- No failure applies. -/
theorem lowest_eq_none {fails : List (Bool × Nat)} (h : ∀ p ∈ fails, p.1 = false) : lowest fails = none := by
  have e : fails.filter (·.1) = [] := List.filter_eq_nil_iff.mpr fun p m => by simp [h p m]
  simp [lowest, e]

@[simp] theorem lowest_nil : lowest [] = none := rfl
@[simp] theorem lowest_cons_false (st : Nat) (r : List (Bool × Nat)) : lowest ((false, st) :: r) = lowest r := by
  simp [lowest]
theorem lowest_cons_true (st : Nat) (r : List (Bool × Nat)) (h : ∀ p ∈ r, p.1 = true → st ≤ p.2) :
    lowest ((true, st) :: r) = some st := by
  have le : ∀ a ∈ (r.filter (·.1)).map (·.2), st ≤ a := by
    intro a m
    obtain ⟨p, hp, rfl⟩ := List.mem_map.mp m
    obtain ⟨m, t⟩ := List.mem_filter.mp hp
    exact h p m t
  simp only [lowest, List.filter_cons_of_pos, List.map_cons]
  exact List.min?_eq_some_iff.mpr ⟨List.mem_cons_self .., fun b m => by
    rcases List.mem_cons.mp m with rfl | m
    · exact Nat.le_refl _
    · exact le b m⟩

/-- Nobody executes: nothing happens. -/
theorem command_unserved {s : State} {h : Hdr} {op : Nat} {bad : Half → Bool} {fails : Half → List (Bool × Nat)}
    {act : Half → State → State} (e : s.executor h = none) : s.command h op bad fails act = s := by
  simp [State.command, e]

/-- Rung on the standby: turned away with FORWARDED. -/
theorem command_forwarded {s : State} {h : Hdr} {op : Nat} {bad : Half → Bool} {fails : Half → List (Bool × Nat)}
    {act : Half → State → State} {x : Half} (e : s.executor h = some x) (n : h.on ≠ x) :
    s.command h op bad fails act =
      s.postCpl x (cmdOf h op) (if wrongRing h op || bad x then stArgs else stNotHelm) cfForwarded [] := by
  simp [State.command, e, n]

/-- On the serving half and the right ring, with arguments in range and no failure, the command acts. -/
theorem command_acts {s : State} {h : Hdr} {op : Nat} {bad : Half → Bool} {fails : Half → List (Bool × Nat)}
    {act : Half → State → State} {x : Half} (e : s.executor h = some x) (o : h.on = x) (w : wrongRing h op = false)
    (b : bad x = false) (f : lowest (fails x) = none) : s.command h op bad fails act = act x s := by
  simp [State.command, e, o, w, b, f]

/-- Arguments out of range. -/
theorem command_args {s : State} {h : Hdr} {op : Nat} {bad : Half → Bool} {fails : Half → List (Bool × Nat)}
    {act : Half → State → State} {x : Half} (e : s.executor h = some x) (o : h.on = x)
    (b : (wrongRing h op || bad x) = true) (f : ∀ p ∈ fails x, p.1 = true → stArgs ≤ p.2) :
    s.command h op bad fails act = s.postCpl x (cmdOf h op) stArgs 0 [] := by
  simp only [State.command, e, o, b, lowest_cons_true stArgs (fails x) f]
  simp

/-- A failure: the command completes with the lowest status that applies. -/
theorem command_fails {s : State} {h : Hdr} {op : Nat} {bad : Half → Bool} {fails : Half → List (Bool × Nat)}
    {act : Half → State → State} {x : Half} {st : Nat} (e : s.executor h = some x) (o : h.on = x)
    (w : wrongRing h op = false) (b : bad x = false) (f : lowest (fails x) = some st) :
    s.command h op bad fails act = s.postCpl x (cmdOf h op) st 0 [] := by
  simp [State.command, e, o, w, b, f]

/-- All that a command can do: nothing, a completion without effect, or its act. -/
theorem command_cases (s : State) (h : Hdr) (op : Nat) (bad : Half → Bool) (fails : Half → List (Bool × Nat))
    (act : Half → State → State) :
    s.command h op bad fails act = s ∨
    (∃ x st cf, s.executor h = some x ∧ s.command h op bad fails act = s.postCpl x (cmdOf h op) st cf []) ∨
    (∃ x, s.executor h = some x ∧ h.on = x ∧ wrongRing h op = false ∧ bad x = false ∧ lowest (fails x) = none ∧
      s.command h op bad fails act = act x s) := by
  cases e : s.executor h with
  | none => exact .inl (command_unserved e)
  | some x =>
    by_cases o : h.on = x
    · cases f : lowest ((wrongRing h op || bad x, stArgs) :: fails x) with
      | some st => exact .inr (.inl ⟨x, st, 0, rfl, by simp [State.command, e, o, f]⟩)
      | none =>
        refine .inr (.inr ⟨x, rfl, o, ?_⟩)
        cases g : wrongRing h op || bad x with
        | true =>
          rw [g] at f
          simp [lowest] at f
        | false =>
          rw [g] at f
          simp only [Bool.or_eq_false_iff] at g
          exact ⟨g.1, g.2, by simpa using f, by simp [State.command, e, o, g.1, g.2, (by simpa using f : lowest (fails x) = none)]⟩
    · exact .inr (.inl ⟨x, _, _, rfl, command_forwarded e o⟩)

/-- The half that executes serves: the module runs, and that half holds the helm. -/
theorem executor_serves {s : State} {h : Hdr} {x : Half} (e : s.executor h = some x) :
    s.phase = .running ∧ s.holder = some x := by
  have eng : s.engineOf h = some x := by
    unfold State.executor at e
    split at e
    · rename_i y hy
      split at e
      · cases e
      · cases e; exact hy
    · cases e
  have srv : s.serving = some x := by
    unfold State.engineOf at eng
    split at eng
    · rename_i y hy
      split at eng
      · cases eng; exact hy
      · cases eng
    · cases eng
  unfold State.serving at srv
  split at srv
  · exact ⟨‹_›, srv⟩
  · cases srv

/-- The half that holds the helm is active. -/
theorem holder_active {s : State} {x : Half} (e : s.holder = some x) : s.isActive x = true := by
  unfold State.holder at e
  split at e
  · split at e
    · cases e; assumption
    · cases e
  · cases e

/-- The half that holds the helm claims it. -/
theorem holder_claims {s : State} {x : Half} (e : s.holder = some x) : (s.half x).helm.claim = true := by
  have o : s.obeyed = some x := by
    unfold State.holder at e
    split at e
    · rename_i y hy
      split at e
      · cases e; exact hy
      · cases e
    · cases e
  unfold State.obeyed at o
  cases x <;> simp only [State.half] <;> split at o <;>
    first | assumption | cases o

end Sys2Proof.Machine
end

