-- ==== Sys2Proof/Laws/Posts.lean ====
section
/-! SUPPORT. Posts, completions and waits: each changes the half that makes it, and of it the queue, the events to forward
or the waiting commands alone. -/

namespace Sys2Proof.Machine

open Sys2Proof

/-- What a post does: the queue of an active half or the events to forward of a standby, and nothing else. -/
theorem postEv_eq (s : State) (h : Half) (src : Src) (e : Ev) :
    ∃ q f, s.postEv h src e = s.modHalf h fun x => { x with queue := q, fwd := f } := by
  have g : ∀ x : HState, ∃ q f, (match x.helm.st with
      | .activePaired | .activeSolo => { x with queue := (mergeLevel e x.queue).getD (x.queue ++ [(src, .ev e)]) }
      | .inStep | .out | .relinquished => x.forward src e
      | .halted => x : HState) = { x with queue := q, fwd := f } := by
    intro x
    split
    · exact ⟨_, x.fwd, rfl⟩
    · exact ⟨_, x.fwd, rfl⟩
    · exact ⟨x.queue, _, rfl⟩
    · exact ⟨x.queue, _, rfl⟩
    · exact ⟨x.queue, _, rfl⟩
    · exact ⟨x.queue, x.fwd, rfl⟩
  obtain ⟨q, f, k⟩ := g (s.half h)
  exact ⟨q, f, congrArg (s.setHalf h) k⟩

/-- An event that is no level event joins the queue of an active half. -/
theorem post_active {s : State} {h : Half} (src : Src) (code : Nat) (p : List Fld) (r : Route)
    (a : (s.half h).helm.st = .activePaired ∨ (s.half h).helm.st = .activeSolo) :
    s.post h src code p r = s.modHalf h fun x => { x with queue := x.queue ++
      [(src, .ev { code, origin := h, absorbed := 0, payload := p, route := r, key := 0, times := (s.half h).times })] } := by
  have m : ∀ l : List (Src × Post), ∀ e : Ev, e.key = 0 → mergeLevel e l = none := by
    intro l e k
    induction l with
    | nil => rfl
    | cons q t ih =>
      obtain ⟨c, v⟩ := q
      cases v with
      | ev v => simp [mergeLevel, k, ih]
      | cpl v => simp [mergeLevel, ih]
      | due v => simp [mergeLevel, ih]
  refine congrArg (s.setHalf h) ?_
  rcases a with a | a <;> simp [a, m]

theorem postCpl_eq (s : State) (h : Half) (c : Cmd) (st cf : Nat) (r : List Fld) :
    s.postCpl h c st cf r = s.modHalf h fun x => { x with queue := x.queue ++
      [(Src.command, Post.cpl { op := c.op, fn := c.fn, table := c.table, half := h, status := st, tag := c.tag,
                                pos := c.pos, cflags := cf, result := r })] } := rfl

theorem done_eq (s : State) (x : Half) (h : Hdr) (op : Nat) (r : List Fld) :
    s.done x h op r = s.postCpl x (cmdOf h op) stDone 0 r := rfl

theorem wait_eq (s : State) (x : Half) (j : Job) :
    s.wait x j = s.modImg x fun im => { im with jobs := im.jobs ++ [j] } := rfl

@[simp] theorem postEv_pending (s : State) (h : Half) (src : Src) (e : Ev) : (s.postEv h src e).pending = s.pending := by obtain ⟨q, f, e⟩ := postEv_eq s h src e; rw [e]; simp
@[simp] theorem postEv_now (s : State) (h : Half) (src : Src) (e : Ev) : (s.postEv h src e).now = s.now := by obtain ⟨q, f, e⟩ := postEv_eq s h src e; rw [e]; simp
@[simp] theorem postEv_fv (s : State) (h : Half) (src : Src) (e : Ev) : (s.postEv h src e).fv = s.fv := by obtain ⟨q, f, e⟩ := postEv_eq s h src e; rw [e]; simp
@[simp] theorem postEv_phase (s : State) (h : Half) (src : Src) (e : Ev) : (s.postEv h src e).phase = s.phase := by obtain ⟨q, f, e⟩ := postEv_eq s h src e; rw [e]; simp
@[simp] theorem postEv_flash (s : State) (h : Half) (src : Src) (e : Ev) : (s.postEv h src e).flash = s.flash := by obtain ⟨q, f, e⟩ := postEv_eq s h src e; rw [e]; simp
@[simp] theorem postEv_tam (s : State) (h : Half) (src : Src) (e : Ev) : (s.postEv h src e).tam = s.tam := by obtain ⟨q, f, e⟩ := postEv_eq s h src e; rw [e]; simp
@[simp] theorem postEv_modRegs (s : State) (h : Half) (src : Src) (e : Ev) : (s.postEv h src e).modRegs = s.modRegs := by obtain ⟨q, f, e⟩ := postEv_eq s h src e; rw [e]; simp
@[simp] theorem postEv_board (s : State) (h : Half) (src : Src) (e : Ev) : (s.postEv h src e).board = s.board := by obtain ⟨q, f, e⟩ := postEv_eq s h src e; rw [e]; simp
@[simp] theorem postEv_slips (s : State) (h : Half) (src : Src) (e : Ev) : (s.postEv h src e).slips = s.slips := by obtain ⟨q, f, e⟩ := postEv_eq s h src e; rw [e]; simp
@[simp] theorem postEv_lastState (s : State) (h : Half) (src : Src) (e : Ev) : (s.postEv h src e).lastState = s.lastState := by obtain ⟨q, f, e⟩ := postEv_eq s h src e; rw [e]; simp
@[simp] theorem postEv_cfgDefaulted (s : State) (h : Half) (src : Src) (e : Ev) : (s.postEv h src e).cfgDefaulted = s.cfgDefaulted := by obtain ⟨q, f, e⟩ := postEv_eq s h src e; rw [e]; simp
@[simp] theorem postEv_carried (s : State) (h : Half) (src : Src) (e : Ev) : (s.postEv h src e).carried = s.carried := by obtain ⟨q, f, e⟩ := postEv_eq s h src e; rw [e]; simp
@[simp] theorem postEv_out (s : State) (h : Half) (src : Src) (e : Ev) : (s.postEv h src e).out = s.out := by obtain ⟨q, f, e⟩ := postEv_eq s h src e; rw [e]; simp
@[simp] theorem postEv_host (s : State) (h : Half) (src : Src) (e : Ev) : (s.postEv h src e).host = s.host := by obtain ⟨q, f, e⟩ := postEv_eq s h src e; rw [e]; simp
@[simp] theorem postEv_rings (s : State) (h : Half) (src : Src) (e : Ev) : (s.postEv h src e).rings = s.rings := by obtain ⟨q, f, e⟩ := postEv_eq s h src e; rw [e]; simp
@[simp] theorem postEv_descs (s : State) (h : Half) (src : Src) (e : Ev) : (s.postEv h src e).descs = s.descs := by obtain ⟨q, f, e⟩ := postEv_eq s h src e; rw [e]; simp
@[simp] theorem postEv_descEnd (s : State) (h : Half) (src : Src) (e : Ev) : (s.postEv h src e).descEnd = s.descEnd := by obtain ⟨q, f, e⟩ := postEv_eq s h src e; rw [e]; simp
@[simp] theorem postEv_half_other (s : State) (h : Half) (src : Src) (e : Ev) : (s.postEv h src e).half h.other = s.half h.other := by
  obtain ⟨q, f, e⟩ := postEv_eq s h src e; rw [e]; simp
@[simp] theorem postEv_img (s : State) (h : Half) (src : Src) (e : Ev) : (s.postEv h src e).img h = s.img h := by
  obtain ⟨q, f, e⟩ := postEv_eq s h src e; rw [e]; simp [State.img]

@[simp] theorem post_pending (s : State) (h : Half) (src : Src) (c : Nat) (p : List Fld) (r : Route) : (s.post h src c p r).pending = s.pending := by simp [State.post]
@[simp] theorem post_now (s : State) (h : Half) (src : Src) (c : Nat) (p : List Fld) (r : Route) : (s.post h src c p r).now = s.now := by simp [State.post]
@[simp] theorem post_fv (s : State) (h : Half) (src : Src) (c : Nat) (p : List Fld) (r : Route) : (s.post h src c p r).fv = s.fv := by simp [State.post]
@[simp] theorem post_phase (s : State) (h : Half) (src : Src) (c : Nat) (p : List Fld) (r : Route) : (s.post h src c p r).phase = s.phase := by simp [State.post]
@[simp] theorem post_flash (s : State) (h : Half) (src : Src) (c : Nat) (p : List Fld) (r : Route) : (s.post h src c p r).flash = s.flash := by simp [State.post]
@[simp] theorem post_tam (s : State) (h : Half) (src : Src) (c : Nat) (p : List Fld) (r : Route) : (s.post h src c p r).tam = s.tam := by simp [State.post]
@[simp] theorem post_modRegs (s : State) (h : Half) (src : Src) (c : Nat) (p : List Fld) (r : Route) : (s.post h src c p r).modRegs = s.modRegs := by simp [State.post]
@[simp] theorem post_board (s : State) (h : Half) (src : Src) (c : Nat) (p : List Fld) (r : Route) : (s.post h src c p r).board = s.board := by simp [State.post]
@[simp] theorem post_slips (s : State) (h : Half) (src : Src) (c : Nat) (p : List Fld) (r : Route) : (s.post h src c p r).slips = s.slips := by simp [State.post]
@[simp] theorem post_lastState (s : State) (h : Half) (src : Src) (c : Nat) (p : List Fld) (r : Route) : (s.post h src c p r).lastState = s.lastState := by simp [State.post]
@[simp] theorem post_cfgDefaulted (s : State) (h : Half) (src : Src) (c : Nat) (p : List Fld) (r : Route) : (s.post h src c p r).cfgDefaulted = s.cfgDefaulted := by simp [State.post]
@[simp] theorem post_carried (s : State) (h : Half) (src : Src) (c : Nat) (p : List Fld) (r : Route) : (s.post h src c p r).carried = s.carried := by simp [State.post]
@[simp] theorem post_out (s : State) (h : Half) (src : Src) (c : Nat) (p : List Fld) (r : Route) : (s.post h src c p r).out = s.out := by simp [State.post]
@[simp] theorem post_host (s : State) (h : Half) (src : Src) (c : Nat) (p : List Fld) (r : Route) : (s.post h src c p r).host = s.host := by simp [State.post]
@[simp] theorem post_rings (s : State) (h : Half) (src : Src) (c : Nat) (p : List Fld) (r : Route) : (s.post h src c p r).rings = s.rings := by simp [State.post]
@[simp] theorem post_descs (s : State) (h : Half) (src : Src) (c : Nat) (p : List Fld) (r : Route) : (s.post h src c p r).descs = s.descs := by simp [State.post]
@[simp] theorem post_descEnd (s : State) (h : Half) (src : Src) (c : Nat) (p : List Fld) (r : Route) : (s.post h src c p r).descEnd = s.descEnd := by simp [State.post]
@[simp] theorem post_half_other (s : State) (h : Half) (src : Src) (c : Nat) (p : List Fld) (r : Route) : (s.post h src c p r).half h.other = s.half h.other := by
  simp [State.post]
@[simp] theorem post_img (s : State) (h : Half) (src : Src) (c : Nat) (p : List Fld) (r : Route) :
    (s.post h src c p r).img h = s.img h := by simp [State.post]

@[simp] theorem postLevel_pending (s : State) (h : Half) (c k : Nat) (p : List Fld) (r : Route) : (s.postLevel h c k p r).pending = s.pending := by simp [State.postLevel]
@[simp] theorem postLevel_now (s : State) (h : Half) (c k : Nat) (p : List Fld) (r : Route) : (s.postLevel h c k p r).now = s.now := by simp [State.postLevel]
@[simp] theorem postLevel_fv (s : State) (h : Half) (c k : Nat) (p : List Fld) (r : Route) : (s.postLevel h c k p r).fv = s.fv := by simp [State.postLevel]
@[simp] theorem postLevel_phase (s : State) (h : Half) (c k : Nat) (p : List Fld) (r : Route) : (s.postLevel h c k p r).phase = s.phase := by simp [State.postLevel]
@[simp] theorem postLevel_flash (s : State) (h : Half) (c k : Nat) (p : List Fld) (r : Route) : (s.postLevel h c k p r).flash = s.flash := by simp [State.postLevel]
@[simp] theorem postLevel_tam (s : State) (h : Half) (c k : Nat) (p : List Fld) (r : Route) : (s.postLevel h c k p r).tam = s.tam := by simp [State.postLevel]
@[simp] theorem postLevel_modRegs (s : State) (h : Half) (c k : Nat) (p : List Fld) (r : Route) : (s.postLevel h c k p r).modRegs = s.modRegs := by simp [State.postLevel]
@[simp] theorem postLevel_board (s : State) (h : Half) (c k : Nat) (p : List Fld) (r : Route) : (s.postLevel h c k p r).board = s.board := by simp [State.postLevel]
@[simp] theorem postLevel_slips (s : State) (h : Half) (c k : Nat) (p : List Fld) (r : Route) : (s.postLevel h c k p r).slips = s.slips := by simp [State.postLevel]
@[simp] theorem postLevel_lastState (s : State) (h : Half) (c k : Nat) (p : List Fld) (r : Route) : (s.postLevel h c k p r).lastState = s.lastState := by simp [State.postLevel]
@[simp] theorem postLevel_cfgDefaulted (s : State) (h : Half) (c k : Nat) (p : List Fld) (r : Route) : (s.postLevel h c k p r).cfgDefaulted = s.cfgDefaulted := by simp [State.postLevel]
@[simp] theorem postLevel_carried (s : State) (h : Half) (c k : Nat) (p : List Fld) (r : Route) : (s.postLevel h c k p r).carried = s.carried := by simp [State.postLevel]
@[simp] theorem postLevel_out (s : State) (h : Half) (c k : Nat) (p : List Fld) (r : Route) : (s.postLevel h c k p r).out = s.out := by simp [State.postLevel]
@[simp] theorem postLevel_host (s : State) (h : Half) (c k : Nat) (p : List Fld) (r : Route) : (s.postLevel h c k p r).host = s.host := by simp [State.postLevel]
@[simp] theorem postLevel_rings (s : State) (h : Half) (c k : Nat) (p : List Fld) (r : Route) : (s.postLevel h c k p r).rings = s.rings := by simp [State.postLevel]
@[simp] theorem postLevel_descs (s : State) (h : Half) (c k : Nat) (p : List Fld) (r : Route) : (s.postLevel h c k p r).descs = s.descs := by simp [State.postLevel]
@[simp] theorem postLevel_descEnd (s : State) (h : Half) (c k : Nat) (p : List Fld) (r : Route) : (s.postLevel h c k p r).descEnd = s.descEnd := by simp [State.postLevel]
@[simp] theorem postLevel_half_other (s : State) (h : Half) (c k : Nat) (p : List Fld) (r : Route) : (s.postLevel h c k p r).half h.other = s.half h.other := by
  simp [State.postLevel]
@[simp] theorem postLevel_img (s : State) (h : Half) (c k : Nat) (p : List Fld) (r : Route) :
    (s.postLevel h c k p r).img h = s.img h := by simp [State.postLevel]

@[simp] theorem postCpl_pending (s : State) (h : Half) (c : Cmd) (st cf : Nat) (r : List Fld) : (s.postCpl h c st cf r).pending = s.pending := by simp [State.postCpl]
@[simp] theorem postCpl_now (s : State) (h : Half) (c : Cmd) (st cf : Nat) (r : List Fld) : (s.postCpl h c st cf r).now = s.now := by simp [State.postCpl]
@[simp] theorem postCpl_fv (s : State) (h : Half) (c : Cmd) (st cf : Nat) (r : List Fld) : (s.postCpl h c st cf r).fv = s.fv := by simp [State.postCpl]
@[simp] theorem postCpl_phase (s : State) (h : Half) (c : Cmd) (st cf : Nat) (r : List Fld) : (s.postCpl h c st cf r).phase = s.phase := by simp [State.postCpl]
@[simp] theorem postCpl_flash (s : State) (h : Half) (c : Cmd) (st cf : Nat) (r : List Fld) : (s.postCpl h c st cf r).flash = s.flash := by simp [State.postCpl]
@[simp] theorem postCpl_tam (s : State) (h : Half) (c : Cmd) (st cf : Nat) (r : List Fld) : (s.postCpl h c st cf r).tam = s.tam := by simp [State.postCpl]
@[simp] theorem postCpl_modRegs (s : State) (h : Half) (c : Cmd) (st cf : Nat) (r : List Fld) : (s.postCpl h c st cf r).modRegs = s.modRegs := by simp [State.postCpl]
@[simp] theorem postCpl_board (s : State) (h : Half) (c : Cmd) (st cf : Nat) (r : List Fld) : (s.postCpl h c st cf r).board = s.board := by simp [State.postCpl]
@[simp] theorem postCpl_slips (s : State) (h : Half) (c : Cmd) (st cf : Nat) (r : List Fld) : (s.postCpl h c st cf r).slips = s.slips := by simp [State.postCpl]
@[simp] theorem postCpl_lastState (s : State) (h : Half) (c : Cmd) (st cf : Nat) (r : List Fld) : (s.postCpl h c st cf r).lastState = s.lastState := by simp [State.postCpl]
@[simp] theorem postCpl_cfgDefaulted (s : State) (h : Half) (c : Cmd) (st cf : Nat) (r : List Fld) : (s.postCpl h c st cf r).cfgDefaulted = s.cfgDefaulted := by simp [State.postCpl]
@[simp] theorem postCpl_carried (s : State) (h : Half) (c : Cmd) (st cf : Nat) (r : List Fld) : (s.postCpl h c st cf r).carried = s.carried := by simp [State.postCpl]
@[simp] theorem postCpl_out (s : State) (h : Half) (c : Cmd) (st cf : Nat) (r : List Fld) : (s.postCpl h c st cf r).out = s.out := by simp [State.postCpl]
@[simp] theorem postCpl_host (s : State) (h : Half) (c : Cmd) (st cf : Nat) (r : List Fld) : (s.postCpl h c st cf r).host = s.host := by simp [State.postCpl]
@[simp] theorem postCpl_rings (s : State) (h : Half) (c : Cmd) (st cf : Nat) (r : List Fld) : (s.postCpl h c st cf r).rings = s.rings := by simp [State.postCpl]
@[simp] theorem postCpl_descs (s : State) (h : Half) (c : Cmd) (st cf : Nat) (r : List Fld) : (s.postCpl h c st cf r).descs = s.descs := by simp [State.postCpl]
@[simp] theorem postCpl_descEnd (s : State) (h : Half) (c : Cmd) (st cf : Nat) (r : List Fld) : (s.postCpl h c st cf r).descEnd = s.descEnd := by simp [State.postCpl]
@[simp] theorem postCpl_half_other (s : State) (h : Half) (c : Cmd) (st cf : Nat) (r : List Fld) : (s.postCpl h c st cf r).half h.other = s.half h.other := by
  simp [State.postCpl]
@[simp] theorem postCpl_img (s : State) (h : Half) (c : Cmd) (st cf : Nat) (r : List Fld) :
    (s.postCpl h c st cf r).img h = s.img h := by simp [State.postCpl, State.img]

/-- A command that has acted: it waits, and its place at the usher is kept. -/
theorem waitActed_eq (s : State) (x : Half) (j : Job) :
    s.waitActed x j = (s.modImg x fun im => { im with jobs := im.jobs ++ [j] }).modHalf x fun y =>
      { y with queue := y.queue ++ [(Src.command, Post.due j.cmd)] } := rfl

/-- The completion that takes its kept place: the queue of one half changes, nothing else. -/
theorem postKept_eq (s : State) (h : Half) (c : Cmd) (st cf : Nat) (r : List Fld) :
    ∃ q, s.postKept h c st cf r = s.modHalf h fun x => { x with queue := q } := ⟨_, rfl⟩

@[simp] theorem wait_pending (s : State) (h : Half) (j : Job) : (s.wait h j).pending = s.pending := by simp [State.wait]
@[simp] theorem wait_now (s : State) (h : Half) (j : Job) : (s.wait h j).now = s.now := by simp [State.wait]
@[simp] theorem wait_fv (s : State) (h : Half) (j : Job) : (s.wait h j).fv = s.fv := by simp [State.wait]
@[simp] theorem wait_phase (s : State) (h : Half) (j : Job) : (s.wait h j).phase = s.phase := by simp [State.wait]
@[simp] theorem wait_flash (s : State) (h : Half) (j : Job) : (s.wait h j).flash = s.flash := by simp [State.wait]
@[simp] theorem wait_tam (s : State) (h : Half) (j : Job) : (s.wait h j).tam = s.tam := by simp [State.wait]
@[simp] theorem wait_modRegs (s : State) (h : Half) (j : Job) : (s.wait h j).modRegs = s.modRegs := by simp [State.wait]
@[simp] theorem wait_board (s : State) (h : Half) (j : Job) : (s.wait h j).board = s.board := by simp [State.wait]
@[simp] theorem wait_slips (s : State) (h : Half) (j : Job) : (s.wait h j).slips = s.slips := by simp [State.wait]
@[simp] theorem wait_lastState (s : State) (h : Half) (j : Job) : (s.wait h j).lastState = s.lastState := by simp [State.wait]
@[simp] theorem wait_cfgDefaulted (s : State) (h : Half) (j : Job) : (s.wait h j).cfgDefaulted = s.cfgDefaulted := by simp [State.wait]
@[simp] theorem wait_carried (s : State) (h : Half) (j : Job) : (s.wait h j).carried = s.carried := by simp [State.wait]
@[simp] theorem wait_out (s : State) (h : Half) (j : Job) : (s.wait h j).out = s.out := by simp [State.wait]
@[simp] theorem wait_host (s : State) (h : Half) (j : Job) : (s.wait h j).host = s.host := by simp [State.wait]
@[simp] theorem wait_rings (s : State) (h : Half) (j : Job) : (s.wait h j).rings = s.rings := by simp [State.wait]
@[simp] theorem wait_descs (s : State) (h : Half) (j : Job) : (s.wait h j).descs = s.descs := by simp [State.wait]
@[simp] theorem wait_descEnd (s : State) (h : Half) (j : Job) : (s.wait h j).descEnd = s.descEnd := by simp [State.wait]
@[simp] theorem wait_half_other (s : State) (h : Half) (j : Job) : (s.wait h j).half h.other = s.half h.other := by
  simp [State.wait]

/-- A record on its way: flash alone changes; under POWER_FAIL none starts. -/
theorem record_eq (s : State) (x : Half) (r : Rec) :
    (s.record x r).1 = s.flash.nextRec ∧ (s.record x r).2 = { s with flash := (s.record x r).2.flash } ∧
    (s.record x r).2.flash.recs =
      if s.board.powerFail then s.flash.recs else s.flash.recs ++ [{ id := s.flash.nextRec, by_ := x, rec_ := r }] := by
  refine ⟨rfl, rfl, ?_⟩
  unfold State.record
  by_cases h : s.board.powerFail = true <;> simp [h]

/-- One increment of a counter: it can only count, and post its overflow. -/
theorem ctrAdd_eq (s : State) (h : Half) (i n : Nat) :
    ∃ q f c, s.ctrAdd h i n = s.modHalf h fun x => { x with queue := q, fwd := f, ctrs := c } := by
  have g : ∀ (k : Tab Ctr) (b : Bool) (e : Ev), ∃ q f,
      (if b then (s.modHalf h fun x => { x with ctrs := k }).postEv h .level e
       else s.modHalf h fun x => { x with ctrs := k }) =
        s.modHalf h fun x => { x with queue := q, fwd := f, ctrs := k } := by
    intro k b e
    cases b with
    | false => exact ⟨(s.half h).queue, (s.half h).fwd, rfl⟩
    | true =>
      obtain ⟨q, f, w⟩ := postEv_eq (s.modHalf h fun x => { x with ctrs := k }) h .level e
      exact ⟨q, f, by rw [if_pos rfl, w, modHalf_modHalf]⟩
  obtain ⟨q, f, w⟩ := g _ _ _
  exact ⟨q, f, _, w⟩

/-- Counting a happening changes the counters, and may post overflows. -/
theorem happen_eq (s : State) (h : Half) (ev obj n : Nat) :
    ∃ q f c, s.happen h ev obj n = s.modHalf h fun x => { x with queue := q, fwd := f, ctrs := c } := by
  unfold State.happen
  have g : ∀ (l : List (Nat × Ctr)) (t : State),
      (∃ q f c, t = s.modHalf h fun x => { x with queue := q, fwd := f, ctrs := c }) →
      ∃ q f c, (l.foldl (fun s p => if p.2.counts 0 ev obj then s.ctrAdd h p.1 n else s) t) =
        s.modHalf h fun x => { x with queue := q, fwd := f, ctrs := c } := by
    intro l
    induction l with
    | nil => intro t ht; exact ht
    | cons p r ih =>
      rintro t ⟨q, f, c, rfl⟩
      simp only [List.foldl_cons]
      split
      · obtain ⟨q', f', c', e⟩ := ctrAdd_eq (s.modHalf h fun x => { x with queue := q, fwd := f, ctrs := c }) h p.1 n
        exact ih _ ⟨q', f', c', by rw [e]; simp⟩
      · exact ih _ ⟨q, f, c, rfl⟩
  exact g _ s ⟨(s.half h).queue, (s.half h).fwd, (s.half h).ctrs, by cases h <;> rfl⟩

/-- With no counter in use a happening changes nothing. -/
theorem happen_nil {s : State} {h : Half} (e : (s.half h).ctrs = []) (ev obj n : Nat) : s.happen h ev obj n = s := by
  simp [State.happen, e]

/-- A change of the module state posts MODULE_STATE from the half that holds the helm, and nothing else. -/
theorem noteState_eq (s : State) : s.noteState = s ∨
    ∃ h, s.holder = some h ∧ ∃ q f, s.noteState =
      { s with lastState := s.modState }.modHalf h fun x => { x with queue := q, fwd := f } := by
  unfold State.noteState
  split
  · exact .inl rfl
  · split
    · rename_i h e
      obtain ⟨q, f, e'⟩ := postEv_eq { s with lastState := s.modState } h .cores _
      exact .inr ⟨h, e, q, f, by unfold State.post; rw [e']⟩
    · exact .inl rfl

end Sys2Proof.Machine
end

