-- ==== Sys2Proof/Laws/Tables.lean ====
section
/-! SUPPORT. Sparse tables: a read after a write, what a write leaves alone, and that every write keeps the canonical form
(so that equal tables are equal data); then the protected DRAM, which is such a table of bytes. -/

namespace Sys2Proof.Machine

open Sys2Proof

variable {α : Type}

theorem tabGet_tabDel_same (d : α) (t : Tab α) (k : Nat) : tabGet d (tabDel t k) k = d := by
  induction t with
  | nil => rfl
  | cons p r ih =>
    obtain ⟨i, v⟩ := p
    by_cases h : i = k <;> simp [tabDel, tabGet, h, ih]

theorem tabGet_tabDel_of_ne (d : α) (t : Tab α) {k j : Nat} (n : j ≠ k) : tabGet d (tabDel t k) j = tabGet d t j := by
  induction t with
  | nil => rfl
  | cons p r ih =>
    obtain ⟨i, v⟩ := p
    by_cases h : i = k
    · subst h; simp [tabDel, tabGet, Ne.symm n, ih]
    · by_cases h' : i = j
      · subst h'; simp [tabDel, tabGet, h]
      · simp [tabDel, tabGet, h, h', ih]

theorem tabGet_tabIns_same (d : α) (t : Tab α) (k : Nat) (x : α) : tabGet d (tabIns t k x) k = x := by
  induction t with
  | nil => simp [tabIns, tabGet]
  | cons p r ih =>
    obtain ⟨i, v⟩ := p
    by_cases h : k < i
    · simp [tabIns, h, tabGet]
    · by_cases h' : i = k <;> simp [tabIns, h, h', tabGet, ih]

theorem tabGet_tabIns_of_ne (d : α) (t : Tab α) {k j : Nat} (x : α) (n : j ≠ k) :
    tabGet d (tabIns t k x) j = tabGet d t j := by
  induction t with
  | nil => simp [tabIns, tabGet, Ne.symm n]
  | cons p r ih =>
    obtain ⟨i, v⟩ := p
    by_cases h : k < i
    · simp [tabIns, h, tabGet, Ne.symm n]
    · by_cases h' : i = k
      · subst h'; simp [tabIns, tabGet, Ne.symm n]
      · by_cases h'' : i = j
        · subst h''; simp [tabIns, h, h', tabGet]
        · simp [tabIns, h, h', tabGet, h'', ih]

variable [DecidableEq α]

/-- A read after a write gives the value written. -/
@[simp] theorem tabGet_tabSet (d : α) (t : Tab α) (k : Nat) (x : α) : tabGet d (tabSet d t k x) k = x := by
  unfold tabSet
  split
  · rename_i h; rw [tabGet_tabDel_same, h]
  · exact tabGet_tabIns_same d t k x

/-- A write leaves every other entry alone. -/
theorem tabGet_tabSet_of_ne (d : α) (t : Tab α) {k j : Nat} (x : α) (n : j ≠ k) :
    tabGet d (tabSet d t k x) j = tabGet d t j := by
  unfold tabSet
  split
  · exact tabGet_tabDel_of_ne d t n
  · exact tabGet_tabIns_of_ne d t x n

theorem tabWfFrom_mono (d : α) {b c : Nat} (t : Tab α) (le : b ≤ c) (h : tabWfFrom d c t = true) :
    tabWfFrom d b t = true := by
  cases t with
  | nil => rfl
  | cons p r =>
    simp only [tabWfFrom, Bool.and_eq_true, decide_eq_true_eq] at h ⊢
    exact ⟨⟨Nat.le_trans le h.1.1, h.1.2⟩, h.2⟩

theorem tabWfFrom_tabDel (d : α) (t : Tab α) (k b : Nat) (h : tabWfFrom d b t = true) :
    tabWfFrom d b (tabDel t k) = true := by
  induction t generalizing b with
  | nil => rfl
  | cons p r ih =>
    obtain ⟨i, v⟩ := p
    simp only [tabWfFrom, Bool.and_eq_true, decide_eq_true_eq] at h
    simp only [tabDel]
    split
    · exact ih b (tabWfFrom_mono d r (by omega) h.2)
    · simp only [tabWfFrom, Bool.and_eq_true, decide_eq_true_eq]
      exact ⟨h.1, ih _ h.2⟩

theorem tabWfFrom_tabIns (d : α) (t : Tab α) (k b : Nat) (x : α) (n : x ≠ d) (le : b ≤ k)
    (h : tabWfFrom d b t = true) : tabWfFrom d b (tabIns t k x) = true := by
  induction t generalizing b with
  | nil => simp [tabIns, tabWfFrom, n, le]
  | cons p r ih =>
    obtain ⟨i, v⟩ := p
    have h0 := h
    simp only [tabWfFrom, Bool.and_eq_true, decide_eq_true_eq] at h
    simp only [tabIns]
    split
    · simp only [tabWfFrom, Bool.and_eq_true, decide_eq_true_eq]
      exact ⟨⟨le, n⟩, ⟨by omega, h.1.2⟩, h.2⟩
    · split
      · rename_i e; subst e
        simp only [tabWfFrom, Bool.and_eq_true, decide_eq_true_eq]
        exact ⟨⟨le, n⟩, h.2⟩
      · simp only [tabWfFrom, Bool.and_eq_true, decide_eq_true_eq]
        exact ⟨h.1, ih _ (by omega) h.2⟩

/-- A write keeps the canonical form. -/
theorem tabWf_tabSet (d : α) (t : Tab α) (k : Nat) (x : α) (h : tabWf d t = true) : tabWf d (tabSet d t k x) = true := by
  unfold tabSet tabWf at *
  split
  · exact tabWfFrom_tabDel d t k 0 h
  · rename_i n; exact tabWfFrom_tabIns d t k 0 x n (Nat.zero_le _) h

/-- A deletion keeps the canonical form. -/
theorem tabWf_tabDel (d : α) (t : Tab α) (k : Nat) (h : tabWf d t = true) : tabWf d (tabDel t k) = true :=
  tabWfFrom_tabDel d t k 0 h

omit [DecidableEq α] in
/-- Nothing is deleted where nothing is listed. -/
theorem tabDel_of_absent (t : Tab α) (k : Nat) (h : ∀ p ∈ t, p.1 ≠ k) : tabDel t k = t := by
  induction t with
  | nil => rfl
  | cons p r ih =>
    obtain ⟨i, v⟩ := p
    simp only [tabDel, if_neg (h (i, v) (List.mem_cons_self ..))]
    rw [ih fun q m => h q (List.mem_cons_of_mem _ m)]

/-! ## Protected DRAM -/

/-- A byte written reads back. -/
@[simp] theorem memRead_memWrite (m : List Host.Cell) (a : Nat) (v : BitVec 8) : memRead (memWrite m a v) a = v :=
  tabGet_tabSet 0 m a v

/-- A byte written leaves every other byte alone. -/
theorem memRead_memWrite_of_ne (m : List Host.Cell) {a b : Nat} (v : BitVec 8) (n : b ≠ a) :
    memRead (memWrite m a v) b = memRead m b := tabGet_tabSet_of_ne 0 m v n

/-- A byte written keeps the canonical form. -/
theorem memWrite_wf (m : List Host.Cell) (a : Nat) (v : BitVec 8) (h : Memory.wf m = true) :
    Memory.wf (memWrite m a v) = true := tabWf_tabSet 0 m a v h

/-- Stored bytes read back least significant first, and every other byte is as it was. -/
theorem memRead_memStore (m : List Host.Cell) (a n v b : Nat) :
    memRead (memStore m a n v) b =
      if a ≤ b ∧ b < a + n then BitVec.ofNat 8 (v / 256 ^ (b - a)) else memRead m b := by
  induction n generalizing m a v with
  | zero => rw [memStore, if_neg (by omega)]
  | succ n ih =>
    rw [memStore, ih]
    by_cases h : b = a
    · subst h
      rw [if_neg (by omega), if_pos (by omega), memRead_memWrite, Nat.sub_self, Nat.pow_zero, Nat.div_one]
    · by_cases h' : a ≤ b ∧ b < a + (n + 1)
      · have e : b - a = b - (a + 1) + 1 := by omega
        rw [if_pos (by omega), if_pos h', e, Nat.pow_succ', Nat.div_div_eq_div_mul]
      · rw [if_neg (by omega), if_neg h', memRead_memWrite_of_ne m _ h]

/-- A store keeps the canonical form. -/
theorem memStore_wf (m : List Host.Cell) (a n v : Nat) (h : Memory.wf m = true) :
    Memory.wf (memStore m a n v) = true := by
  induction n generalizing m a v with
  | zero => exact h
  | succ n ih => exact ih _ _ _ (memWrite_wf m a _ h)

/-- A write within a line touches the data and the counters of that line's page alone, and keeps the canonical form. -/
theorem writeLine_data (d : Dram) (addr size data line : Nat) :
    (d.writeLine addr size data line).data =
      memStore d.data (max addr (64 * line)) (min (addr + size) (64 * line + 64) - max addr (64 * line))
        (data / 2 ^ (8 * (max addr (64 * line) - addr))) := rfl

theorem writeLines_wf (d : Dram) (addr size data : Nat) (ls : List Nat) (h : Memory.wf d.data = true) :
    Memory.wf (ls.foldl (Dram.writeLine addr size data) d).data = true := by
  induction ls generalizing d with
  | nil => exact h
  | cons l r ih => exact ih _ (by rw [writeLine_data]; exact memStore_wf _ _ _ _ h)

end Sys2Proof.Machine
end

