-- ==== Sys2Proof/Laws/Module.lean ====
section
/-! SUPPORT. What the shared operations of the board controller, the tamper controller, the halves' power and the protected
memory can do. -/

namespace Sys2Proof.Machine

open Sys2Proof

/-- The memories of both halves are in canonical form right after reset. -/
theorem reset_memory_wf : Memory.wf State.reset.a.dram.data = true ∧ Memory.wf State.reset.b.dram.data = true := ⟨rfl, rfl⟩

/-- An event of the board controller: the alert, and a post of the half that holds the helm. -/
theorem boardEv_eq (s : State) (code key : Nat) (p : List Fld) :
    (s.holder = none → s.boardEv code key p = s.alerted) ∧
    ∀ x, s.holder = some x → ∃ q f, s.boardEv code key p = s.alerted.modHalf x fun y => { y with queue := q, fwd := f } := by
  constructor
  · intro e; simp [State.boardEv, e]
  · intro x e
    obtain ⟨q, f, k⟩ := postEv_eq s.alerted x .level
      { code, origin := x, absorbed := 0, payload := p, route := .pf, key := levelKey code key, times := (s.alerted.half x).times }
    exact ⟨q, f, by simp only [State.boardEv, e]; exact k⟩

/-- A half enters HALTED_HALF once: its claim and drive stop and HALT goes out; a half that is halted already, or a module
in COLD, stays as it is. -/
theorem haltHalf_cases (s : State) (h : Half) (cause fifo : Nat) :
    ((s.phase = .cold ∨ (s.half h).haltCause ≠ 0) → s.haltHalf h cause fifo = s) ∧
    (s.phase ≠ .cold → (s.half h).haltCause = 0 → s.haltHalf h cause fifo =
      ((s.setHalf h { s.half h with
          haltCause := cause, haltFifo := if cause = 1 then fifo else 0,
          helm := { (s.half h).helm with
            st := .halted, claim := false, handover := none, sealed := none, offered := false } }).emit
        (.halt h)).noteState) := by
  constructor
  · intro e
    unfold State.haltHalf
    simp only
    rw [if_pos e]
  · intro p c
    unfold State.haltHalf
    simp only
    rw [if_neg (by simp [p, c])]

/-- The end of a run leaves everything outside the halves, the phase, the end cause and the records on their way. -/
theorem endRun_eq (s : State) (cause : Nat) (h : s.phase ≠ .cold) : s.endRun cause =
    { s with tam := { s.tam with endCause := cause }, a := s.a.afterReset, b := s.b.afterReset, phase := .booting,
             lastState := 1, flash := { s.flash with recs := [], compacting := false } }.drawHash := by
  unfold State.endRun
  rw [if_neg h]
  rfl

/-- A run that has not begun does not end. -/
theorem endRun_cold (s : State) (cause : Nat) (h : s.phase = .cold) : s.endRun cause = s := by
  unfold State.endRun
  rw [if_pos h]

/-- An operation handed to an engine that has failed completes with INTEGRITY. -/
theorem pkeOp_failed {s : State} {x : Half} (e : (s.half x).pke.ok = false) (h : Hdr) (op ns st : Nat) (r : List Fld)
    (a : Option (Nat × List Fld)) (c : Cont) : s.pkeOp x h op ns st r a c = s.postCpl x (cmdOf h op) stIntegrity 0 [] := by
  unfold State.pkeOp
  simp [e]

/-- The evidence count never falls at a burn, and never passes 127 unless it had. -/
theorem burn_evidence (t : Tamper) (n : Nat) :
    t.evidence ≤ (t.burn n).evidence ∧ ((t.burn n).evidence ≤ 127 ∨ (t.burn n).evidence = t.evidence) := by
  simp only [Tamper.burn]
  omega

/-- Power-up never lowers the evidence count. -/
theorem powerUp_evidence (t : Tamper) (right : Bool) : t.evidence ≤ (t.powerUp right).evidence := by
  unfold Tamper.powerUp
  cases right with
  | false => exact (burn_evidence { t with committed := none, lostNow := false, erasedAt := none } _).1
  | true =>
    simp only [Bool.not_true]
    cases e : t.pend with
    | none => simp
    | some p =>
      exact (burn_evidence { t with committed := none, lostNow := false, erasedAt := none } _).1

/-- A cage's power leaves everything but the cages. -/
theorem cagePower_eq (s : State) (c : Nat) : ∃ t, s.cagePower c = { s with board := { s.board with cages := t } } := ⟨_, rfl⟩

/-- A protection fault touches the half that takes it, and of it the unit, the counters, the queue and the events to
forward. -/
theorem protFault_eq (s : State) (h : Half) (core : Nat) (l : Level) (t : AccessType) (a r : Nat) :
    ∃ p q f c, s.protFault h core l t a r = s.modHalf h fun x => { x with prot := p, queue := q, fwd := f, ctrs := c } := by
  have one : ∀ (u : ProtUnit) (src : Src) (e : Ev), ∃ p q f c,
      (((s.modHalf h fun x => { x with prot := tabSet {} x.prot core u }).postEv h src e).happen h 0x41 core 1) =
        s.modHalf h fun x => { x with prot := p, queue := q, fwd := f, ctrs := c } := by
    intro u src e
    obtain ⟨q, f, k⟩ := postEv_eq (s.modHalf h fun x => { x with prot := tabSet {} x.prot core u }) h src e
    obtain ⟨q', f', c, k'⟩ := happen_eq (s.modHalf h fun x =>
      { x with prot := tabSet {} (s.half h).prot core u, queue := q, fwd := f }) h 0x41 core 1
    refine ⟨tabSet {} (s.half h).prot core u, q', f', c, ?_⟩
    rw [k, modHalf_modHalf]
    exact k'.trans (modHalf_modHalf ..)
  have two : ∀ u : ProtUnit, ∃ p q f c,
      ((s.modHalf h fun x => { x with prot := tabSet {} x.prot core u }).happen h 0x41 core 1) =
        s.modHalf h fun x => { x with prot := p, queue := q, fwd := f, ctrs := c } := by
    intro u
    obtain ⟨q', f', c, k'⟩ := happen_eq (s.modHalf h fun x => { x with prot := tabSet {} x.prot core u }) h 0x41 core 1
    exact ⟨tabSet {} (s.half h).prot core u, q', f', c, k'.trans (modHalf_modHalf ..)⟩
  unfold State.protFault
  simp only
  split
  · exact one _ _ _
  · exact two _

end Sys2Proof.Machine
end

