-- ==== Sys2Proof/Laws/Parts.lean ====
section
/-! SUPPORT. The keyed parts of a half and of its image, by their accessors: what was written under a key is read there, every
other key reads as before, and no other part of the half changes. -/

namespace Sys2Proof.Machine

open Sys2Proof

/-! ## Parts of a half -/

@[simp] theorem lane_setLane (x : HState) (n : Nat) (v : LaneSt) : (x.setLane n v).lane n = v := tabGet_tabSet ..
theorem lane_setLane_of_ne (x : HState) {n j : Nat} (v : LaneSt) (n' : j ≠ n) : (x.setLane n v).lane j = x.lane j :=
  tabGet_tabSet_of_ne _ _ _ n'
@[simp] theorem setLane_img (x : HState) (n : Nat) (v : LaneSt) : (x.setLane n v).img = x.img := rfl
@[simp] theorem setLane_helm (x : HState) (n : Nat) (v : LaneSt) : (x.setLane n v).helm = x.helm := rfl
@[simp] theorem setLane_boot (x : HState) (n : Nat) (v : LaneSt) : (x.setLane n v).boot = x.boot := rfl
@[simp] theorem setLane_regs (x : HState) (n : Nat) (v : LaneSt) : (x.setLane n v).regs = x.regs := rfl
@[simp] theorem setLane_queue (x : HState) (n : Nat) (v : LaneSt) : (x.setLane n v).queue = x.queue := rfl
@[simp] theorem rxLane_setLane (x : HState) (n j : Nat) (v : LaneSt) : (x.setLane n v).rxLane j = x.rxLane j := rfl
@[simp] theorem grp_setLane (x : HState) (n j : Nat) (v : LaneSt) : (x.setLane n v).grp j = x.grp j := rfl
@[simp] theorem trib_setLane (x : HState) (n j : Nat) (v : LaneSt) : (x.setLane n v).trib j = x.trib j := rfl
@[simp] theorem queue__setLane (x : HState) (n j : Nat) (v : LaneSt) : (x.setLane n v).queue_ j = x.queue_ j := rfl
@[simp] theorem side_setLane (x : HState) (n j : Nat) (d : Side) (v : LaneSt) : (x.setLane n v).side j d = x.side j d := rfl

@[simp] theorem rxLane_setRxLane (x : HState) (k : Nat) (v : RxLane) : (x.setRxLane k v).rxLane k = v := tabGet_tabSet ..
theorem rxLane_setRxLane_of_ne (x : HState) {k j : Nat} (v : RxLane) (n' : j ≠ k) : (x.setRxLane k v).rxLane j = x.rxLane j :=
  tabGet_tabSet_of_ne _ _ _ n'
@[simp] theorem setRxLane_img (x : HState) (k : Nat) (v : RxLane) : (x.setRxLane k v).img = x.img := rfl
@[simp] theorem setRxLane_helm (x : HState) (k : Nat) (v : RxLane) : (x.setRxLane k v).helm = x.helm := rfl
@[simp] theorem setRxLane_boot (x : HState) (k : Nat) (v : RxLane) : (x.setRxLane k v).boot = x.boot := rfl
@[simp] theorem setRxLane_regs (x : HState) (k : Nat) (v : RxLane) : (x.setRxLane k v).regs = x.regs := rfl
@[simp] theorem setRxLane_queue (x : HState) (k : Nat) (v : RxLane) : (x.setRxLane k v).queue = x.queue := rfl
@[simp] theorem lane_setRxLane (x : HState) (k j : Nat) (v : RxLane) : (x.setRxLane k v).lane j = x.lane j := rfl
@[simp] theorem grp_setRxLane (x : HState) (k j : Nat) (v : RxLane) : (x.setRxLane k v).grp j = x.grp j := rfl
@[simp] theorem trib_setRxLane (x : HState) (k j : Nat) (v : RxLane) : (x.setRxLane k v).trib j = x.trib j := rfl
@[simp] theorem queue__setRxLane (x : HState) (k j : Nat) (v : RxLane) : (x.setRxLane k v).queue_ j = x.queue_ j := rfl
@[simp] theorem side_setRxLane (x : HState) (k j : Nat) (d : Side) (v : RxLane) : (x.setRxLane k v).side j d = x.side j d := rfl

@[simp] theorem grp_setGrp (x : HState) (g : Nat) (v : Grp) : (x.setGrp g v).grp g = v := tabGet_tabSet ..
theorem grp_setGrp_of_ne (x : HState) {g j : Nat} (v : Grp) (n' : j ≠ g) : (x.setGrp g v).grp j = x.grp j :=
  tabGet_tabSet_of_ne _ _ _ n'
@[simp] theorem setGrp_img (x : HState) (g : Nat) (v : Grp) : (x.setGrp g v).img = x.img := rfl
@[simp] theorem setGrp_helm (x : HState) (g : Nat) (v : Grp) : (x.setGrp g v).helm = x.helm := rfl
@[simp] theorem setGrp_boot (x : HState) (g : Nat) (v : Grp) : (x.setGrp g v).boot = x.boot := rfl
@[simp] theorem setGrp_regs (x : HState) (g : Nat) (v : Grp) : (x.setGrp g v).regs = x.regs := rfl
@[simp] theorem setGrp_queue (x : HState) (g : Nat) (v : Grp) : (x.setGrp g v).queue = x.queue := rfl
@[simp] theorem lane_setGrp (x : HState) (g j : Nat) (v : Grp) : (x.setGrp g v).lane j = x.lane j := rfl
@[simp] theorem rxLane_setGrp (x : HState) (g j : Nat) (v : Grp) : (x.setGrp g v).rxLane j = x.rxLane j := rfl
@[simp] theorem trib_setGrp (x : HState) (g j : Nat) (v : Grp) : (x.setGrp g v).trib j = x.trib j := rfl
@[simp] theorem queue__setGrp (x : HState) (g j : Nat) (v : Grp) : (x.setGrp g v).queue_ j = x.queue_ j := rfl
@[simp] theorem side_setGrp (x : HState) (g j : Nat) (d : Side) (v : Grp) : (x.setGrp g v).side j d = x.side j d := rfl

@[simp] theorem trib_setTrib (x : HState) (t : Nat) (v : TribSt) : (x.setTrib t v).trib t = v := tabGet_tabSet ..
theorem trib_setTrib_of_ne (x : HState) {t j : Nat} (v : TribSt) (n' : j ≠ t) : (x.setTrib t v).trib j = x.trib j :=
  tabGet_tabSet_of_ne _ _ _ n'
@[simp] theorem setTrib_img (x : HState) (t : Nat) (v : TribSt) : (x.setTrib t v).img = x.img := rfl
@[simp] theorem setTrib_helm (x : HState) (t : Nat) (v : TribSt) : (x.setTrib t v).helm = x.helm := rfl
@[simp] theorem setTrib_boot (x : HState) (t : Nat) (v : TribSt) : (x.setTrib t v).boot = x.boot := rfl
@[simp] theorem setTrib_regs (x : HState) (t : Nat) (v : TribSt) : (x.setTrib t v).regs = x.regs := rfl
@[simp] theorem setTrib_queue (x : HState) (t : Nat) (v : TribSt) : (x.setTrib t v).queue = x.queue := rfl
@[simp] theorem lane_setTrib (x : HState) (t j : Nat) (v : TribSt) : (x.setTrib t v).lane j = x.lane j := rfl
@[simp] theorem rxLane_setTrib (x : HState) (t j : Nat) (v : TribSt) : (x.setTrib t v).rxLane j = x.rxLane j := rfl
@[simp] theorem grp_setTrib (x : HState) (t j : Nat) (v : TribSt) : (x.setTrib t v).grp j = x.grp j := rfl
@[simp] theorem queue__setTrib (x : HState) (t j : Nat) (v : TribSt) : (x.setTrib t v).queue_ j = x.queue_ j := rfl
@[simp] theorem side_setTrib (x : HState) (t j : Nat) (d : Side) (v : TribSt) : (x.setTrib t v).side j d = x.side j d := rfl

@[simp] theorem queue__setQueue (x : HState) (q : Nat) (v : List HFrame) : (x.setQueue q v).queue_ q = v := tabGet_tabSet ..
theorem queue__setQueue_of_ne (x : HState) {q j : Nat} (v : List HFrame) (n' : j ≠ q) : (x.setQueue q v).queue_ j = x.queue_ j :=
  tabGet_tabSet_of_ne _ _ _ n'
@[simp] theorem setQueue_img (x : HState) (q : Nat) (v : List HFrame) : (x.setQueue q v).img = x.img := rfl
@[simp] theorem setQueue_helm (x : HState) (q : Nat) (v : List HFrame) : (x.setQueue q v).helm = x.helm := rfl
@[simp] theorem setQueue_boot (x : HState) (q : Nat) (v : List HFrame) : (x.setQueue q v).boot = x.boot := rfl
@[simp] theorem setQueue_regs (x : HState) (q : Nat) (v : List HFrame) : (x.setQueue q v).regs = x.regs := rfl
@[simp] theorem setQueue_queue (x : HState) (q : Nat) (v : List HFrame) : (x.setQueue q v).queue = x.queue := rfl
@[simp] theorem lane_setQueue (x : HState) (q j : Nat) (v : List HFrame) : (x.setQueue q v).lane j = x.lane j := rfl
@[simp] theorem rxLane_setQueue (x : HState) (q j : Nat) (v : List HFrame) : (x.setQueue q v).rxLane j = x.rxLane j := rfl
@[simp] theorem grp_setQueue (x : HState) (q j : Nat) (v : List HFrame) : (x.setQueue q v).grp j = x.grp j := rfl
@[simp] theorem trib_setQueue (x : HState) (q j : Nat) (v : List HFrame) : (x.setQueue q v).trib j = x.trib j := rfl
@[simp] theorem side_setQueue (x : HState) (q j : Nat) (d : Side) (v : List HFrame) : (x.setQueue q v).side j d = x.side j d := rfl

/-- The two sides of the tributaries have places of their own. -/
theorem side_place_inj {t u : Nat} {d e : Side} (h : 2 * t + d.idx = 2 * u + e.idx) : t = u ∧ d = e := by
  cases d <;> cases e <;> simp only [Side.idx] at h <;> first | exact ⟨by omega, rfl⟩ | omega

@[simp] theorem side_setSide (x : HState) (t : Nat) (d : Side) (v : SideSt) : (x.setSide t d v).side t d = v := tabGet_tabSet ..
theorem side_setSide_of_ne (x : HState) {t u : Nat} {d e : Side} (v : SideSt) (n : ¬(u = t ∧ e = d)) :
    (x.setSide t d v).side u e = x.side u e :=
  tabGet_tabSet_of_ne _ _ _ fun h => n (side_place_inj h)
@[simp] theorem side_setSide_other (x : HState) (t : Nat) (d e : Side) (v : SideSt) (n : e ≠ d) :
    (x.setSide t d v).side t e = x.side t e := side_setSide_of_ne x v fun h => n h.2
@[simp] theorem setSide_img (x : HState) (t : Nat) (d : Side) (v : SideSt) : (x.setSide t d v).img = x.img := rfl
@[simp] theorem setSide_helm (x : HState) (t : Nat) (d : Side) (v : SideSt) : (x.setSide t d v).helm = x.helm := rfl
@[simp] theorem setSide_boot (x : HState) (t : Nat) (d : Side) (v : SideSt) : (x.setSide t d v).boot = x.boot := rfl
@[simp] theorem setSide_regs (x : HState) (t : Nat) (d : Side) (v : SideSt) : (x.setSide t d v).regs = x.regs := rfl
@[simp] theorem setSide_queue (x : HState) (t : Nat) (d : Side) (v : SideSt) : (x.setSide t d v).queue = x.queue := rfl
@[simp] theorem lane_setSide (x : HState) (t j : Nat) (d : Side) (v : SideSt) : (x.setSide t d v).lane j = x.lane j := rfl
@[simp] theorem rxLane_setSide (x : HState) (t j : Nat) (d : Side) (v : SideSt) : (x.setSide t d v).rxLane j = x.rxLane j := rfl
@[simp] theorem grp_setSide (x : HState) (t j : Nat) (d : Side) (v : SideSt) : (x.setSide t d v).grp j = x.grp j := rfl
@[simp] theorem trib_setSide (x : HState) (t j : Nat) (d : Side) (v : SideSt) : (x.setSide t d v).trib j = x.trib j := rfl
@[simp] theorem queue__setSide (x : HState) (t j : Nat) (d : Side) (v : SideSt) : (x.setSide t d v).queue_ j = x.queue_ j := rfl

@[simp] theorem slot_setSlot (v : SideSt) (i : Nat) (r : SlotRx) : (v.setSlot i r).slot i = r := tabGet_tabSet ..
theorem slot_setSlot_of_ne (v : SideSt) {i j : Nat} (r : SlotRx) (n : j ≠ i) : (v.setSlot i r).slot j = v.slot j :=
  tabGet_tabSet_of_ne _ _ _ n

/-! ## Parts of an image -/

@[simp] theorem key_setKey (im : Image) (h : Nat) (v : KeyEnt) : (im.setKey h v).key h = v := tabGet_tabSet ..
theorem key_setKey_of_ne (im : Image) {h j : Nat} (v : KeyEnt) (n : j ≠ h) : (im.setKey h v).key j = im.key j :=
  tabGet_tabSet_of_ne _ _ _ n
@[simp] theorem setKey_regs (im : Image) (h : Nat) (v : KeyEnt) : (im.setKey h v).regs = im.regs := rfl
@[simp] theorem setKey_seq (im : Image) (h : Nat) (v : KeyEnt) : (im.setKey h v).seq = im.seq := rfl
@[simp] theorem setKey_jobs (im : Image) (h : Nat) (v : KeyEnt) : (im.setKey h v).jobs = im.jobs := rfl
@[simp] theorem setKey_sched (im : Image) (h : Nat) (v : KeyEnt) : (im.setKey h v).sched = im.sched := rfl
@[simp] theorem txA_setKey (im : Image) (h j : Nat) (v : KeyEnt) : (im.setKey h v).txA j = im.txA j := rfl
@[simp] theorem rxA_setKey (im : Image) (h j : Nat) (v : KeyEnt) : (im.setKey h v).rxA j = im.rxA j := rfl
@[simp] theorem fnSt_setKey (im : Image) (h j : Nat) (v : KeyEnt) : (im.setKey h v).fnSt j = im.fnSt j := rfl
@[simp] theorem sa_setKey (im : Image) (h c a : Nat) (d : Dir) (v : KeyEnt) : (im.setKey h v).sa d c a = im.sa d c a := by
  cases d <;> rfl
@[simp] theorem sc_setKey (im : Image) (h c : Nat) (d : Dir) (v : KeyEnt) : (im.setKey h v).sc d c = im.sc d c := by
  cases d <;> rfl

@[simp] theorem txA_setTx (im : Image) (t : Nat) (v : TxAssoc) : (im.setTx t v).txA t = v := tabGet_tabSet ..
theorem txA_setTx_of_ne (im : Image) {t j : Nat} (v : TxAssoc) (n : j ≠ t) : (im.setTx t v).txA j = im.txA j :=
  tabGet_tabSet_of_ne _ _ _ n
@[simp] theorem setTx_regs (im : Image) (t : Nat) (v : TxAssoc) : (im.setTx t v).regs = im.regs := rfl
@[simp] theorem setTx_seq (im : Image) (t : Nat) (v : TxAssoc) : (im.setTx t v).seq = im.seq := rfl
@[simp] theorem setTx_jobs (im : Image) (t : Nat) (v : TxAssoc) : (im.setTx t v).jobs = im.jobs := rfl
@[simp] theorem setTx_sched (im : Image) (t : Nat) (v : TxAssoc) : (im.setTx t v).sched = im.sched := rfl
@[simp] theorem key_setTx (im : Image) (t j : Nat) (v : TxAssoc) : (im.setTx t v).key j = im.key j := rfl
@[simp] theorem rxA_setTx (im : Image) (t j : Nat) (v : TxAssoc) : (im.setTx t v).rxA j = im.rxA j := rfl
@[simp] theorem fnSt_setTx (im : Image) (t j : Nat) (v : TxAssoc) : (im.setTx t v).fnSt j = im.fnSt j := rfl
@[simp] theorem sa_setTx (im : Image) (t c a : Nat) (d : Dir) (v : TxAssoc) : (im.setTx t v).sa d c a = im.sa d c a := by
  cases d <;> rfl
@[simp] theorem sc_setTx (im : Image) (t c : Nat) (d : Dir) (v : TxAssoc) : (im.setTx t v).sc d c = im.sc d c := by
  cases d <;> rfl

@[simp] theorem rxA_setRx (im : Image) (t : Nat) (v : RxAssoc) : (im.setRx t v).rxA t = v := tabGet_tabSet ..
theorem rxA_setRx_of_ne (im : Image) {t j : Nat} (v : RxAssoc) (n : j ≠ t) : (im.setRx t v).rxA j = im.rxA j :=
  tabGet_tabSet_of_ne _ _ _ n
@[simp] theorem setRx_regs (im : Image) (t : Nat) (v : RxAssoc) : (im.setRx t v).regs = im.regs := rfl
@[simp] theorem setRx_seq (im : Image) (t : Nat) (v : RxAssoc) : (im.setRx t v).seq = im.seq := rfl
@[simp] theorem setRx_jobs (im : Image) (t : Nat) (v : RxAssoc) : (im.setRx t v).jobs = im.jobs := rfl
@[simp] theorem setRx_sched (im : Image) (t : Nat) (v : RxAssoc) : (im.setRx t v).sched = im.sched := rfl
@[simp] theorem key_setRx (im : Image) (t j : Nat) (v : RxAssoc) : (im.setRx t v).key j = im.key j := rfl
@[simp] theorem txA_setRx (im : Image) (t j : Nat) (v : RxAssoc) : (im.setRx t v).txA j = im.txA j := rfl
@[simp] theorem fnSt_setRx (im : Image) (t j : Nat) (v : RxAssoc) : (im.setRx t v).fnSt j = im.fnSt j := rfl
@[simp] theorem sa_setRx (im : Image) (t c a : Nat) (d : Dir) (v : RxAssoc) : (im.setRx t v).sa d c a = im.sa d c a := by
  cases d <;> rfl
@[simp] theorem sc_setRx (im : Image) (t c : Nat) (d : Dir) (v : RxAssoc) : (im.setRx t v).sc d c = im.sc d c := by
  cases d <;> rfl

@[simp] theorem fnSt_setFn (im : Image) (fn : Nat) (v : FnSt) : (im.setFn fn v).fnSt fn = v := tabGet_tabSet ..
theorem fnSt_setFn_of_ne (im : Image) {fn j : Nat} (v : FnSt) (n : j ≠ fn) : (im.setFn fn v).fnSt j = im.fnSt j :=
  tabGet_tabSet_of_ne _ _ _ n
@[simp] theorem setFn_regs (im : Image) (fn : Nat) (v : FnSt) : (im.setFn fn v).regs = im.regs := rfl
@[simp] theorem setFn_seq (im : Image) (fn : Nat) (v : FnSt) : (im.setFn fn v).seq = im.seq := rfl
@[simp] theorem setFn_jobs (im : Image) (fn : Nat) (v : FnSt) : (im.setFn fn v).jobs = im.jobs := rfl
@[simp] theorem setFn_sched (im : Image) (fn : Nat) (v : FnSt) : (im.setFn fn v).sched = im.sched := rfl
@[simp] theorem key_setFn (im : Image) (fn j : Nat) (v : FnSt) : (im.setFn fn v).key j = im.key j := rfl
@[simp] theorem txA_setFn (im : Image) (fn j : Nat) (v : FnSt) : (im.setFn fn v).txA j = im.txA j := rfl
@[simp] theorem rxA_setFn (im : Image) (fn j : Nat) (v : FnSt) : (im.setFn fn v).rxA j = im.rxA j := rfl
@[simp] theorem sa_setFn (im : Image) (fn c a : Nat) (d : Dir) (v : FnSt) : (im.setFn fn v).sa d c a = im.sa d c a := by
  cases d <;> rfl
@[simp] theorem sc_setFn (im : Image) (fn c : Nat) (d : Dir) (v : FnSt) : (im.setFn fn v).sc d c = im.sc d c := by
  cases d <;> rfl

@[simp] theorem sc_setSc (im : Image) (d : Dir) (i : Nat) (c : Sc) : (im.setSc d i c).sc d i = c := by
  cases d <;> exact tabGet_tabSet ..
theorem sc_setSc_of_ne (im : Image) (d : Dir) {i j : Nat} (c : Sc) (n : j ≠ i) : (im.setSc d i c).sc d j = im.sc d j := by
  cases d <;> exact tabGet_tabSet_of_ne _ _ _ n
@[simp] theorem sa_setSc (im : Image) (d e : Dir) (i j a : Nat) (c : Sc) : (im.setSc d i c).sa e j a = im.sa e j a := by
  cases d <;> cases e <;> rfl
@[simp] theorem key_setSc (im : Image) (d : Dir) (i h : Nat) (c : Sc) : (im.setSc d i c).key h = im.key h := by cases d <;> rfl

@[simp] theorem sa_setSa (im : Image) (d : Dir) (c a : Nat) (v : Sa) : (im.setSa d c a v).sa d c a = v := by
  cases d <;> exact tabGet_tabSet ..
/-- Another SA of the same direction; ANs are below 4. -/
theorem sa_setSa_of_ne (im : Image) (d : Dir) {c a j b : Nat} (v : Sa) (ha : a < 4) (hb : b < 4) (n : ¬(j = c ∧ b = a)) :
    (im.setSa d c a v).sa d j b = im.sa d j b := by
  have h : 4 * j + b ≠ 4 * c + a := by omega
  cases d <;> exact tabGet_tabSet_of_ne _ _ _ h
@[simp] theorem sc_setSa (im : Image) (d e : Dir) (c a j : Nat) (v : Sa) : (im.setSa d c a v).sc e j = im.sc e j := by
  cases d <;> cases e <;> rfl
@[simp] theorem key_setSa (im : Image) (d : Dir) (c a h : Nat) (v : Sa) : (im.setSa d c a v).key h = im.key h := by
  cases d <;> rfl

@[simp] theorem reg_setReg (im : Image) (fn off : Nat) (w : Word) : (im.setReg fn off w).reg fn off = w := by
  simp [Image.reg, Image.setReg, BitVec.xor_assoc]
@[simp] theorem half_reg_setReg (x : HState) (fn off : Nat) (w : Word) : (x.setReg fn off w).reg fn off = w := by
  simp [HState.reg, HState.setReg, BitVec.xor_assoc]
@[simp] theorem modReg_setModReg (s : State) (off : Nat) (w : Word) : (s.setModReg off w).modReg off = w := by
  simp [State.modReg, State.setModReg, BitVec.xor_assoc]

end Sys2Proof.Machine
end

