-- ==== Sys2Proof/Machine/Layout.lean ====
section
/-! DEFINITION. What the module writes and sends, byte by byte: fields packed under R487, completion and event entries
(Tables 16.7 and 16.8), the ring slots in host memory, descriptor headers (Table 16.5), leaves of a signature (R356), and
the bits of a driven mesh loop (R456).  They are views of what `State.out`, `State.rings` and the operands hold as fields. -/

namespace Sys2Proof.Machine

open Sys2Proof

/-! ## Packing (R487) -/

/-- What an offset of a field is a multiple of: its size, or 8 for larger fields. -/
def fldAlign (f : Fld) : Nat := if f.1 ≤ 1 then 1 else if f.1 ≤ 2 then 2 else if f.1 ≤ 4 then 4 else 8

/-- One field placed after the bytes before it, the gap reserved. -/
def packOne (acc : List Nat) (f : Fld) : List Nat :=
  padTo ((acc.length + fldAlign f - 1) / fldAlign f * fldAlign f) acc ++ fldBytes f

/-- Fields packed in their order.  A byte string stands as a number whose least significant byte is its first.
DEDUCED: notes/assumptions/100.md. -/
def packBytes (fs : List Fld) : List Nat := fs.foldl packOne []

/-- The offset of field `i`. -/
def fldOffset (fs : List Fld) (i : Nat) : Nat :=
  match fs[i]? with
  | some f => (packLen (fs.take i) + fldAlign f - 1) / fldAlign f * fldAlign f
  | none => packLen fs

/-! ## Ring entries (Tables 16.5, 16.7, 16.8) -/

/-- A completion entry (Table 16.7). -/
def Cpl.bytes (c : Cpl) (seq : Nat) (phase : Bool) : List Nat :=
  fldBytes (2, c.op) ++ [b2n phase + 2 * b2n c.table + 4 * c.half.idx, c.status % 256] ++ fldBytes (4, c.tag) ++
    fldBytes (8, seq) ++ fldBytes (4, c.pos) ++ [c.cflags % 256, 0, 0, 0] ++ padTo 40 (packBytes c.result)

/-- TIME of an event on a time base: an instant, or zeros while the time base was invalid (Table 16.8). -/
def Ev.timeFld (e : Ev) (tb : Nat) : Fld :=
  match (e.times.getD tb none) with
  | some v => instFld v
  | none => (16, 0)

/-- An event entry (Table 16.8); ABSORBED saturates. -/
def Ev.bytes (e : Ev) (seq tb : Nat) (phase : Bool) (conts : Nat) : List Nat :=
  fldBytes (2, e.code) ++ [b2n phase + 2 * e.origin.idx, conts] ++ fldBytes (4, min e.absorbed 0xFFFFFFFF) ++
    fldBytes (8, seq) ++ fldBytes (e.timeFld tb) ++ padTo 32 (packBytes e.payload)

/-- A continuation entry: CODE 0xFFFF, its index, and the next 60 bytes of the payload (R488). -/
def Ev.contBytes (e : Ev) (phase : Bool) (index : Nat) : List Nat :=
  [0xFF, 0xFF, b2n phase, index] ++ padTo 60 ((packBytes e.payload).drop (32 + 60 * (index - 1)))

/-- The 64 bytes of an entry, with TIME on the given time base. -/
def Entry.bytes (tb : Nat) : Entry → List Nat
  | .main phase conts n =>
    match n.post with
    | .cpl c => c.bytes n.seq phase
    | .ev e => e.bytes n.seq tb phase conts
    | .due _ => List.replicate 64 0
  | .cont phase index n =>
    match n.post with
    | .ev e => e.contBytes phase index
    | .cpl _ | .due _ => List.replicate 64 0

/-- The bytes of a placed entry: TIME is on the time base of `HIF_EVT_CFG.TB` of its function. -/
def Image.entryBytes (im : Image) (p : Placed) : List Nat := p.entry.bytes (bits (im.reg p.fn 0x10000C) 1 0)

/-- The host address of a slot of a ring: its base and 64 bytes an entry (R480, R481). -/
def Image.slotAddr (im : Image) (fn r pos : Nat) : Nat :=
  bits (im.reg fn (0x100104 + 0x20 * r)) 31 0 * 2 ^ 32 + bits (im.reg fn (0x100100 + 0x20 * r)) 31 12 * 2 ^ 12 +
    64 * (pos % im.ringSize fn r)

/-- A descriptor's header from its bytes: OPCODE, CTRL with PHASE, TAG and EXT_ADDR, all little-endian (Table 16.5). -/
def descOf (dmaOk : Bool) (bs : List Nat) : Desc :=
  { dmaOk, phase := (bs.getD 2 0).testBit 0, opcode := leNat (bs.take 2), tag := leNat ((bs.drop 4).take 4),
    extAddr := leNat ((bs.drop 8).take 8) }

/-- The header as the host writes it. -/
def descHeader (d : Desc) : List Nat :=
  fldBytes (2, d.opcode) ++ [b2n d.phase, 0] ++ fldBytes (4, d.tag) ++ fldBytes (8, d.extAddr)

/-! ## Signatures and mesh loops -/

/-- The fields of a dual signature block and their lengths, 3,700 bytes in all (Table 11.3). -/
def sigBlockLens : List Nat :=
  let lms := 4 + (4 + 32 + 34 * 32) + 4 + 20 * 32
  [48, 48, 4, lms, 4 + 4 + 16 + 32, lms]

/-- One bit of a driven mesh loop and the generator's next state: x^31 + x^28 + 1 (R456). -/
def meshStep (st : Nat) : Bool × Nat :=
  (st.testBit 30, st * 2 % 2 ^ 31 + b2n (st.testBit 30 != st.testBit 27))

/-- A driven loop is in alarm: two mismatches in a row, or eight in the last 4,096 bits, latest first (R456). -/
def meshAlarm (mismatch : List Bool) : Bool :=
  ((mismatch.zip (mismatch.drop 1)).any fun p => p.1 && p.2) ||
    decide (8 ≤ ((mismatch.take 4096).filter id).length)

end Sys2Proof.Machine
end

