-- ==== Sys2Proof/Laws/Wire.lean ====
section
/-! SUPPORT. Lane frames, rows and entries as bytes: descrambling undoes scrambling, precoding is undone, the side
sequence is a numbering of its words, and what is packed has the length and the places that R487 gives. -/

namespace Sys2Proof.Machine

open Sys2Proof

/-- Descrambling is scrambling again (R74). -/
theorem scrambleFrom_scrambleFrom (st : Nat) (bits : List Bool) : scrambleFrom st (scrambleFrom st bits) = bits := by
  induction bits generalizing st with
  | nil => rfl
  | cons b r ih => simp only [scrambleFrom, ih]; cases b <;> cases (scramblerStep st).1 <;> rfl

/-- Scrambling keeps the number of bits. -/
@[simp] theorem scrambleFrom_length (st : Nat) (bits : List Bool) : (scrambleFrom st bits).length = bits.length := by
  induction bits generalizing st with
  | nil => rfl
  | cons b r ih => simp [scrambleFrom, ih]

/-- A receiver that undoes precoding gets the levels that were precoded, when the two ends agree (R56). -/
theorem unprecode_precode (p : Nat) (ls : List Nat) (hp : p < 4) (hl : ∀ l ∈ ls, l < 4) :
    unprecode p (precode p ls) = ls := by
  induction ls generalizing p with
  | nil => rfl
  | cons l r ih =>
    have h := hl l (List.mem_cons_self ..)
    rw [precode, unprecode, ih _ (Nat.mod_lt _ (by decide)) fun x hx => hl x (List.mem_cons_of_mem _ hx)]
    congr 1
    omega

/-- Bytes 0 to 63 of a lane frame are 64 bytes. -/
theorem laneHead_length (ident mfas bip remote ctl : Nat) (seg gob : List Nat) :
    (laneHead ident mfas bip remote ctl seg gob).length = 64 := by simp [laneHead, fasBytes]

/-- The container overhead is 160 bytes. -/
theorem cohBytes_length (trib slot size jc flags cfc pbip prei ctl : Nat) (tmc : List Nat) :
    (cohBytes trib slot size jc flags cfc pbip prei ctl tmc).length = 160 := by simp [cohBytes]

/-- The side sequence numbers the data words of a side: the word at a position has that position (R122, R145). -/
theorem sidePos_sideWord (k q : Nat) : sidePos k (sideWord k q).1 (sideWord k q).2 = q := by
  unfold sideWord
  split
  · rename_i h
    have d : q / k < 971 := Nat.div_lt_of_lt_mul (by rwa [Nat.mul_comm] at h)
    simp only [sidePos, d, if_true]
    rw [Nat.mul_comm]; exact Nat.div_add_mod q k
  · simp only [sidePos, Nat.lt_irrefl, if_false]; omega

/-- One field packed after others. -/
theorem packOne_length (acc : List Nat) (f : Fld) :
    (packOne acc f).length = (acc.length + fldAlign f - 1) / fldAlign f * fldAlign f + f.1 := by simp [packOne]

/-- What is packed has the length that `packLen` counts (R487). -/
theorem packBytes_length (fs : List Fld) : (packBytes fs).length = packLen fs := by
  have h : ∀ (fs : List Fld) (acc : List Nat), (fs.foldl packOne acc).length =
      fs.foldl (fun o f => (o + fldAlign f - 1) / fldAlign f * fldAlign f + f.1) acc.length := by
    intro fs
    induction fs with
    | nil => intro acc; rfl
    | cons f r ih => intro acc; rw [List.foldl_cons, List.foldl_cons, ih, packOne_length]
  exact h fs []

/-- A completion entry is 64 bytes. -/
theorem cplBytes_length (c : Cpl) (seq : Nat) (phase : Bool) : (c.bytes seq phase).length = 64 := by
  simp [Cpl.bytes]

/-- TIME takes 16 bytes. -/
@[simp] theorem timeFld_size (e : Ev) (tb : Nat) : (e.timeFld tb).1 = 16 := by
  unfold Ev.timeFld; split <;> rfl

/-- An entry of a ring is 64 bytes (R480). -/
theorem entryBytes_length (tb : Nat) (e : Entry) : (e.bytes tb).length = 64 := by
  unfold Entry.bytes
  split <;> split <;> simp [Cpl.bytes, Ev.bytes, Ev.contBytes]

/-- The header of a descriptor is 16 bytes. -/
theorem descHeader_length (d : Desc) : (descHeader d).length = 16 := by simp [descHeader]

/-- A key-change message is 28 bytes, so it fits one segment (Table 05.5). -/
theorem keyChangeBytes_length (ty epoch arg1 arg2 : Nat) : (keyChangeBytes ty epoch arg1 arg2).length = 28 := by
  unfold keyChangeBytes
  by_cases h : ty = 0x11 <;> by_cases h' : ty = 0x12 <;> by_cases h'' : ty = 0x13 <;> simp [h, h', h'']

/-- A hail is 96 bytes. -/
theorem hailBody_length (s : State) (x : Half) (ch : Charter) (c : Carrier) (seq : Nat) :
    (s.hailBody x ch c seq).length = 96 := by simp [State.hailBody]

/-- The row of a stripe that holds a block is no row of alignment blocks (R69). -/
theorem stripeRow_data (n m : Nat) : stripeRow n m % 16384 ≠ 0 := by
  unfold stripeRow
  have h := Nat.div_add_mod (m / n) 16383
  have l := Nat.mod_lt (m / n) (show 16383 > 0 by decide)
  omega

/-- The receiving half takes from the deskewed lanes each ferry block as the sending half has striped it (R69). -/
theorem unstripe_stripe (lanes : List Nat) (blocks : Nat → Nat) (m : Nat) :
    unstripe lanes.length (stripe lanes blocks) m = some (blocks m) := by
  have r := stripeRow_data lanes.length m
  have e : stripeRow lanes.length m - 1 - stripeRow lanes.length m / 16384 = m / lanes.length := by
    unfold stripeRow
    have h := Nat.div_add_mod (m / lanes.length) 16383
    have l := Nat.mod_lt (m / lanes.length) (show 16383 > 0 by decide)
    omega
  simp only [unstripe, stripe, r, if_false, e, Option.some.injEq]
  rw [Nat.mul_comm, Nat.div_add_mod]

end Sys2Proof.Machine
end

