-- ==== Sys2Proof/Tests/Slice0.lean ====
section
/-! SUPPORT. Tests: what `Instr.wf` refuses, single steps with results from the spec's worked examples, and for each
statement with hypotheses a state and operands that meet them. -/

-- One theorem after another: a kernel evaluation waits for every theorem before it, each on a thread of its own.
set_option Elab.async false

namespace Sys2Proof.Tests

open Sys2Proof Sys2Proof.Machine Sys2Proof.Claims

/-! ## Operands -/

def okHdr : Hdr := { fn := 0, table := false, pos := 0, tag := 7, on := .A }
def badHdr : Hdr := { okHdr with fn := 16 }
def okTime : TimeVal := { seconds := 0, nanos := 0, subns := 0 }
def okAt : Instant := { time := okTime, reserved := 0 }
def badAt : Instant := { okAt with time := { okTime with nanos := 2 ^ 32 } }
def okSc : ScArgs :=
  { dir := .tx, port := 0, sci := 0, suite := .gcm128, confOffset := 0, domain := 0, mka := false, express := false,
    autoAdvance := false, includeSci := true, useEs := false, useScb := false, clearTags := 0, replayProtect := false,
    replayWindow := 0 }
def okSa : SaArgs := { dir := .tx, sc := 0, an := 0, handle := 0, pn := 1, ssci := 0, pin := false }
def okPfx : PrefixRec := { family := 4, len := 0, bits := 0, result := 0 }
def okStn : StnKey := { domain := 0, vid := 1, mac := 2 }
def badStn : StnKey := { okStn with vid := 4096 }
def okStation : StationRec := { key := okStn, sc := 0, port := 0 }
def okFlush : FlushArgs :=
  { byDomain := false, byPort := false, bySc := false, includeStatic := true, domain := 0, port := 0, sc := 0 }
def okShaper : ShaperArgs :=
  { kind := .queue, index := 0, enable := true, rate := 1, burst := 0, zero := false, w := .immediate }
def okImport : ImportArgs :=
  { parent := 0, kind := 0, len256 := false, xpn := false, addr := 0, material := 0, salt := 0, kcv := none }
def okPairing : Pairing :=
  { member := 0, purpose := .cak128, object := 0, domain := 0, tag := 0, target := 0, auto := false }
def okCa : CaArgs :=
  { port := 0, handle := 0, ckn := [], priority := 0, suites := [.gcm128], confOffset := 0, express := false,
    clearTags := 0, group := false }
def okCurve : Curve := { p := 0, a := 0, b := 0, gx := 0, gy := 0, n := 0, bits := 0 }
def okVerify : VerifyArgs := { alg := .dual, key := [], msg := [], sig := [] }
def okFrame : FrameIn := { id := 1, dst := 2, src := 4, tags := [], etherType := 0x9000, payload := List.replicate 46 0 }
def okSecTag : SecTag :=
  { v := false, es := false, sc := true, scb := false, e := true, c := true, an := 0, sl := 0, pn := 1, sci := 0 }
def okLineFrame : LineFrameIn :=
  { id := 1, dst := 2, src := 4, tags := [], secTag := some okSecTag, etherType := 0, data := List.replicate 48 0,
    icv := List.replicate 16 0 }
def okLaneFrame : LaneFrameIn :=
  { fasErrors := 0, ovhOk := true, ovh := List.replicate 56 0, payload := List.replicate 1020 (0, false), codewords := 0,
    uncorr := 0, corrCw := 0, corrSym := 0, late := 0, overrun := 0, advanceNs := 0 }
def okTx : TxIn := { client := [], hub := [] }
def okLearn : LearnReq := { key := okStn, sc := 0, port := 0, vid := 1 }
def okPiece : Piece :=
  { ty := 1, version := 1, sender := 0, session := 0, piece := 0, pieces := 2, total := 2, data := [0] }
/-- The bytes of a charter with a module member, its membership domain and its charter number (Table 11.6). -/
def charterOf (member mdomain seq : Nat) : Charter :=
  { bytes := ascii "FCHR" ++ [1, 0] ++ leBytes 2 member ++ leBytes 16 mdomain ++ List.replicate 24 0 ++ leBytes 8 seq ++
      List.replicate 3916 0 }
/-- The bytes of an anchor record with its membership domain (Table 11.5). -/
def anchorOf (mdomain : Nat) : Anchor :=
  { bytes := ascii "FANC" ++ [1, 0, 0, 0] ++ leBytes 16 mdomain ++ List.replicate 160 0 }
def okCharter : Charter := charterOf 1 7 1
def okAnchor : Anchor := anchorOf 7
def okHail : HailBody := { mdomain := 0, member := 1, hailMs := 100, digest := 0, run := 1, caps := 0, seq := 1 }

/-! ## Well-formedness -/

/-- Every check of a structure refuses a field that is too wide. -/
theorem test_wf_refuses_wide_fields : [
    hdrWf { okHdr with fn := 16 }, hdrWf { okHdr with pos := 2 ^ 32 }, hdrWf { okHdr with tag := 2 ^ 32 },
    timeWf { okTime with seconds := 2 ^ 64 }, timeWf { okTime with nanos := 2 ^ 32 },
    timeWf { okTime with subns := 2 ^ 16 }, instantWf { okAt with time := { okTime with subns := 65536 } },
    scWf { okSc with port := 256 }, scWf { okSc with sci := 2 ^ 64 }, scWf { okSc with confOffset := 256 },
    scWf { okSc with domain := 256 }, scWf { okSc with clearTags := 256 }, scWf { okSc with replayWindow := 2 ^ 32 },
    saWf { okSa with sc := 2 ^ 16 }, saWf { okSa with an := 256 }, saWf { okSa with handle := 2 ^ 32 },
    saWf { okSa with pn := 2 ^ 64 }, saWf { okSa with ssci := 2 ^ 32 }, prefixWf { okPfx with family := 256 },
    prefixWf { okPfx with len := 256 }, prefixWf { okPfx with bits := 2 ^ 64 }, stnWf { okStn with domain := 16 },
    stnWf { okStn with vid := 4096 }, stnWf { okStn with mac := 2 ^ 48 }, stationWf { okStation with key := badStn },
    stationWf { okStation with sc := 2 ^ 16 }, stationWf { okStation with port := 256 },
    flushWf { okFlush with domain := 256 }, flushWf { okFlush with port := 256 },
    flushWf { okFlush with sc := 2 ^ 16 }, shaperWf { okShaper with index := 2 ^ 32 },
    shaperWf { okShaper with rate := 2 ^ 64 }, shaperWf { okShaper with burst := 2 ^ 32 },
    shaperWf { okShaper with w := .scheduled 0 badAt }, importWf { okImport with parent := 2 ^ 32 },
    importWf { okImport with kind := 256 }, importWf { okImport with addr := 2 ^ 64 },
    importWf { okImport with material := 2 ^ 256 }, importWf { okImport with salt := 2 ^ 96 },
    pairingWf { okPairing with member := 2 ^ 16 }, pairingWf { okPairing with object := 2 ^ 16 },
    pairingWf { okPairing with domain := 256 }, pairingWf { okPairing with tag := 2 ^ 32 },
    pairingWf { okPairing with target := 2 ^ 32 }, caWf { okCa with port := 256 },
    caWf { okCa with handle := 2 ^ 32 }, caWf { okCa with ckn := [256] }, caWf { okCa with priority := 256 },
    caWf { okCa with confOffset := 256 }, caWf { okCa with clearTags := 256 },
    verifyWf { okVerify with key := [256] }, verifyWf { okVerify with msg := [256] },
    verifyWf { okVerify with sig := [256] }, frameWf { okLaneFrame with ovh := [] },
    frameWf { okLaneFrame with payload := [] },
    frameWf { okLaneFrame with payload := List.replicate 1020 (2 ^ 128, false) },
    txWf { okTx with client := [(32, [])] },
    txWf { okTx with hub := [{ t := 32, side := .A, words := 0, pos := 0 }] },
    txWf { okTx with hub := [{ t := 0, side := .A, words := 0, pos := 1018 }] },
    etherWf { okFrame with dst := 2 ^ 48 }, etherWf { okFrame with src := 2 ^ 48 },
    etherWf { okFrame with etherType := 65536 }, etherWf { okFrame with payload := [256] },
    etherWf { okFrame with tags := [{ tpid := 0x9100, tci := 0 }] },
    etherWf { okFrame with tags := [{ tpid := 0x8100, tci := 65536 }] }, lineWf { okLineFrame with dst := 2 ^ 48 },
    lineWf { okLineFrame with src := 2 ^ 48 }, lineWf { okLineFrame with etherType := 65536 },
    lineWf { okLineFrame with icv := [] }, lineWf { okLineFrame with data := [256] },
    lineWf { okLineFrame with secTag := some { okSecTag with an := 4 } }, lineWf { okLineFrame with secTag := none },
    whenWf (.scheduled 255 okAt), carrierWf (.lane 32), carrierWf (.trib 32), carrierWf (.port 32),
    scopeWf (.lane 32), scopeWf (.side 32 .B), testWf (.gcm 16384), testWf (.eye 64 0 0), testWf (.table 2432),
    doorbellWf 16 0 4, doorbellWf 0 65536 2].all (! ·) = true := by decide +kernel

/-- Well-formed steps, one of each kind. -/
theorem test_wf_takes_every_kind_0 : ([
    .tribSwitch okHdr 0 .A false 0 okAt, .tribForce okHdr 0 .tx .ais, .tribCipherBind okHdr 0 0,
    .tribKeyStep okHdr 0 0 okAt, .tribCipherUnbind okHdr 0, .secyScCreate okHdr okSc, .secyScDelete okHdr .tx 0,
    .secySaInstall okHdr okSa, .secySaActivate okHdr 0 0 .immediate, .secySaRetire okHdr .tx 0 0,
    .secySaPin okHdr .tx 0 0 false, .secySaRead okHdr .tx 0 0, .chanWrite okHdr 0 false false false false 0,
    .chanRead okHdr 0 0, .chanBulk okHdr 0 0 0 false [], .trieAdd okHdr okPfx, .trieDel okHdr okPfx,
    .trieBulk okHdr 0 0 [], .trieRebuildBegin okHdr, .trieRebuildCommit okHdr, .trieRebuildAbort okHdr,
    .trieLookup okHdr 0 0, .stnAdd okHdr okStation, .stnDel okHdr okStn, .stnRelease okHdr okStn,
    .stnFlush okHdr okFlush, .stnDump okHdr 0 0, .pairWrite okHdr 0 0, .shaperSet okHdr okShaper,
    .shaperRead okHdr .queue 0, .policerSet okHdr 0 0 0 0, .policerRead okHdr 0, .sampleRead okHdr 0 0 0 false,
    .keyAreaSet okHdr 0 0 0, .domainCreate okHdr 0, .keyImport okHdr okImport, .keyReplace okHdr 0 0 0 0 none,
    .keyInvalidate okHdr 0, .keyFree okHdr 0, .keyQuery okHdr 0 0, .keyProvenance okHdr 0 0 0,
    .envelopeRenew okHdr 0 0 [], .pairingSet okHdr 0 okPairing, .pairingClear okHdr 0, .peerQuery okHdr 0 0,
    .peerRelease okHdr 0, .zkaStart okHdr 0, .zkaCancel okHdr 0, .caBind okHdr 0 okCa, .caUnbind okHdr 0,
    .rekeySet okHdr .tributary 0 0 okAt 0, .rekeyClear okHdr .tributary 0, .pkeCurveLoad okHdr 0 0 okCurve,
    .pkeCurveClear okHdr 0, .pkeVerify okHdr okVerify, .pkeDigest okHdr 0 0 0 [], .pkeIdentity okHdr 0,
    .pkeAttest okHdr 0 0, .pkeCharterRead okHdr 0 0, .timeSet okHdr 0 okAt, .timeOffset okHdr 0 0 okAt,
    .timeRead okHdr 0, .schedList okHdr 0 0, .schedCancel okHdr 0, .latencyRead okHdr 0 0,
    .helmHandover okHdr .immediate 0] :
    List Instr).all Instr.wf = true := by decide +kernel


theorem test_wf_takes_every_kind_1 : ([
    .helmHalfHalt okHdr .A, .helmHalfRestart okHdr .A, .cfgSave okHdr, .cfgExport okHdr 0 0, .cfgImport okHdr 0 0 [],
    .moduleSet okHdr false, .statsSnapshot okHdr 0 0 0 0, .fwStage okHdr 0 0 [], .fwActivate okHdr .A 0,
    .fwCommit okHdr, .fwQuery okHdr 0, .birthRead okHdr 0 0, .enrolAnchor okHdr 0 (List.replicate 184 0),
    .enrolCharter okHdr 0 (List.replicate 3972 0), .idgenAdvance okHdr 0 0 [], .decommission okHdr 0 0 [],
    .cmdPiDoorbell .A 0 0 0 [], .tblPiDoorbell .A 0 0 0 [], .cplCiDoorbell .A 0 0 0, .evtCiDoorbell .A 0 0 0,
    .phaseRetryExpire 0 false, .msixDelayExpire 0 1, .ringEnable .A 0 0 0, .ringDisable .A 0 0 0,
    .functionLevelReset .A 0, .registerWrite .A 0 0 0, .lanePwrWrite .A 0 0 0, .lanePwrMoveDone .A 0,
    .cageModeWrite .A 0 0, .cageSplitWrite .A 0 0, .clientModeWrite .A 0 0, .groupEnableWrite .A 0 0 0,
    .groupRetime .A 0 0 0, .tribEnable .A 0 0 0, .tribDisable .A 0 0 0, .pktPortEnable .A 0 0 0,
    .xpnThreshHiWrite .A 0 0, .usherSeqLoRead .A 0, .keyRunLoRead .A 0, .hssNextLoRead .A 0, .peerHealthLoRead .A 0,
    .pmmFailLoRead .A 0, .cntValLoRead .A 0 0, .timTbNsRead .A 0 0, .fifoCerrRead .A 0, .prbsErrRead .A 0 0 0,
    .pkeLateRead .A 0, .pmmReencCntRead .A 0, .pmmWalkCntRead .A 0, .pmmCorrRead .A 0, .dbStatRead .A 0,
    .ringErrRead .A 0 0, .cntCfgWrite .A 0 0 0, .cntThreshWrite .A 0 0 0, .counterWindowRead .A 0 0 1,
    .counterWrap .A 0 0, .tmpLatchClear .A 0 0, .tmpLockSet .A 0 0, .cagePowerEnWrite .A 0 0 0,
    .protRegionWrite .A 0 .secure 0 0, .protFence .A 0 .secure 0, .processorAccess .A 0 .secure .read 0 1,
    .sidebandRead 0, .mainsApplied false false 0 0, .envelopeColdRecheck 0 0, .halfRailFail .A] :
    List Instr).all Instr.wf = true := by decide +kernel


theorem test_wf_takes_every_kind_2 : ([
    .bootStart .A, .halfReady .A, .halfBClaimTimeout, .boot .A, .dramInitDone .A, .hssStateRebuilt .A, .bootingEnd,
    .powerFail, .railsOff, .psuState 1 false false false 0, .modReset 0, .perst .A, .opticsInsert 0, .opticsRemove 0,
    .opticsReady 0 0 0, .cageOvercurrent 0 0, .fanFail 0, .fanTrayRemove, .fanTrayInsert, .thermalWarn .outlet 0,
    .thermalTrip .outlet 0, .thermalRestart 0 0, .refLock 0, .refLoss, .ppsEdge 0 okTime, .ppsLoss 0,
    .ppsOutputPulse 0, .servoSample 0 0 0 0, .servoHoldover 0, .ptpMessageRx 0 [], .schedFire 0, .schedLateFire 0,
    .signalChange .A 0 false false, .laneAdapted .A 0 0 0 0, .slipwaySupply 0 .tx 1 false,
    .slipwayFault 0 .tx .supplies, .ferryLaneLock .A { lane := 0, headers := [] },
    .ferryLaneUnlock .A { lane := 0, headers := [], lost := false }, .ferryLaneAdmit .A { lane := 0, at_ := 0 },
    .halfHalt .A 1 0, .paceGovernorRun .A (List.replicate 16 0) [], .laneFrameTx .A okTx, .pointerAdjust .A 0 .A,
    .fasMatch .A 0 0 0, .soundingCheck .A 0 0 0 0, .laneFrameRx .A 0 okLaneFrame, .retimeInForce .A 0,
    .degWindowEnd .A (.lane 0), .containerRowRx .A 0 .A 0 0, .tmcMessageRx .A 0 [],
    .clientFault .A { t := 0, fec := false, pcs := false },
    .clientFaultClear .A 0, .spanVerdict .A 0 [], .keyNextRx 0 0 0 0 0, .keyReadyRx 0 0 0, .keyConfirmRx 0 0 0,
    .keyRefuseRx 0 0 0, .keyNextResend 0, .epochSwitch 0, .txKeyRetire 0, .txKeyRevert 0, .rxKeyRetire 0,
    .keyConfirmResend 0, .spanCountRekey 0, .clientFrameRx .A 0 okFrame, .schedulerPick .A { egress := 0 }] :
    List Instr).all Instr.wf = true := by decide +kernel


theorem test_wf_takes_every_kind_3 : ([
    .lineFrameRx .A 0 okLineFrame, .frameVerdict .A 0 false false false, .stationLearn .A okLearn,
    .saLoadComplete .A .tx 0 0,
    .holdExpire .A 0, .preemptVerify .A 0 false, .refillTick .A, .channelAgingSweep, .stationAgingSweep,
    .stationMoorExpire okStn, .trieNodeRelease, .trieBankRelease, .cascadeGraceEnd 0,
    .keyLoad 0 false (List.replicate 128 0), .keyCommitDurable 0, .journalCompaction false, .hailSend (.lane 0),
    .peerPieceRx .A (.lane 0) okPiece, .reassemblyTimeout .A (.lane 0) 0 0 0, .hailRx .A (.lane 0) okHail,
    .carrierLoss 0 (.lane 0), .peerMoorExpire 0, .zkaAutoStart 0, .zkaOfferRx (.lane 0) { session := 0, body := [] },
    .zkaAnswerRx (.lane 0) { session := 0, body := [] }, .zkaFinishRx (.lane 0) { session := 0, body := [] },
    .zkaDoneRx (.lane 0) 0 [], .zkaAbortRx (.lane 0) 0 0,
    .charterReqRx (.lane 0) 0 0, .charterRx (.lane 0) 0 [], .zkaFinishResend 0, .zkaSessionTimeout 0,
    .zkaClosedExpire 0, .mkpduRx 0 okFrame, .mkaHello 0, .mkaLifeExpire 0 .sak, .cwyReplaceStep 0,
    .pkeRelease .A 0 0 false, .pkeKatDone .A false, .crossingEnd .A false, .crossingCopyRx .A 0, .crossingAckRx .A 0,
    .copyNakRx .A 0, .frameMark .A 0, .relinquish .A, .takeoverSilent .A, .reclaim .A, .haltRx .A,
    .claimPreferredSeen .A, .claimLoss .A, .finalSeal .A, .handoverReclaim .A, .rejoinRequest .A, .rejoinComplete .A,
    .selftestRun .A .scrub false, .usherEvent .A .command, .dramRead .A 0 0 0 0 {}, .dramWrite .A 0 0 1 0 [],
    .tamperAlarm [], .cellCheck 0 0 false false, .flashRecordDurable 0, .dmaTransferEnd okHdr false,
    .sourceLeavesAlarm { src := 0, sensor0 := 0, sensor1 := 0 }, .pcieLinkChange .A false,
    .thermalWarnClear .outlet 0, .clientPcsRestartDone .A 0] :
    List Instr).all Instr.wf = true := by decide +kernel

/-- For each check of `Instr.wf` a step that fails it. -/
theorem test_wf_refuses_each_check_0 : ([
    .tribSwitch badHdr 0 .A false 0 okAt, .tribSwitch okHdr 0 .A false 0 badAt,
    .tribSwitch okHdr 256 .A false 0 okAt, .tribSwitch okHdr 0 .A false 256 okAt, .tribForce badHdr 0 .tx .ais,
    .tribForce okHdr 256 .tx .ais, .tribCipherBind badHdr 0 0, .tribCipherBind okHdr 256 0,
    .tribCipherBind okHdr 0 (2 ^ 32), .tribKeyStep badHdr 0 0 okAt, .tribKeyStep okHdr 0 0 badAt,
    .tribKeyStep okHdr 256 0 okAt, .tribKeyStep okHdr 0 256 okAt, .tribCipherUnbind badHdr 0,
    .tribCipherUnbind okHdr 256, .secyScCreate badHdr okSc, .secyScCreate okHdr { okSc with confOffset := 256 },
    .secyScDelete badHdr .tx 0, .secyScDelete okHdr .tx (2 ^ 16), .secySaInstall badHdr okSa,
    .secySaInstall okHdr { okSa with an := 256 }, .secySaActivate badHdr 0 0 .immediate,
    .secySaActivate okHdr 0 0 (.scheduled 255 okAt), .secySaActivate okHdr (2 ^ 16) 0 .immediate,
    .secySaActivate okHdr 0 256 .immediate, .secySaRetire badHdr .tx 0 0, .secySaRetire okHdr .tx (2 ^ 16) 0,
    .secySaRetire okHdr .tx 0 256, .secySaPin badHdr .tx 0 0 false, .secySaPin okHdr .tx (2 ^ 16) 0 false,
    .secySaPin okHdr .tx 0 256 false, .secySaRead badHdr .tx 0 0, .secySaRead okHdr .tx (2 ^ 16) 0,
    .secySaRead okHdr .tx 0 256, .chanWrite badHdr 0 false false false false 0,
    .chanWrite okHdr (2 ^ 32) false false false false 0, .chanRead badHdr 0 0, .chanRead okHdr (2 ^ 32) 0,
    .chanRead okHdr 0 (2 ^ 64), .chanBulk badHdr 0 0 0 false [], .chanBulk okHdr (2 ^ 32) 0 0 false [],
    .chanBulk okHdr 0 (2 ^ 32) 0 false [], .chanBulk okHdr 0 0 (2 ^ 64) false [], .trieAdd badHdr okPfx,
    .trieAdd okHdr { okPfx with family := 256 }, .trieDel badHdr okPfx, .trieDel okHdr { okPfx with family := 256 },
    .trieBulk okHdr 0 0 [{ okPfx with len := 256 }], .trieBulk badHdr 0 0 [], .trieBulk okHdr (2 ^ 32) 0 []] :
    List Instr).all (!·.wf) = true := by decide +kernel


theorem test_wf_refuses_each_check_1 : ([
    .trieBulk okHdr 0 (2 ^ 64) [], .trieRebuildBegin badHdr, .trieRebuildCommit badHdr, .trieRebuildAbort badHdr,
    .trieLookup badHdr 0 0, .trieLookup okHdr 256 0, .trieLookup okHdr 0 (2 ^ 128), .stnAdd badHdr okStation,
    .stnAdd okHdr { okStation with port := 256 }, .stnDel badHdr okStn, .stnDel okHdr { okStn with vid := 4096 },
    .stnRelease badHdr okStn, .stnRelease okHdr { okStn with vid := 4096 }, .stnFlush badHdr okFlush,
    .stnFlush okHdr { okFlush with domain := 256 }, .stnDump badHdr 0 0, .stnDump okHdr (2 ^ 32) 0,
    .stnDump okHdr 0 (2 ^ 64), .pairWrite badHdr 0 0, .pairWrite okHdr (2 ^ 16) 0, .shaperSet badHdr okShaper,
    .shaperSet okHdr { okShaper with rate := 2 ^ 64 }, .shaperRead badHdr .queue 0,
    .shaperRead okHdr .queue (2 ^ 32), .policerSet badHdr 0 0 0 0, .policerSet okHdr (2 ^ 16) 0 0 0,
    .policerSet okHdr 0 (2 ^ 64) 0 0, .policerSet okHdr 0 0 (2 ^ 32) 0, .policerSet okHdr 0 0 0 (2 ^ 32),
    .policerRead badHdr 0, .policerRead okHdr (2 ^ 16), .sampleRead badHdr 0 0 0 false,
    .sampleRead okHdr (2 ^ 32) 0 0 false, .sampleRead okHdr 0 (2 ^ 32) 0 false, .sampleRead okHdr 0 0 (2 ^ 64) false,
    .keyAreaSet badHdr 0 0 0, .keyAreaSet okHdr 256 0 0, .keyAreaSet okHdr 0 (2 ^ 64) 0,
    .keyAreaSet okHdr 0 0 (2 ^ 32), .domainCreate badHdr 0, .domainCreate okHdr 256, .keyImport badHdr okImport,
    .keyImport okHdr { okImport with kind := 256 }, .keyReplace badHdr 0 0 0 0 none,
    .keyReplace okHdr (2 ^ 32) 0 0 0 none, .keyReplace okHdr 0 (2 ^ 32) 0 0 none,
    .keyReplace okHdr 0 0 (2 ^ 64) 0 none, .keyReplace okHdr 0 0 0 (2 ^ 256) none, .keyInvalidate badHdr 0,
    .keyInvalidate okHdr (2 ^ 32)] :
    List Instr).all (!·.wf) = true := by decide +kernel


theorem test_wf_refuses_each_check_2 : ([
    .keyFree badHdr 0, .keyFree okHdr (2 ^ 32), .keyQuery badHdr 0 0, .keyQuery okHdr (2 ^ 32) 0,
    .keyQuery okHdr 0 (2 ^ 64), .keyProvenance badHdr 0 0 0, .keyProvenance okHdr (2 ^ 32) 0 0,
    .keyProvenance okHdr 0 (2 ^ 256) 0, .keyProvenance okHdr 0 0 (2 ^ 64), .envelopeRenew badHdr 0 0 [],
    .envelopeRenew okHdr 0 1 [256], .envelopeRenew okHdr 0 1 [], .envelopeRenew okHdr (2 ^ 64) 0 [],
    .pairingSet badHdr 0 okPairing, .pairingSet okHdr 0 { okPairing with member := 2 ^ 16 },
    .pairingSet okHdr (2 ^ 32) okPairing, .pairingClear badHdr 0, .pairingClear okHdr (2 ^ 32),
    .peerQuery badHdr 0 0, .peerQuery okHdr (2 ^ 16) 0, .peerQuery okHdr 0 (2 ^ 64), .peerRelease badHdr 0,
    .peerRelease okHdr (2 ^ 16), .zkaStart badHdr 0, .zkaStart okHdr (2 ^ 32), .zkaCancel badHdr 0,
    .zkaCancel okHdr (2 ^ 32), .caBind badHdr 0 okCa, .caBind okHdr 0 { okCa with priority := 256 },
    .caBind okHdr (2 ^ 32) okCa, .caUnbind badHdr 0, .caUnbind okHdr (2 ^ 32),
    .rekeySet badHdr .tributary 0 0 okAt 0, .rekeySet okHdr .tributary 0 0 badAt 0,
    .rekeySet okHdr .tributary (2 ^ 32) 0 okAt 0, .rekeySet okHdr .tributary 0 256 okAt 0,
    .rekeySet okHdr .tributary 0 0 okAt (2 ^ 32), .rekeyClear badHdr .tributary 0,
    .rekeyClear okHdr .tributary (2 ^ 32), .pkeCurveLoad badHdr 0 0 okCurve, .pkeCurveLoad okHdr 256 0 okCurve,
    .pkeCurveLoad okHdr 0 (2 ^ 64) okCurve, .pkeCurveClear badHdr 0, .pkeCurveClear okHdr 256,
    .pkeVerify badHdr okVerify, .pkeVerify okHdr { okVerify with msg := [256] }, .pkeDigest badHdr 0 0 0 [],
    .pkeDigest okHdr 256 0 0 [], .pkeIdentity badHdr 0, .pkeIdentity okHdr (2 ^ 64)] :
    List Instr).all (!·.wf) = true := by decide +kernel


theorem test_wf_refuses_each_check_3 : ([
    .pkeAttest badHdr 0 0, .pkeAttest okHdr (2 ^ 256) 0, .pkeAttest okHdr 0 (2 ^ 64), .pkeCharterRead badHdr 0 0,
    .pkeCharterRead okHdr (2 ^ 64) 0, .pkeCharterRead okHdr 0 (2 ^ 32), .timeSet badHdr 0 okAt,
    .timeSet okHdr 0 badAt, .timeSet okHdr 256 okAt, .timeOffset badHdr 0 0 okAt, .timeOffset okHdr 0 0 badAt,
    .timeOffset okHdr 256 0 okAt, .timeRead badHdr 0, .timeRead okHdr (2 ^ 64), .schedList badHdr 0 0,
    .schedList okHdr (2 ^ 64) 0, .schedList okHdr 0 (2 ^ 32), .schedCancel badHdr 0, .schedCancel okHdr (2 ^ 16),
    .latencyRead badHdr 0 0, .latencyRead okHdr 256 0, .latencyRead okHdr 0 (2 ^ 64),
    .helmHandover badHdr .immediate 0, .helmHandover okHdr (.scheduled 255 okAt) 0,
    .helmHandover okHdr .immediate (2 ^ 32), .helmHalfHalt badHdr .A, .helmHalfRestart badHdr .A, .cfgSave badHdr,
    .cfgExport badHdr 0 0, .cfgExport okHdr (2 ^ 64) 0, .cfgExport okHdr 0 (2 ^ 32), .cfgImport badHdr 0 0 [],
    .moduleSet badHdr false, .statsSnapshot badHdr 0 0 0 0, .statsSnapshot okHdr 256 0 0 0,
    .statsSnapshot okHdr 0 (2 ^ 32) 0 0, .statsSnapshot okHdr 0 0 (2 ^ 32) 0, .statsSnapshot okHdr 0 0 0 (2 ^ 64),
    .fwStage badHdr 0 0 [], .fwActivate badHdr .A 0, .fwActivate okHdr .A 256, .fwCommit badHdr, .fwQuery badHdr 0,
    .fwQuery okHdr (2 ^ 64), .birthRead badHdr 0 0, .birthRead okHdr (2 ^ 64) 0, .birthRead okHdr 0 (2 ^ 32),
    .enrolAnchor badHdr 0 (List.replicate 184 0), .enrolAnchor okHdr 0 [],
    .enrolCharter badHdr 0 (List.replicate 3972 0)] :
    List Instr).all (!·.wf) = true := by decide +kernel


theorem test_wf_refuses_each_check_4 : ([
    .enrolCharter okHdr 0 [], .idgenAdvance badHdr 0 0 [], .decommission badHdr 0 0 [], .cmdPiDoorbell .A 16 0 0 [],
    .cmdPiDoorbell .A 0 1 0 [], .tblPiDoorbell .A 16 0 0 [], .tblPiDoorbell .A 0 1 0 [], .cplCiDoorbell .A 16 0 0,
    .cplCiDoorbell .A 0 1 0, .evtCiDoorbell .A 16 0 0, .evtCiDoorbell .A 0 1 0, .phaseRetryExpire 16 false,
    .phaseRetryExpire 1 true, .msixDelayExpire 16 1, .msixDelayExpire 0 3, .ringEnable .A 16 0 0,
    .ringEnable .A 0 4 0, .ringDisable .A 16 0 0, .ringDisable .A 0 4 0, .functionLevelReset .A 16,
    .registerWrite .A 16 0 0, .lanePwrWrite .A 16 0 0, .lanePwrWrite .A 0 64 0, .lanePwrMoveDone .A 64,
    .cageModeWrite .A 16 0, .cageSplitWrite .A 16 0, .clientModeWrite .A 16 0, .groupEnableWrite .A 16 0 0,
    .groupEnableWrite .A 0 16 0, .groupRetime .A 16 0 0, .groupRetime .A 0 16 0, .tribEnable .A 16 0 0,
    .tribEnable .A 0 32 0, .tribDisable .A 16 0 0, .tribDisable .A 0 32 0, .pktPortEnable .A 16 0 0,
    .pktPortEnable .A 0 32 0, .xpnThreshHiWrite .A 16 0, .usherSeqLoRead .A 16, .keyRunLoRead .A 16,
    .hssNextLoRead .A 16, .peerHealthLoRead .A 16, .pmmFailLoRead .A 16, .cntValLoRead .A 16 0,
    .cntValLoRead .A 0 256, .timTbNsRead .A 16 0, .timTbNsRead .A 0 4, .fifoCerrRead .A 16, .prbsErrRead .A 16 0 0,
    .prbsErrRead .A 0 64 0] :
    List Instr).all (!·.wf) = true := by decide +kernel


theorem test_wf_refuses_each_check_5 : ([
    .pkeLateRead .A 16, .pmmReencCntRead .A 16, .pmmWalkCntRead .A 16, .pmmCorrRead .A 16, .dbStatRead .A 16,
    .ringErrRead .A 16 0, .ringErrRead .A 0 4, .cntCfgWrite .A 16 0 0, .cntCfgWrite .A 0 256 0,
    .cntThreshWrite .A 16 0 0, .cntThreshWrite .A 0 256 0, .counterWindowRead .A 16 0 1, .counterWindowRead .A 0 0 0,
    .counterWindowRead .A 0 4093 4, .counterWrap .A 256 0, .tmpLatchClear .A 16 0, .tmpLockSet .A 16 0,
    .cagePowerEnWrite .A 16 0 0, .cagePowerEnWrite .A 0 8 0, .protRegionWrite .A 5 .secure 0 0,
    .protRegionWrite .A 0 .secure 0x100 0, .protFence .A 5 .secure 0, .processorAccess .A 5 .secure .read 0 1,
    .processorAccess .A 0 .system .read 0 0, .processorAccess .A 0 .system .read 4294967295 2,
    .psuState 3 false false false 0, .opticsInsert 8, .opticsRemove 8, .opticsReady 8 0 0, .cageOvercurrent 8 0,
    .fanFail 4, .ppsEdge 2 okTime, .ppsLoss 2, .ppsOutputPulse 2, .servoSample 4 0 0 0, .servoSample 0 5 0 0,
    .servoHoldover 4, .ptpMessageRx 64 [], .ptpMessageRx 0 [256], .schedFire 256, .schedLateFire 256,
    .signalChange .A 64 false false, .laneAdapted .A 64 0 0 0, .laneAdapted .A 0 41 0 0, .laneAdapted .A 0 0 256 0,
    .laneAdapted .A 0 0 0 256, .slipwaySupply 64 .tx 1 false, .slipwaySupply 0 .tx 0 true,
    .slipwayFault 64 .tx .supplies, .ferryLaneLock .A { lane := 8, headers := [] }] :
    List Instr).all (!·.wf) = true := by decide +kernel


theorem test_wf_refuses_each_check_6 : ([
    .ferryLaneLock .A { lane := 0, headers := [4] }, .ferryLaneUnlock .A { lane := 8, headers := [], lost := false },
    .ferryLaneUnlock .A { lane := 0, headers := [4], lost := false }, .ferryLaneAdmit .A { lane := 8, at_ := 0 },
    .halfHalt .A 8 0, .halfHalt .A 1 1024, .halfHalt .A 0 0, .paceGovernorRun .A [] [],
    .laneFrameTx .A { okTx with client := [(32, [])] }, .pointerAdjust .A 32 .A, .fasMatch .A 32 0 0,
    .fasMatch .A 0 0 256, .soundingCheck .A 32 0 0 0, .soundingCheck .A 0 0 0 256,
    .laneFrameRx .A 0 { okLaneFrame with ovh := [] }, .laneFrameRx .A 32 okLaneFrame, .retimeInForce .A 16,
    .degWindowEnd .A (.side 32 .A), .containerRowRx .A 32 .A 0 0, .containerRowRx .A 0 .A 8 0,
    .containerRowRx .A 0 .A 0 256, .tmcMessageRx .A 32 [], .tmcMessageRx .A 0 [256],
    .clientFault .A { t := 32, fec := false, pcs := false },
    .clientFaultClear .A 32, .spanVerdict .A 32 [], .keyNextRx 32 0 0 0 0, .keyReadyRx 32 0 0, .keyConfirmRx 32 0 0,
    .keyConfirmRx 0 0 (2 ^ 64), .keyRefuseRx 32 0 0, .keyNextResend 32, .epochSwitch 32, .txKeyRetire 32,
    .txKeyRevert 32, .rxKeyRetire 32, .keyConfirmResend 32, .spanCountRekey 32,
    .clientFrameRx .A 0 { okFrame with dst := 2 ^ 48 }, .clientFrameRx .A 32 okFrame,
    .schedulerPick .A { egress := 64 },
    .lineFrameRx .A 0 { okLineFrame with icv := [] }, .lineFrameRx .A 32 okLineFrame,
    .stationLearn .A { okLearn with key := badStn }, .stationLearn .A { okLearn with port := 32 },
    .stationLearn .A { okLearn with sc := 8192 }, .stationLearn .A { okLearn with vid := 4096 },
    .saLoadComplete .A .tx 0 4, .saLoadComplete .A .tx 4096 0, .saLoadComplete .A .rx 8192 0] :
    List Instr).all (!·.wf) = true := by decide +kernel


theorem test_wf_refuses_each_check_7 : ([
    .preemptVerify .A 32 false, .stationMoorExpire { okStn with vid := 4096 }, .cascadeGraceEnd (2 ^ 32),
    .keyLoad (2 ^ 32) false (List.replicate 128 0), .keyLoad 0 true (List.replicate 127 0),
    .keyLoad 0 true (List.replicate 128 256), .keyCommitDurable (2 ^ 32), .hailSend (.trib 32),
    .peerPieceRx .A (.trib 32) okPiece, .peerPieceRx .A (.lane 0) { okPiece with data := [256] },
    .reassemblyTimeout .A (.trib 32) 0 0 0, .hailRx .A (.trib 32) okHail, .carrierLoss 0 (.trib 32),
    .carrierLoss 8192 (.lane 0), .peerMoorExpire 8192, .zkaAutoStart 2048,
    .zkaOfferRx (.trib 32) { session := 0, body := [] },
    .zkaAnswerRx (.trib 32) { session := 0, body := [] }, .zkaFinishRx (.trib 32) { session := 0, body := [] },
    .zkaDoneRx (.trib 32) 0 [],
    .zkaDoneRx (.lane 0) (2 ^ 32) [], .zkaDoneRx (.lane 0) 0 [256], .zkaAbortRx (.trib 32) 0 0,
    .charterReqRx (.trib 32) 0 0, .charterReqRx (.lane 0) 8192 0, .charterRx (.trib 32) 0 [],
    .charterRx (.lane 0) 8192 [], .mkpduRx 1024 okFrame, .mkaHello 1024, .mkaLifeExpire 1024 .sak,
    .cwyReplaceStep 32, .pkeRelease .A 4 0 false, .selftestRun .A (.table 2432) false, .dramRead .A 7 0 0 0 {},
    .dramRead .A 0 234881024 0 0 {}, .dramWrite .A 7 0 1 0 [], .dramWrite .A 0 0 0 0 [],
    .dramWrite .A 0 15032385535 2 0 [], .tamperAlarm [0, 21], .dmaTransferEnd badHdr false,
    .sourceLeavesAlarm { src := 21, sensor0 := 0, sensor1 := 0 }, .clientPcsRestartDone .A 32] :
    List Instr).all (!·.wf) = true := by decide +kernel

/-! ## Small states -/

/-- A half that has booted, in a helm state. -/
def booted (st : HelmSt) (claim : Bool) : HState :=
  { boot := { powered := true, started := true, ready := true, hssReady := true, dramDone := true, linkUp := true },
    helm := { st, claim, gen := if claim then 1 else 0, maxSeen := 1, copyGen := 1 } }

/-- The running module with half A alone. -/
def solo : State :=
  { phase := .running, a := booted .activeSolo true, b := {}, board := { power := .on }, lastState := 4,
    tam := { onCell := false } }

/-- Four ferry lanes in use. -/
def ferry4 : Tab FerryLane := (List.range 4).map fun k => (k, { locked := true, inUse := true })

/-- The running module with half B in step, and the ferry link up. -/
def pair : State :=
  { solo with a := { booted .activePaired true with ferry := ferry4 },
              b := { booted .inStep false with ferry := ferry4 }, lastState := 2 }

/-- The module `s` with half A changed. -/
def withA (s : State) (f : HState → HState) : State := s.modHalf .A f
/-- The module `s` with the image of half A changed. -/
def imgA (s : State) (f : Image → Image) : State := s.modImg .A f
/-- The module `s` with paired registers of the physical function set on half A. -/
def regsA (s : State) (l : List (Nat × Word)) : State := l.foldl (fun s p => imgA s (·.setReg 0 p.1 p.2)) s
/-- The module `s` with the state of a function's rings changed on half A. -/
def fnA (s : State) (fn : Nat) (f : FnSt) : State := imgA s (·.setFn fn f)
/-- The module `s` with keys in the key register of half A. -/
def keysA (s : State) (l : List (Nat × KeyEnt)) : State := imgA s fun im => { im with keys := l }

/-- A header of a command of a function on the command or table ring of half A. -/
def onRing (fn : Nat) (table : Bool) : Hdr := { okHdr with fn, table }
/-- A header on the table ring of the physical function. -/
def tblHdr : Hdr := onRing 0 true

theorem executes_iff (s : State) (h : Hdr) (op : Nat) (x : Half) :
    Executes s h op x ↔ s.executor h = some x ∧ h.on = x ∧ wrongRing h op = false := Iff.rfl

/-! ## Witnesses: the block and its reads -/

theorem witness_StepTakesTheFrontOfTheQueue :
    ({ solo with pending := [.refLoss, .powerFail] } : State).pending = .refLoss :: [.powerFail] := by decide

theorem witness_IdleStepIsOneTick : solo.pending = [] ∧ (solo.half .B).up = false ∧ (solo.half .A).up = true ∧
    ((solo.half .A).tb 3).rate = 0 ∧ ((solo.half .A).tb 3).acc = 0 := by decide

theorem witness_EveryWellFormedStepRuns : (Instr.laneAdapted .A 63 40 255 255).wf = true ∧
    (Instr.dramRead .B 6 234881023 0 0 {}).wf = true := by decide

theorem witness_NoStepTouchesTheQueue : ∃ t, exec (.sidebandRead 0) { solo with pending := [.refLoss] } = .next t :=
  ⟨_, rfl⟩

theorem witness_OtpNeverFalls : ∃ t, step { solo with pending := [.refLoss] } = .next t := ⟨_, rfl⟩

theorem witness_StepsKeepMemoriesCanonical : (∃ t, step { solo with pending := [.refLoss] } = .next t) ∧
    MemoriesCanonical { solo with pending := [.refLoss], host := [(4, [(1, 2)])],
                                  a := { solo.a with dram := { data := [(0, 1), (1, 255), (9, 3)] } } } :=
  ⟨⟨_, rfl⟩, by simp only [MemoriesCanonical, solo, booted, cellsFrom]; decide⟩

theorem witness_CommandsNeedAServingHalf : command (.domainCreate okHdr 0) = some (okHdr, 0x0102) ∧
    State.reset.executor okHdr = none ∧ ({ solo with phase := .booting } : State).executor okHdr = none := by decide

theorem witness_StandbyCommandsAreTurnedAway : command (.domainCreate { okHdr with on := .B } 0) =
      some ({ okHdr with on := .B }, 0x0102) ∧ pair.executor { okHdr with on := .B } = some .A ∧
    ({ okHdr with on := .B } : Hdr).on ≠ .A := by decide

theorem witness_WrongRingIsRejected : solo.executor tblHdr = some .A ∧
    wrongRing tblHdr 0x0200 = true ∧ wrongRing tblHdr 0x0232 = true ∧
    wrongRing okHdr 0x0201 = true ∧ wrongRing okHdr 0x0231 = true ∧ tblHdr.on = .A := by decide

theorem witness_Executes : Executes solo okHdr 0x0102 .A ∧ Executes solo tblHdr 0x0201 .A ∧
    Executes solo tblHdr 0x0231 .A ∧ Executes pair (onRing 15 false) 0x0103 .A := by
  simp only [executes_iff]; decide

theorem witness_ReadClearCountsClear : ∃ s : State, bits ((s.half .A).reg 0 0x300) 9 0 = 639 :=
  ⟨withA solo (·.setReg 0 0x300 639), by decide⟩

theorem witness_ReadClearCountsClear_beyond : 640 ≤ bits (((withA solo (·.setReg 0 0x300 640)).half .A).reg 0 0x300) 9 0 := by
  decide

/-- Counter 255 open to function 15. -/
def openCtr : State := withA solo fun y =>
  { y.setReg 0 0x1001000 0x8000 with ctrs := [(255, { cfg := 0xCF010000, val := 2 ^ 48 - 1, sticky := true })] }

theorem witness_CounterReadsAreOneSample : (openCtr.half .A).winOpen 15 255 = true ∧
    ((openCtr.half .A).ctr 255).val < 2 ^ 48 ∧ (openCtr.half .A).winOpen 0 255 = false := by decide

theorem witness_CountersReprogramAndWrap :
    cntSettingOk (newWord 0x1000FF0 ((solo.half .A).ctr 255).cfg 0x8001027F) = true ∧ bits (0x8001027F : Word) 29 28 ≤ 2 ∧
    cntSettingOk (newWord 0x1000FF0 ((solo.half .A).ctr 255).cfg 0x80010280) = false := by decide

theorem witness_CountersReprogramAndWrap_wrap :
    ∃ s : State, ∃ c : Ctr, c = (s.half .A).ctr 255 ∧ (s.half .A).up = true ∧ bit c.cfg 31 = true ∧
      bit c.cfg 30 = false ∧ 2 ^ 48 ≤ c.val + 1 ∧ bits c.cfg 29 28 = 0 :=
  ⟨withA solo fun y => { y with ctrs := [(255, { cfg := 0x80010000, val := 2 ^ 48 - 1 })] }, _, rfl, by decide⟩

/-! ## Witnesses: doorbells and rings -/

/-- All four rings of function 0 are enabled with 64 entries. -/
def ringed : State :=
  regsA solo [(0x100108, 0x80060000), (0x100128, 0x80060000), (0x100148, 0x80060000), (0x100168, 0x80060000)]

def okDesc : Desc := { dmaOk := true, phase := true, opcode := 0x0102, tag := 7, extAddr := 0 }

theorem witness_DoorbellTakesTheNextDescriptor : ∀ r, r = 0 ∨ r = 3 → ringed.holder = some .A ∧ ringed.phase = .running ∧
    (ringed.half .A).helm.handover = none ∧ (ringed.img .A).ringEn 0 r = true ∧
    (((ringed.img .A).fnSt 0).ring r).stalled = false ∧ (((ringed.img .A).fnSt 0).ring r).waiting = [] ∧
    (((ringed.img .A).fnSt 0).ring r).retryAt = none ∧ (((ringed.img .A).fnSt 0).ring r).count < 2 ^ 32 - 1 ∧
    ((ringed.img .A).fnSt 0).tbl.waiting = [] ∧ ((ringed.img .A).fnSt 0).cmd.waiting = [] ∧
    (ringed.img .A).cplRoom 0 = true ∧ okDesc.dmaOk = true ∧
    okDesc.phase = phaseOf (((ringed.img .A).fnSt 0).ring r).count ((ringed.img .A).ringSize 0 r) := by
  rintro r (rfl | rfl) <;> decide

/-- The command ring of function 15 has waited for a PHASE since the instant 0. -/
def retrying : State := fnA { solo with now := 2000 } 15 { cmd := { retryAt := some 0 } }

theorem witness_PhaseMismatchStallsAfterTwoMicroseconds : retrying.holder = some .A ∧
    (((retrying.img .A).fnSt 15).ring 0).retryAt = some 0 ∧ 0 + 2000 ≤ retrying.now ∧
    ({ retrying with now := 1999 } : State).now < 0 + 2000 := by decide

/-- 3 entries stand on each ring of function 0 that the module writes, of which the host has taken 1. -/
def used : State := fnA ringed 0 { cpl := { count := 3, db := 1 }, evt := { count := 3, db := 1 } }

theorem witness_ConsumerDoorbellsFreeEntries : used.holder = some .A ∧ (used.img .A).ringEn 0 1 = true ∧
    (used.img .A).ringEn 0 2 = true ∧ ((used.img .A).fnSt 0).cpl.db ≤ 3 ∧ 3 ≤ ((used.img .A).fnSt 0).cpl.count ∧
    ((used.img .A).fnSt 0).evt.db ≤ 3 ∧ 3 ≤ ((used.img .A).fnSt 0).evt.count ∧
    ((used.img .A).fnSt 0).cpl.db ≤ ((used.img .A).fnSt 0).cpl.count ∧ ((used.img .A).fnSt 0).cpl.count < 4 ∧
    ((used.img .A).fnSt 0).evt.db ≤ ((used.img .A).fnSt 0).evt.count ∧ ((used.img .A).fnSt 0).evt.count < 4 := by decide

theorem witness_StandbyForwardsDoorbells : pair.holder ≠ some .B ∧ (pair.half .B).helm.st = .inStep ∧
    (pair.half .B).ferryUp = true ∧ (({ pair with b := { pair.b with ferry := ferry4.take 3 } } : State).half .B).ferryUp = false := by
  decide

/-! ## Witnesses: registers -/

theorem witness_FieldsFollowTheirAccessTypes : ∀ a, a = .rw ∨ a = .w1s ∨ a = .w1c ∨ a = .wo →
    (regMap.any fun r => r.flds.any fun f => f.acc = a) = true := by
  rintro a (rfl | rfl | rfl | rfl) <;> decide

theorem witness_PairedWritesKeepTheirRules : ∃ r, regSpecOf 0x600208 = some r ∧ r.home = .paired ∧
    reaches 0 0x600208 = true ∧ solo.holder = some .A ∧ r.inRange 0 = false ∧ r.inRange 1 = true ∧
    (solo.half .A).accepts 0 r.base 0x600208 ((solo.img .A).reg 0 0x600208) (r.apply ((solo.img .A).reg 0 0x600208) 1) =
      true ∧
    r.base ∉ [0x100108, 0x200008, 0x20000C, 0x201000, 0x201004, 0x300004, 0x300100, 0x400000, 0x600000, 0x600204, 0xC00000] :=
  ⟨_, rfl, by decide⟩

/-- The base address of a ring does not change while the ring is enabled. -/
theorem witness_PairedWritesKeepTheirRules_refused : ∃ r, regSpecOf 0x100160 = some r ∧ r.home = .paired ∧
    reaches 0 0x100160 = true ∧ ringed.holder = some .A ∧
    (ringed.half .A).accepts 0 r.base 0x100160 ((ringed.img .A).reg 0 0x100160) (r.apply ((ringed.img .A).reg 0 0x100160) 0) =
      false := ⟨_, rfl, by decide⟩

theorem witness_OwnRegistersStayInTheirHalf : regSpecOf 0x104 = none ∧ reaches 1 0x300000 = false ∧
    reaches 1 0x100160 = false ∧ reaches 1 0x10017F = false ∧ reaches 1 0x100180 = true ∧
    ∃ r, regSpecOf 0x100 = some r ∧ r.home = .half ∧ reaches 0 0x100 = true ∧ r.base ∉ [0x304, 0x1000000, 0x1000004] ∧
      r.inRange 0x04000928 = false ∧ r.inRange 0x07200928 = false ∧ r.inRange 0x07200A28 = true ∧
      (solo.half .B).accepts 0 r.base 0x100 ((solo.half .B).reg 0 0x100) (r.apply ((solo.half .B).reg 0 0x100) 0x07200A28) =
        true := ⟨by decide, by decide, by decide, by decide, by decide, _, rfl, by decide⟩

theorem witness_ModeWritesNeedTheHelm : pair.holder ≠ some .B ∧ (pair.holder = some .A ∧ 0 < 15) := by decide

/-- Every lane of half A in ACTIVE, and its register says so. -/
def awake : State :=
  withA (regsA solo ((List.range 64).map fun n => (0x201000 + 0x10 * n, 2))) fun y =>
    { y with lanes := (List.range 64).map fun n => (n, { pwrNow := 2, target := 2 }) }

theorem witness_CageAndPortModesChange : solo.holder = some .A ∧
    (∀ k, k < 4 → ∀ i, i < 8 → (solo.half .A).laneDeep (32 + 8 * k + i) = true) ∧
    (∀ k, k < 4 → bits ((awake.img .A).reg 0 0x200000) k k ≠ bits (~~~((awake.img .A).reg 0 0x200000)) k k) ∧
    (awake.half .A).laneDeep 32 = false ∧ (awake.half .A).laneDeep 63 = false := by decide

theorem witness_CageAndPortModesChange_ports :
    (solo.img .A).acceptSplit ((solo.img .A).reg 0 0x200008) (newWord 0x200008 ((solo.img .A).reg 0 0x200008) 0xFFFF) =
      true ∧
    (solo.img .A).acceptModes ((solo.img .A).reg 0 0x20000C) (newWord 0x20000C ((solo.img .A).reg 0 0x20000C) 0) = true := by
  decide +kernel

/-- Line group 15 is enabled over lanes 30 and 31, and group 0 has lane 0. -/
def grouped : State := regsA solo [(0x200000, 15), (0x3001F0, 0x80000500), (0x3001F4, 0xC0000000), (0x300104, 1)]

theorem witness_LaneAndGroupWritesTakeEffect : grouped.holder = some .A ∧ bits (0x22 : Word) 1 0 ≤ 2 ∧
    bits (0x22 : Word) 5 4 ≤ 2 ∧ bits (0x3 : Word) 1 0 = 3 ∧ bits (0x30 : Word) 5 4 = 3 ∧ (grouped.img .A).groupEn 15 = true ∧
    bit (0x80000500 : Word) 31 = true ∧ 5 ≤ bits (0x80000500 : Word) 11 8 ∧ bits (0x80000900 : Word) 11 8 ≤ 9 ∧
    (grouped.img .A).groupEn 0 = false ∧ (grouped.img .A).acceptGroupEn 0 = true ∧ (grouped.img .A).acceptGroupEn 1 = false ∧
    bits (0x400 : Word) 11 8 < 5 ∧ 9 < bits (0xA00 : Word) 11 8 := by decide

/-- Pass-through tributary 31 may use slots of group 15; tributary 30 is enabled. -/
def passing : State := regsA grouped
  [(tribCfgOff 30, 0xC0000500), (0x400080 + 0x100 * 31, 0x00F), (0x400080 + 0x100 * 31 + 64, 0x1F)]

theorem witness_TributaryEnableAndDisable : 5 ≤ bits (0x40000500 : Word) 11 8 ∧ bits (0x40000900 : Word) 11 8 ≤ 9 ∧
    passing.holder = some .A ∧ (passing.img .A).tribEn 31 = false ∧ (passing.img .A).tribEn 29 = false ∧
    (passing.img .A).acceptTribEn 31 (newWord (tribCfgOff 31) ((passing.img .A).reg 0 (tribCfgOff 31))
      (setBits 0x40000500 31 31 1)) = true ∧
    (passing.img .A).acceptTribEn 29 (newWord (tribCfgOff 29) ((passing.img .A).reg 0 (tribCfgOff 29))
      (setBits 0x40000500 31 31 1)) = false ∧
    (passing.img .A).tribEn 30 = true ∧ bits (0x40000500 : Word) 30 26 = bits ((passing.img .A).reg 0 (tribCfgOff 30)) 30 26 ∧
    bits (0x500 : Word) 30 26 ≠ bits ((passing.img .A).reg 0 (tribCfgOff 30)) 30 26 := by decide

/-- A write that enables line port 31 with the longest frames. -/
def portWord : Word := 0x82004000

theorem witness_SecyPortAndThresholdWrites : solo.holder = some .A ∧ (solo.img .A).portEn 31 = false ∧
    bit portWord 31 = true ∧ bits portWord 25 24 ≤ 2 ∧ 1518 ≤ bits portWord 14 0 ∧ bits portWord 14 0 ≤ 16384 ∧
    ((regsA solo [(0x200008, 0)]).img .A).pktLine 31 = true ∧ (grouped.img .A).pktLine 31 = false ∧ (1 : Word) ≠ 0 := by
  decide

/-- The tamper controller with LOCK set. -/
def tmpLocked : State := solo.setModReg 0xF0000C 0x800000FF

theorem witness_TamperLatchesAndLock : solo.holder = some .A ∧ bit (solo.modReg 0xF0000C) 31 = false ∧
    tmpLocked.holder = some .A ∧ bit (tmpLocked.modReg 0xF0000C) 31 = true ∧
    bits (0xFE : Word) 7 0 ≠ bits (tmpLocked.modReg 0xF0000C) 7 0 := by decide

theorem witness_CagePowerWrites : solo.holder = some .A ∧ bits (7 : Word) 4 0 < 8 ∧ 30 < bits (31 : Word) 4 0 ∧
    8 ≤ bits (0x80000008 : Word) 4 0 ∧ bits (0x8000001E : Word) 4 0 ≤ 30 ∧ bit (0x8000001E : Word) 31 = true ∧
    bit (0x1E : Word) 31 = false ∧ ((solo.setCage 7 { present := true }).cage 7).present = true ∧
    (solo.setCage 7 { present := true }).board.power = .on ∧
    bit (((solo.setCage 7 { present := true }).setModReg 0x1100138 0x1E).modReg 0x1100138) 31 = false := by decide

theorem witness_RingsEnableEmpty : solo.holder = some .A ∧ bits (0x0C00 : Word) 12 10 ≤ 3 ∧ bits (0x50000 : Word) 20 16 < 6 ∧
    16 < bits (0x110000 : Word) 20 16 ∧ 6 ≤ bits (0x60000 : Word) 20 16 ∧ bits (0x100000 : Word) 20 16 ≤ 16 ∧
    (solo.img .A).ringEn 15 2 = false ∧ (ringed.img .A).ringEn 0 3 = true ∧
    bits ((ringed.img .A).reg 0 (ringCfgOff 3)) 20 16 = bits (0x60000 : Word) 20 16 ∧
    bits ((ringed.img .A).reg 0 (ringCfgOff 3)) 20 16 ≠ bits (0x100000 : Word) 20 16 := by decide

theorem witness_FunctionResetDisablesItsRings : ringed.holder = some .A ∧ ringed.holder ≠ some .B := by decide


theorem witness_HostInterfaceCountsClear : (15 : Nat) < 16 ∧ (3 : Nat) = 3 ∧ (0 : Nat) = 0 ∧ (0 : Nat) < 15 := by decide

theorem witness_LowReadsLatchTheUpperHalf : (3 : Nat) < 4 := by decide

theorem witness_OddDoorbellsOnlyCount : (15 : Nat) < 16 ∧ (8 : Nat) ≠ 4 ∧ (0 : Nat) < 15 := by decide

/-! ## Witnesses: scheduled commands and the causeway cipher -/

/-- The last instant that a descriptor can name. -/
def lastAt : Instant := { time := { seconds := 2 ^ 48 - 1, nanos := 999999999, subns := 65535 }, reserved := 0 }

/-- TB3 is valid; tributary 31 is an enabled terminating one of key domain 15 with a key bound, and transmit SC 4095 has an
SA under AN 3. -/
def timed : State :=
  imgA (withA (regsA solo [(tribCfgOff 31, 0x80000500), (l1cOff 31, 0x0F000000)]) fun y =>
    { y with tbs := [(3, { valid := true, sec := 5 })] }) fun im =>
    { im with tx := [(31, { bound := some 1 })], scTx := [(4095, { args := some okSc })],
              saTx := [(4 * 4095 + 3, { inst := true, resident := true })] }

theorem witness_ScheduledCommandsAreArmed : instantOk lastAt = true ∧ ((timed.half .A).tb 3).valid = true ∧
    (timed.img .A).schedFull 0 1 = false ∧ Executes timed okHdr 0x0A40 .A ∧ (timed.img .A).switchOk 31 .A false = true ∧
    Executes timed okHdr 0x0A51 .A ∧ serves 0 ((timed.img .A).tribDomain 31) = true ∧ ((timed.img .A).txA 31).bound ≠ none ∧
    serves 15 ((timed.img .A).tribDomain 31) = true ∧ Executes timed okHdr 0x0B04 .A ∧
    (timed.img .A).scOpen 0 .tx 4095 = true ∧ ((timed.img .A).sa .tx 4095 3).inst = true ∧
    (timed.img .A).scMka .tx 4095 = false ∧ Executes timed okHdr 0x0501 .A ∧
    (timed.img .A).shaperOwner 0 .control 15 = true ∧ 15 < shaperCount .control ∧ Executes timed okHdr 0x0701 .A := by
  simp only [executes_iff]; decide

def okCmd : Cmd := cmdOf okHdr 0x0501
/-- A shaper change for the second 5 of TB3, armed first. -/
def okSched : Sched :=
  { cmd := some okCmd, fn := 0, op := 0x0501, tb := 3, at_ := { okTime with seconds := 5 }, late := false, order := 0,
    mark := 0, first := okTime, period := 0, act := .shaper okShaper }

/-- The entry stands in the scheduled action table. -/
def armed (e : Sched) : State := imgA timed fun im => { im with sched := [(255, some e)] }

theorem witness_DueEntriesFire : (armed okSched).holder = some .A ∧ ((armed okSched).img .A).schedAt 255 = some okSched ∧
    ((armed okSched).half .A).due okSched = true ∧ ((armed okSched).half .A).firstDue okSched = true ∧
    ((armed okSched).half .A).due { okSched with at_ := { okTime with seconds := 5, subns := 1 } } = false ∧
    ({ okSched with late := true } : Sched).late = true ∧ okSched.late = false ∧ okSched.period = 0 ∧
    okSched.act = .shaper okShaper ∧ ((armed okSched).half Half.A.other).helm.st ≠ .inStep ∧
    (∀ p ∈ ((armed { okSched with late := true }).img .A).sched, ∀ v, p.2 = some v → v.late = true → v.tb = 3 →
      0 ≤ v.order) := by
  refine ⟨by decide, by decide, by decide, by decide, by decide, by decide, by decide, by decide, by decide, by decide, ?_⟩
  intros; exact Nat.zero_le _

theorem witness_ScheduleIsListedAndCancelled : Executes (armed okSched) okHdr 0x0305 .A ∧
    ((armed okSched).img .A).schedAt 255 = some okSched ∧ okSched.cmd = some okCmd ∧
    ((armed okSched).img .A).schedAt 254 = none ∧ Executes timed okHdr 0x0304 .A ∧ (timed.img .A).sched = [] ∧
    Executes (armed okSched) okHdr 0x0304 .A ∧ ((armed okSched).img .A).sched = [(255, some okSched)] := by
  simp only [executes_iff]; decide

theorem witness_ForcesHoldUntilReleased : Executes timed okHdr 0x0A41 .A ∧ (timed.img .A).tribEn 31 = true ∧
    (timed.img .A).tribPass 31 = false ∧ (timed.img .A).tribEn 0 = false ∧ Executes passing okHdr 0x0A41 .A ∧
    (passing.img .A).tribEn 30 = true ∧ (passing.img .A).tribPass 30 = true := by
  simp only [executes_iff]; decide

/-- The last handle of landing 4 in key domain 15. -/
def key15 : Nat := mkHandle 4 15 4095
/-- A LIVE association key. -/
def assocKey : KeyEnt := { st := 1, serial := 1, kind := 5, resident := true }

/-- Tributary 31 with an association key to bind. -/
def bindable (e : KeyEnt) : State := keysA (imgA timed fun im => { im with tx := [] }) [(key15, e)]
/-- Tributary 31 with that key bound, and the state of its transmit association. -/
def bound31 (a : TxAssoc) : State := imgA (bindable assocKey) fun im => { im with tx := [(31, { a with bound := some key15 })] }

theorem witness_BindStartsTheFirstKeyChange : Executes (bindable assocKey) (onRing 15 false) 0x0A50 .A ∧
    ((bindable assocKey).img .A).termTrib 31 = true ∧ serves 15 (((bindable assocKey).img .A).tribDomain 31) = true ∧
    hLanding key15 = 4 ∧ hDomain key15 = ((bindable assocKey).img .A).tribDomain 31 ∧
    (((bound31 {}).img .A).txA 31).bound = some key15 ∧ (((bindable assocKey).img .A).txA 31).bound = none ∧
    (((bindable assocKey).img .A).key key15).st = 1 ∧ (((bindable assocKey).img .A).key key15).kind = 5 ∧
    (((bindable assocKey).img .A).txA 31).st = .noKey ∧ (((bindable assocKey).img .A).txA 31).slots = [{}, {}, {}, {}] ∧
    ((bindable assocKey).img .A).pinned4 < 2048 ∧
    tabGet 0 (bindable assocKey).flash.epochBlk (epochResKey (((bindable assocKey).img .A).key key15).serial 31) <
      2 ^ 28 - 1 ∧ (((bindable assocKey).img .A).key key15).resident = true ∧
    (((bindable { assocKey with resident := false }).img .A).key key15).resident = false := by
  simp only [executes_iff]; decide

theorem witness_UnbindErasesEverySlot : Executes (bound31 {}) (onRing 15 false) 0x0A52 .A ∧
    ((bound31 {}).img .A).tribPass 31 = false ∧ serves 15 (((bound31 {}).img .A).tribDomain 31) = true := by
  simp only [executes_iff]; decide

/-- A key slot in a state. -/
def slotIn (st : Nat) : KeySlot := { st, epoch := 1, key := 1 }

theorem witness_TransmitAssociationFollowsItsTable :
    ((bound31 {}).holder = some .A) ∧
    (({ s3 := slotIn 1, st := .announced, mfNext := 8 } : TxAssoc).inSt 1 = some (slotIn 1)) ∧
    (({ s3 := slotIn 1, st := .announced, ready := true } : TxAssoc).inSt 1 = some (slotIn 1)) ∧
    tabGet 0 ((bound31 {}).img .A).cfc 31 % 256 = 0 ∧
    (({ s0 := slotIn 2, s1 := slotIn 3, st := .switched, mfSwitch := 8, confirmed := true } : TxAssoc).inSt 2 =
      some (slotIn 2)) ∧
    (({ s0 := slotIn 2, s1 := slotIn 3, st := .switched, mfSwitch := 8, confirmed := true } : TxAssoc).inSt 3 =
      some (slotIn 3)) ∧
    ((bound31 {}).img .A).confirmTo 31 ≤ 255 ∧ ((bound31 {}).img .A).termTrib 31 = true ∧
    ((bound31 {}).img .A).bindLive 31 = true ∧ ({ st := .run, spans := 2 ^ 63 } : TxAssoc).spent = false ∧
    2 ^ ((bound31 {}).img .A).spanExp ≤ 2 ^ 63 := by decide

theorem witness_ReceiveAssociationAnswers : ((timed.img .A).termTrib 31 = true) ∧
    (((imgA timed fun im => { im with tx := [] }).img .A).txA 31).bound = none ∧
    (((bound31 {}).img .A).txA 31).bound = some key15 ∧ (((bound31 {}).img .A).key key15).st = 1 ∧
    0 = (bound31 {}).member ∧ 1 ≠ (bound31 {}).member ∧ 127 ≠ ((bound31 {}).img .A).spanKib 31 ∧
    (∀ k : Nat, k + 1 ≠ k) ∧ (∃ v ∈ ({ s2 := slotIn 1 } : RxAssoc).slots, v.st = 1 ∧ v.epoch = 1) ∧
    ({} : RxAssoc).slots = [{}, {}, {}, {}] ∧ ({} : RxAssoc).highest < 1 ∧
    ({ s1 := slotIn 2, mfConf := 8 } : RxAssoc).inSt 2 = some (slotIn 2) ∧ (slotIn 2).idle < 8 ∧
    ({ s1 := slotIn 3, mfLive := 8 } : RxAssoc).inSt 3 = some (slotIn 3) :=
  ⟨by decide, by decide, by decide, by decide, by decide, by decide, by decide, fun k => by omega, by decide⟩

/-- Tributary 31 with a span under slot 3 that waits for its verdict. -/
def spanWaits (v : RxSpan) : State :=
  withA (imgA timed fun im => { im with rx := [(31, { s3 := slotIn 1 })] }) fun y => y.setTrib 31 { y.trib 31 with spans := [v] }

/-- A span under slot 3, and one under no slot. -/
def spanIn (j : Option Nat) : RxSpan := { cfc0 := 9, q0 := 4, slots := [j] }

theorem witness_SpansAreJudged : ((spanWaits (spanIn (some 3))).half .A).up = true ∧
    ((spanWaits (spanIn (some 3))).img .A).termTrib 31 = true ∧
    (((spanWaits (spanIn (some 3))).half .A).trib 31).spans = [spanIn (some 3)] ∧ (spanIn (some 3)).slot = some 3 ∧
    (((spanWaits (spanIn (some 3))).img .A).rxA 31).slots[3]? = some (slotIn 1) ∧
    (slotIn 1).st ≠ 0 ∧ (spanWaits (spanIn none)).isActive .A = true ∧
    ((spanWaits (spanIn none)).img .A).spanFailed 31 (spanIn none) = true := by decide

/-- Its client lane has a signal and a lock. -/
theorem witness_ClientFaultsSubstitute : (timed.half .A).up = true ∧ (timed.img .A).termTrib 31 = true ∧
    (false || true) = true ∧ ((withA timed fun y => y.setLane 31 { y.lane 31 with signal := true, lock := true }).half .A).clientBad 31 = false ∧
    ((timed.half .A).trib 31).faultAt + 1000000 ≤ ({ timed with now := 1000000 } : State).now ∧
    (timed.half .A).clientBad 31 = true := by decide

/-! ## Witnesses: secure channels and tables -/

def okScMka : Sc := { args := some { okSc with mka := true } }
/-- Every transmit SC in use. -/
def fullSc : Tab Sc := (List.range 4096).map fun i => (i, { args := some okSc })

/-- Transmit SC 4095 exists, with an SA of the given kind under AN 3. -/
def withSa (v : Sa) (c : Sc) : State :=
  imgA solo fun im => { im with scTx := [(4095, c)], saTx := [(4 * 4095 + 3, v)] }
def plainSc : Sc := { args := some okSc }

theorem witness_ChannelsAreCreatedAndDeleted : Executes solo okHdr 0x0B01 .A ∧ (solo.img .A).scArgsOk okSc = true ∧
    serves 15 ({ okSc with domain := 15 } : ScArgs).domain = true ∧ (solo.img .A).scTx.length < scCount .tx ∧
    ((withSa {} plainSc).img .A).scOpen 0 .tx 4095 = true ∧ Executes (withSa {} plainSc) okHdr 0x0B02 .A ∧
    ((withSa {} plainSc).img .A).scMka .tx 4095 = false ∧ ((withSa {} okScMka).img .A).scOpen 0 .tx 4095 = true ∧
    ((withSa {} okScMka).img .A).scMka .tx 4095 = true := by
  simp only [executes_iff]; decide

theorem witness_ChannelsAreCreatedAndDeleted_full :
    scCount .tx ≤ ((imgA solo fun im => { im with scTx := fullSc }).img .A).scTx.length := by
  simp [imgA, State.modImg, State.modHalf, State.setHalf, State.half, State.img, solo, fullSc, scCount]

/-- A handle of landing 5, and a LIVE SAK under it. -/
def sak0 : Nat := mkHandle 5 0 0
def sakKey : KeyEnt := { st := 1, kind := 8, parent := mkHandle 3 0 0 }
/-- That SAK with its parent, a CA's CAK that is LIVE. -/
def sakKeys : Tab KeyEnt := [(mkHandle 3 0 0, { st := 1 }), (sak0, sakKey)]

theorem witness_AssociationsAreInstalledAndRetired :
    let s := keysA (withSa {} plainSc) [(sak0, sakKey)]
    let r := withSa { inst := true } plainSc
    let c := withSa { inst := true } { plainSc with cur := some 3 }
    Executes s okHdr 0x0B03 .A ∧ (s.img .A).scOpen 0 .tx 4095 = true ∧ ((s.img .A).sa .tx 4095 3).inst = false ∧
    hLanding sak0 = 5 ∧ hDomain sak0 = (s.img .A).scDomain .tx 4095 ∧ 2 ^ 32 - 1 ≤ lastPn ((s.img .A).scSuite .tx 4095) ∧
    (s.img .A).scMka .tx 4095 = false ∧ ((s.img .A).key sak0).st = 1 ∧ ((s.img .A).key sak0).gone = false ∧
    sakSuits ((s.img .A).key sak0) ((s.img .A).scSuite .tx 4095) = true ∧ (s.img .A).saPinned .tx < 15360 ∧
    decide ((s.img .A).saResident .tx < 16384) = true ∧ ((s.img .A).sc .tx 4095).args.any (·.express) = false ∧
    ((s.img .A).sc .tx 4095).cur ≠ some 3 ∧ ((r.img .A).sa .tx 4095 3).loading = false ∧
    Executes r okHdr 0x0B05 .A ∧ (r.img .A).scOpen 0 .tx 4095 = true ∧ ((r.img .A).sa .tx 4095 3).inst = true ∧
    (r.img .A).scMka .tx 4095 = false ∧ ((r.img .A).sc .tx 4095).cur ≠ some 3 ∧
    ((c.img .A).sa .tx 4095 3).inst = true ∧ ((c.img .A).sc .tx 4095).cur = some 3 := by
  simp only [executes_iff]; decide

theorem witness_AssociationsAreActivatedPinnedAndRead :
    let s := keysA (withSa { inst := true, handle := sak0, resident := true, pinned := true } plainSc) sakKeys
    let p := keysA (withSa { inst := true, handle := sak0 } plainSc) sakKeys
    let f := keysA (withSa { inst := true, handle := sak0 } plainSc) [(sak0, sakKey)]
    (s.img .A).scOpen 0 .tx 4095 = true ∧ ((s.img .A).sa .tx 4095 3).inst = true ∧ Executes s okHdr 0x0B04 .A ∧
    (s.img .A).scMka .tx 4095 = false ∧ lowest ((s.img .A).saFails .tx 4095 3) = none ∧
    ((s.img .A).sa .tx 4095 3).resident = true ∧
    (p.img .A).scOpen 0 .tx 4095 = true ∧ ((p.img .A).sa .tx 4095 3).inst = true ∧ Executes p okHdr 0x0B04 .A ∧
    (p.img .A).scMka .tx 4095 = false ∧ lowest ((p.img .A).saFails .tx 4095 3) = none ∧
    ((p.img .A).sa .tx 4095 3).resident = false ∧
    (f.img .A).scOpen 0 .tx 4095 = true ∧ ((f.img .A).sa .tx 4095 3).inst = true ∧ Executes f okHdr 0x0B04 .A ∧
    (f.img .A).scMka .tx 4095 = false ∧ lowest ((f.img .A).saFails .tx 4095 3) = some stOrphaned ∧
    Executes s okHdr 0x0B06 .A ∧ ((s.img .A).sc .tx 4095).args.any (·.express) = false ∧
    ((s.img .A).sa .tx 4095 3).pinned = true ∧ Executes p okHdr 0x0B06 .A ∧ ((p.img .A).sa .tx 4095 3).pinned = false ∧
    (p.img .A).saPinned .tx < 15360 ∧ Executes s okHdr 0x0B07 .A := by
  simp only [executes_iff]; decide

def okHFrame : HFrame := { id := 1, body := okFrame, sc := 0, since := 0 }
def okHeld : Held := { dir := .tx, sc := 0, an := 0, id := 5, cells := 1, tx := some okHFrame }

theorem witness_LoadsAndHoldsEnd :
    let s := keysA (withSa { inst := true, handle := sak0, loading := true } { plainSc with next := some 3 }) sakKeys
    let g := withA { solo with now := 1000 } fun y => { y with held := [okHeld], preempt := [(31, 1)] }
    s.holder = some .A ∧ ((s.img .A).sa .tx 4095 3).loading = true ∧ (s.half .A).held = [] ∧
    (s.img .A).saResident .tx < 16384 ∧ ((s.img .A).sc .tx 4095).next = some 3 ∧
    (g.half .A).held = okHeld :: [] ∧ ((g.img .A).sa okHeld.dir okHeld.sc okHeld.an).holdAt = 0 ∧
    0 + ((regsA g [(0x600300, 0x10000000)]).img .A).holdNs ≤ g.now ∧
    (999 : Nat) < 0 + ((regsA g [(0x600300, 0x10000000)]).img .A).holdNs ∧
    tabGet 0 (g.half .A).preempt 31 = 1 ∧ g.isActive .A = true ∧
    tabGet 0 ((withA g fun y => { y with helm := {} }).half .A).preempt 31 = 1 ∧
    (withA g fun y => { y with helm := {} }).isActive .A = false := by
  decide

/-- SA 0 of receive SC 0 loads, and every other place of key RAM is taken. -/
def fullRam (pinned : Bool) : State := imgA solo fun im => { im with
  saRx := (0, { inst := true, loading := true }) ::
    (1, { inst := true, resident := true, pinned }) ::
    (List.range 16383).map fun i => (i + 2, { inst := true, resident := true, pinned }) }

theorem fullRam_rest (pinned : Bool) : ((List.range 16383).map fun i => ((i + 2, { inst := true, resident := true, pinned })
      : Nat × Sa)).filter (·.2.resident) =
    (List.range 16383).map fun i => ((i + 2, { inst := true, resident := true, pinned }) : Nat × Sa) :=
  List.filter_eq_self.2 fun p h => by obtain ⟨i, -, rfl⟩ := List.mem_map.1 h; rfl

theorem fullRam_full (pinned : Bool) : ((fullRam pinned).img .A).saResident .rx = 16384 := by
  show (List.filter _ (_ :: _ :: _)).length = 16384
  rw [List.filter_cons_of_neg (by decide), List.filter_cons_of_pos rfl, fullRam_rest, List.length_cons, List.length_map,
    List.length_range]

/-- The choice of an SA to park stays at one than which no other is older. -/
theorem victim_stays (t l : Tab Sa) (k : Nat)
    (h : ∀ p ∈ l, ¬ p.2.lastUse / 1024 < (tabGet {} t k : Sa).lastUse / 1024) :
    l.foldl (fun m p => match m with
      | none => some p.1
      | some k => if p.2.lastUse / 1024 < (tabGet {} t k : Sa).lastUse / 1024 then some p.1 else some k) (some k) =
        some k := by
  induction l with
  | nil => rfl
  | cons p r ih =>
    rw [List.foldl_cons]
    simp only [h p List.mem_cons_self, if_false]
    exact ih fun q hq => h q (List.mem_cons_of_mem _ hq)

theorem fullRam_victim : ((fullRam false).half .A).victim .rx = some 1 := by
  show List.foldl _ none (List.filter _ (_ :: _ :: _)) = some 1
  rw [List.filter_cons_of_neg (by decide), List.filter_cons_of_pos (by decide), List.foldl_cons]
  exact victim_stays _ _ 1 fun p h => by
    obtain ⟨i, -, rfl⟩ := List.mem_map.1 (List.mem_filter.1 h).1
    exact Nat.not_lt.2 (Nat.zero_le _)

theorem fullRam_no_victim : ((fullRam true).half .A).victim .rx = none := by
  show List.foldl _ none (List.filter _ (_ :: _ :: _)) = none
  rw [List.filter_cons_of_neg (by decide), List.filter_cons_of_neg (by decide), List.filter_eq_nil_iff.2 ?_]
  · rfl
  · intro p h
    obtain ⟨i, -, rfl⟩ := List.mem_map.1 h
    exact Bool.false_ne_true

theorem witness_LoadsAndHoldsEnd_full : (fullRam false).holder = some .A ∧
    (((fullRam false).img .A).sa .rx 0 0).loading = true ∧ ((fullRam false).half .A).held = [] ∧
    ((fullRam false).img .A).cas = [] ∧ 16384 ≤ ((fullRam false).img .A).saResident .rx ∧
    ((fullRam false).half .A).victim .rx = some 1 ∧ 1 ≠ 4 * 0 + 0 ∧ (fullRam true).holder = some .A ∧
    (((fullRam true).img .A).sa .rx 0 0).loading = true ∧ 16384 ≤ ((fullRam true).img .A).saResident .rx ∧
    ((fullRam true).half .A).victim .rx = none :=
  ⟨by decide, rfl, rfl, rfl, Nat.le_of_eq (fullRam_full false).symm, fullRam_victim, by decide, by decide, rfl,
    Nat.le_of_eq (fullRam_full true).symm, fullRam_no_victim⟩

/-! ## Witnesses: tables -/

theorem witness_TableCommandsKeepTheirForm :
    command (.chanRead { onRing 15 true with tag := 1 } 0 0) = some ({ onRing 15 true with tag := 1 }, 0x0202) ∧
    Executes solo { onRing 15 true with tag := 1 } 0x0202 .A ∧
    command (.pairWrite { tblHdr with clean := false } 0 0) = some ({ tblHdr with clean := false }, 0x0231) ∧
    Executes solo { tblHdr with clean := false } 0x0231 .A := by
  simp only [executes_iff]; decide

/-- A version with both entries valid and learning, on client port 0 and SC 0. -/
def chanVersion : BitVec 128 := 1 + 2 ^ 64 + 2 ^ 73
/-- SC 0 exists; every cage is in packet mode. -/
def chanState : State := imgA solo fun im => { im with scTx := [(0, plainSc)] }

theorem witness_ChannelWritesAreAtomic : Executes chanState tblHdr 0x0201 .A ∧
    (chanState.img .A).acceptVersion 0 chanVersion = true ∧ (chanState.img .A).acceptVersion 1 chanVersion = true ∧
    (chanState.img .A).acceptVersion 131072 chanVersion = false ∧ (chanState.img .A).acceptVersion 0 (2 ^ 92) = false ∧
    (chanState.img .A).acceptVersion 0 6 = false ∧ Executes chanState tblHdr 0x0202 .A := by
  simp only [executes_iff]; decide +kernel

/-- A rebuild runs; the serving bank holds one prefix. -/
def trieState (rebuild : Bool) : State :=
  imgA solo fun im => { im with trie := { bank0 := [(pKey 4 32 5, some 9)], rebuild, oldBank := some 0 } }
def okPfx32 : PrefixRec := { okPfx with len := 32, bits := 2 ^ 32 - 1, result := 0x1FFFF }

theorem witness_BulkCommandsStopAtTheFirstFailure : Executes chanState tblHdr 0x0203 .A ∧
    Executes (trieState true) tblHdr 0x0213 .A ∧ ((trieState true).img .A).trie.rebuild = true ∧ prefixOk okPfx32 = true ∧
    resultOk okPfx32.result = true ∧ fitsPools (trieUse
      (tabSet none ((trieState true).img .A).trie.idle (pKey 4 32 (2 ^ 32 - 1)) (some okPfx32.result))) = true ∧
    prefixOk { okPfx with family := 5 } = false := by
  simp only [executes_iff]; decide

/-- A bank where every place of the pool of IPv4 results waits for its release. -/
def waitingTrie : Trie := { pending := [([0, 0, 0, 0, 0, 0, 262144, 0], 3)] }

theorem witness_PrefixChangesTouchOnePrefix :
    let T := ((trieState true).img .A).trie
    prefixOk { okPfx with family := 6, len := 64, bits := 2 ^ 64 - 1 } = true ∧ Executes (trieState true) tblHdr 0x0211 .A ∧
    T.tooFull (pKey 4 32 7) 0x1FFFF = false ∧
    T.roomFor (pKey 4 32 7) (tabSet none T.serve (pKey 4 32 7) (some 0x1FFFF)) = true ∧
    waitingTrie.tooFull (pKey 4 32 7) 0x1FFFF = false ∧
    waitingTrie.roomFor (pKey 4 32 7) (tabSet none waitingTrie.serve (pKey 4 32 7) (some 0x1FFFF)) = false ∧
    Executes (trieState false) tblHdr 0x0212 .A ∧ tabGet none ((trieState false).img .A).trie.serve (pKey 4 32 6) = none ∧
    tabGet none ((trieState false).img .A).trie.serve (pKey 4 32 5) ≠ none := by
  simp only [executes_iff]; decide

/-- `n` prefixes of IPv6; 131,072 of them fill the pool of their results. -/
def fullBank (n : Nat) : Bank := (List.range n).map fun i => (6 * 2 ^ 80 + 64 * 2 ^ 64 + i, some 0)

theorem fullBank_count (n : Nat) (hn : n < 2 ^ 64) :
    famCount (tabSet none (fullBank (n + 1)) (6 * 2 ^ 80) (some 0)) 6 = n + 2 := by
  have h0 : fullBank (n + 1) = (6 * 2 ^ 80 + 64 * 2 ^ 64, some 0) ::
      (List.range n).map fun i => (6 * 2 ^ 80 + 64 * 2 ^ 64 + (i + 1), some 0) := by
    rw [fullBank, List.range_succ_eq_map, List.map_cons, List.map_map]; rfl
  have h1 : ∀ p ∈ (List.range n).map (fun i => ((6 * 2 ^ 80 + 64 * 2 ^ 64 + (i + 1), some 0) : Nat × Option (BitVec 32))),
      decide (keyFam p.1 = 6) = true := by
    intro p hp
    obtain ⟨i, hi, rfl⟩ := List.mem_map.1 hp
    have := List.mem_range.1 hi
    simp only [keyFam]; exact decide_eq_true (by omega)
  rw [h0, tabSet, if_neg (by decide), tabIns, if_pos (by decide), famCount, List.filter_cons_of_pos (by decide),
    List.filter_cons_of_pos (by decide), List.filter_eq_self.2 h1]
  simp

theorem full_pool_refuses (a b c d e f g n a' b' c' d' e' f' g' h' : Nat) (hn : 131072 < n) :
    fitsPools (addUse [a, b, c, d, e, f, g, n] [a', b', c', d', e', f', g', h']) = false := by
  simp [addUse, fitsPools, triePools]; omega

theorem full_bank_refuses (n : Nat) (hn : n < 2 ^ 64) (h : 131072 < n + 2) :
    ({ bank0 := fullBank (n + 1) } : Trie).tooFull (6 * 2 ^ 80) 0 = true := by
  have : ({ bank0 := fullBank (n + 1) } : Trie).couldFit (6 * 2 ^ 80)
      (tabSet none (fullBank (n + 1)) (6 * 2 ^ 80) (some 0)) = false := by
    unfold Trie.couldFit changeUse copiedNode trieUse
    rw [fullBank_count n hn]
    generalize (List.takeWhile _ _).length = d
    exact full_pool_refuses _ _ _ _ _ _ _ _ _ _ _ _ _ _ _ _ h
  unfold Trie.tooFull
  rw [show ({ bank0 := fullBank (n + 1) } : Trie).serve = fullBank (n + 1) from rfl, this]
  rfl

theorem witness_PrefixChangesTouchOnePrefix_full : pKey 6 0 0 = 6 * 2 ^ 80 ∧ ∃ n, n = 131072 ∧
    ({ bank0 := fullBank n } : Trie).tooFull (6 * 2 ^ 80) 0 = true := by
  refine ⟨by decide, _, rfl, ?_⟩
  obtain ⟨n, hn⟩ : ∃ n, n + 1 = 131072 := ⟨131071, by omega⟩
  rw [← hn]; exact full_bank_refuses n (by omega) (by omega)

/-- A TRIE_ADD that waits for the pools. -/
def poolJob : Job := { cmd := cmdOf tblHdr 0x0211, on := .pool, status := stDone, cflags := 0, result := [], area := none,
                       cont := .trie okPfx32 3 }
/-- Nodes come back at this release, for which a TRIE_ADD waits. -/
def poolState : State := imgA solo fun im => { im with trie := { pending := [([0, 0, 0, 0, 0, 0, 262144, 0], 0)] },
                                                       jobs := [poolJob] }

theorem witness_RebuildsSwitchByOneWrite : Executes (trieState false) tblHdr 0x0214 .A ∧
    Executes (trieState true) tblHdr 0x0215 .A ∧ Executes (trieState true) tblHdr 0x0216 .A ∧
    ((trieState false).img .A).trie.rebuild = false ∧ ((trieState true).img .A).trie.rebuild = true ∧
    (trieState true).holder = some .A ∧ (∀ j ∈ ((trieState true).img .A).jobs, j.on ≠ .pool) ∧
    ((trieState true).img .A).trie.oldBank = some 0 ∧ poolState.holder = some .A ∧ (poolState.img .A).jobs = [poolJob] ∧
    poolJob.on = .pool ∧ poolJob.cont = .trie okPfx32 3 ∧
    (poolState.img .A).trie.release.tooFull (pKey 4 32 (2 ^ 32 - 1)) okPfx32.result = false ∧
    (poolState.img .A).trie.release.roomFor (pKey 4 32 (2 ^ 32 - 1))
      (tabSet none (poolState.img .A).trie.serve (pKey 4 32 (2 ^ 32 - 1)) (some okPfx32.result)) = true ∧
    Executes (trieState true) tblHdr 0x0217 .A ∧
    (∀ n, n ≤ 32 → tabGet none ((trieState true).img .A).trie.serve (pKey 4 n 6) = none) ∧
    tabGet none ((trieState true).img .A).trie.serve (pKey 4 32 5) = some 9 ∧
    (∀ m, 32 < m → m ≤ famWidth 4 → tabGet none ((trieState true).img .A).trie.serve (pKey 4 m 5) = none) := by
  simp only [executes_iff]
  refine ⟨by decide, by decide, by decide, by decide, by decide, by decide, by decide, by decide, by decide, by decide,
    by decide, by decide, by decide, by decide, by decide, by decide, by decide, ?_⟩
  intro m h h'
  have : famWidth 4 = 32 := rfl
  omega

def okStnEnt : Stn :=
  { sc := 0, port := 0, vid := 1, isStatic := false, moored := true, hit := false, moves := [], moorAt := 0, lastSeq := 0 }
/-- The first slot of a station's bucket in a sub-table. -/
def slotIn_ (sub k : Nat) : Nat := 131072 * sub + 4 * (solo.img .A).bucket sub k
/-- One station. -/
def oneStn (v : Stn) : State := imgA solo fun im => { im with
  stn := [(slotIn_ 0 (stnKeyNat okStn), some (stnKeyNat okStn, v))] }

theorem slotsOf_eq (im : Image) (k : Nat) : im.slotsOf k = im.bucketSlots 0 k ++ im.bucketSlots 1 k := rfl

theorem bucketSlots_eq (im : Image) (sub k : Nat) : im.bucketSlots sub k = [131072 * sub + 4 * im.bucket sub k,
    131072 * sub + 4 * im.bucket sub k + 1, 131072 * sub + 4 * im.bucket sub k + 2,
    131072 * sub + 4 * im.bucket sub k + 3] := rfl

theorem oneStn_slot (v : Stn) : slotIn_ 0 (stnKeyNat okStn) ∈ ((oneStn v).img .A).slotsOf (stnKeyNat okStn) := by
  rw [slotsOf_eq, bucketSlots_eq]; exact List.mem_append_left _ List.mem_cons_self

theorem oneStn_at (v : Stn) : ((oneStn v).img .A).stnAt (stnKeyNat okStn) = some v := by
  unfold Image.stnAt
  rw [slotsOf_eq, bucketSlots_eq]
  have : slotHas (stnKeyNat okStn) (((oneStn v).img .A).slotAt (131072 * 0 + 4 * ((oneStn v).img .A).bucket 0
      (stnKeyNat okStn))) = some v := by
    show slotHas _ (tabGet none [(slotIn_ 0 (stnKeyNat okStn), _)] (slotIn_ 0 (stnKeyNat okStn))) = _
    rw [tabGet, if_pos rfl, slotHas, if_pos rfl]
  rw [List.cons_append, List.findSome?_cons, this]

/-- No station is at a key while the table is empty. -/
theorem stnAt_empty (im : Image) (h : im.stn = []) (k : Nat) : im.stnAt k = none := by
  simp [Image.stnAt, Image.slotAt, h, tabGet, slotHas]

theorem pathFor_empty (im : Image) (h : im.stn = []) (k : Nat) :
    im.pathFor k = some [131072 * 0 + 4 * im.bucket 0 k] := by
  simp [Image.pathFor, Image.findPath, slotsOf_eq, bucketSlots_eq, Image.slotAt, h, tabGet]

theorem witness_StationCommandsChangeOneKey : stnKeyOk { domain := 15, vid := 4095, mac := 2 ^ 48 - 1 } = true ∧
    (solo.img .A).isLinePort 0 = true ∧ Executes (oneStn okStnEnt) tblHdr 0x0221 .A ∧
    Executes (oneStn okStnEnt) tblHdr 0x0222 .A ∧ Executes (oneStn okStnEnt) tblHdr 0x0223 .A ∧
    okStnEnt.moored = true ∧ ({ okStnEnt with moored := false } : Stn).moored = false ∧
    Executes (oneStn okStnEnt) tblHdr 0x0224 .A ∧ Executes (oneStn okStnEnt) tblHdr 0x0225 .A := by
  simp only [executes_iff]
  exact ⟨by decide, by decide, by decide, by decide, by decide, by decide, by decide, by decide, by decide⟩

theorem witness_StationCommandsChangeOneKey_slots :
    ((oneStn okStnEnt).img .A).stnAt (stnKeyNat okStn) = some okStnEnt ∧
    ((oneStn okStnEnt).img .A).stn = [(slotIn_ 0 (stnKeyNat okStn), some (stnKeyNat okStn, okStnEnt))] ∧
    slotIn_ 0 (stnKeyNat okStn) ∈ ((oneStn okStnEnt).img .A).slotsOf (stnKeyNat okStn) ∧
    (solo.img .A).stnAt (stnKeyNat okStn) = none ∧
    (solo.img .A).slotAt (slotIn_ 0 (stnKeyNat okStn)) = none ∧
    (solo.img .A).pathFor (stnKeyNat okStn) = some [slotIn_ 0 (stnKeyNat okStn)] :=
  ⟨oneStn_at _, rfl, oneStn_slot _, stnAt_empty _ rfl _, rfl, pathFor_empty _ rfl _⟩

/-- The module `s` with a station table in half A. -/
def withStn (s : State) (t : Tab (Option (Nat × Stn))) : State := imgA s fun im => { im with stn := t }
theorem withStn_stn (s : State) (t : Tab (Option (Nat × Stn))) : ((withStn s t).img .A).stn = t := rfl

/-- Every slot of the station table holds the station of another key. -/
def fullStn : Tab (Option (Nat × Stn)) := (List.range 262144).map fun i => (i, some (0, okStnEnt))

theorem tabGet_range (n i a : Nat) (h : i < n) (v : α) (d : α) :
    tabGet d ((List.range' a n).map fun j => (j, v)) (a + i) = v := by
  induction n generalizing a i with
  | zero => omega
  | succ n ih =>
    rw [List.range'_succ, List.map_cons, tabGet]
    split
    · rfl
    · rename_i hne
      cases i with
      | zero => exact absurd rfl hne
      | succ i => rw [show a + (i + 1) = a + 1 + i from by omega]; exact ih i (a + 1) (by omega)

theorem fullStn_at (im : Image) (h : im.stn = fullStn) (i : Nat) (hi : i < 262144) :
    im.slotAt i = some (0, okStnEnt) := by
  rw [Image.slotAt, h, fullStn, List.range_eq_range']
  have := tabGet_range 262144 i 0 hi (some (0, okStnEnt)) none
  rwa [Nat.zero_add] at this

theorem bucketSlots_lt (im : Image) (sub k : Nat) (hs : sub ≤ 1) : ∀ i ∈ im.bucketSlots sub k, i < 262144 := by
  intro i hi
  have hb : im.bucket sub k < 32768 := Nat.mod_lt _ (by decide)
  rw [bucketSlots_eq] at hi
  simp only [List.mem_cons, List.not_mem_nil, or_false] at hi
  omega

theorem slotsOf_lt (im : Image) (k : Nat) : ∀ i ∈ im.slotsOf k, i < 262144 := by
  intro i hi
  rw [slotsOf_eq] at hi
  exact (List.mem_append.1 hi).elim (bucketSlots_lt im 0 k (by decide) i) (bucketSlots_lt im 1 k (by decide) i)

/-- A search for a path in a full table finds none. -/
theorem findPath_full (im : Image) (h : im.stn = fullStn) (n : Nat) (ps : List (List Nat))
    (hp : ∀ p ∈ ps, p.headD 0 < 262144) : im.findPath n ps = none := by
  have hf : ∀ ps : List (List Nat), (∀ p ∈ ps, p.headD 0 < 262144) →
      (ps.find? fun p => (im.slotAt (p.headD 0)).isNone) = none := by
    intro ps hp
    refine List.find?_eq_none.2 fun p hm => ?_
    rw [fullStn_at im h _ (hp p hm)]; exact Bool.false_ne_true
  induction n generalizing ps with
  | zero => exact hf ps hp
  | succ n ih =>
    rw [Image.findPath, hf ps hp]
    refine ih _ fun p hm => ?_
    obtain ⟨q, -, hq⟩ := List.mem_flatMap.1 hm
    obtain ⟨i, hi, rfl⟩ := List.mem_map.1 hq
    have hi := (List.mem_filter.1 hi).1
    unfold Image.otherSlots at hi
    split at hi
    · exact bucketSlots_lt im _ _ (Nat.sub_le _ _) i hi
    · cases hi

theorem pathFor_full (im : Image) (h : im.stn = fullStn) (k : Nat) : im.pathFor k = none :=
  findPath_full im h 4 _ fun p hm => by
    obtain ⟨i, hi, rfl⟩ := List.mem_map.1 hm
    exact slotsOf_lt im k i hi

theorem stnAt_full (im : Image) (h : im.stn = fullStn) (k : Nat) (hk : k ≠ 0) : im.stnAt k = none := by
  refine List.findSome?_eq_none_iff.2 fun i hi => ?_
  rw [fullStn_at im h i (slotsOf_lt im k i hi), slotHas, if_neg (Ne.symm hk)]

theorem witness_StationCommandsChangeOneKey_full : stnKeyNat okStn ≠ 0 ∧
    ((withStn solo fullStn).img .A).stnAt (stnKeyNat okStn) = none ∧
    ((withStn solo fullStn).img .A).pathFor (stnKeyNat okStn) = none :=
  ⟨by decide, stnAt_full _ (withStn_stn _ _) _ (by decide), pathFor_full _ (withStn_stn _ _) _⟩

theorem witness_MovesKeepEveryLookup : ∃ (im : Image) (a b k : Nat) (v : Stn), a ∈ im.slotsOf k ∧ b ∈ im.slotsOf k ∧
    im.slotAt a = some (k, v) ∧ im.slotAt b = none ∧
    ∀ c ∈ im.slotsOf k, c ≠ a → slotHas k (im.slotAt c) = none := by
  refine ⟨(oneStn okStnEnt).img .A, slotIn_ 0 (stnKeyNat okStn), slotIn_ 0 (stnKeyNat okStn) + 1, stnKeyNat okStn, okStnEnt,
    oneStn_slot _, ?_, ?_, ?_, fun c _ hc => ?_⟩
  · rw [slotsOf_eq, bucketSlots_eq]
    exact List.mem_append_left _ (List.mem_cons_of_mem _ List.mem_cons_self)
  · show tabGet none [(slotIn_ 0 (stnKeyNat okStn), _)] (slotIn_ 0 (stnKeyNat okStn)) = _
    rw [tabGet, if_pos rfl]
  · show tabGet none [(slotIn_ 0 (stnKeyNat okStn), _)] (slotIn_ 0 (stnKeyNat okStn) + 1) = _
    rw [tabGet, if_neg (by omega), tabGet]
  · show slotHas _ (tabGet none [(slotIn_ 0 (stnKeyNat okStn), _)] c) = none
    rw [tabGet, if_neg (Ne.symm hc)]; rfl

/-- Learning is on, return entry 1 of line port 0 is valid and learns, and a verified frame has asked for the learning of
one station; the state is at the end of the shortest mooring. -/
def learningOf (s : State) : State :=
  withA (imgA (regsA { s with now := 1000000000 } [(0x700104, 0x80000001), (0x700100, 0x10001)]) fun im =>
    { im with chan := [(1, { v0 := chanVersion })] }) fun y => { y with learnReqs := [okLearn] }
def learning : State := learningOf (oneStn okStnEnt)

theorem witness_LearningAndAging : learning.holder = some .A ∧ stnKeyOk okLearn.key = true ∧
    okLearn ∈ (learning.half .A).learnReqs ∧ (learning.half .A).learnWaits = false ∧
    (learning.img .A).learnEn = true ∧ vRetValid ((learning.img .A).chanAt (0 * 4096 + 1)).cur = true ∧
    vLearn ((learning.img .A).chanAt (0 * 4096 + 1)).cur = true ∧
    ((learning.img .A).chanAt (0 * 4096 + 1)).lock = false ∧ vStnMax ((learning.img .A).chanAt (0 * 4096 + 1)).cur = 0 ∧
    okStnEnt.moored = true ∧ ({ okStnEnt with moored := false } : Stn).moored = false ∧ okStnEnt.sc = okLearn.sc ∧
    okStnEnt.port = okLearn.port ∧ ({ okStnEnt with moored := false, port := 31, isStatic := true } : Stn).port ≠ okLearn.port ∧
    ({ okStnEnt with moored := false, sc := 8191 } : Stn).sc ≠ okLearn.sc ∧
    ((regsA learning [(0x700104, 1)]).img .A).learnEn = false ∧
    (learning.img .A).moorS ≠ 0 ∧ okStnEnt.moorAt + (learning.img .A).moorS * 1000000000 ≤ learning.now ∧
    ({ learning with now := 999999999 } : State).now < okStnEnt.moorAt + (learning.img .A).moorS * 1000000000 ∧
    (learning.img .A).stnAgeS ≠ 0 ∧
    (learning.img .A).stnSweptAt + (learning.img .A).stnAgeS * 1000000000 ≤ learning.now ∧
    (999999999 : Nat) < (learning.img .A).stnSweptAt + (learning.img .A).stnAgeS * 1000000000 ∧
    ((regsA solo [(0x700100, 0)]).img .A).stnAgeS = 0 ∧
    (learning.img .A).sweptAt + (learning.img .A).sweepS * 1000000000 ≤ learning.now ∧
    (999999999 : Nat) < (learning.img .A).sweptAt + (learning.img .A).sweepS * 1000000000 := by
  decide +kernel

theorem learning_at (v : Stn) : ((learningOf (oneStn v)).img .A).stnAt (stnKeyNat okLearn.key) = some v := by
  have h : (learningOf (oneStn v)).img .A = { (oneStn v).img .A with
      regs := ((learningOf (oneStn v)).img .A).regs, chan := [(1, { v0 := chanVersion })] } := rfl
  rw [h]; exact oneStn_at v

theorem witness_LearningAndAging_table :
    (learning.img .A).stnAt (stnKeyNat okLearn.key) = some okStnEnt ∧
    ((learningOf (oneStn { okStnEnt with moored := false })).img .A).stnAt (stnKeyNat okLearn.key) =
      some { okStnEnt with moored := false } ∧
    ((learningOf (oneStn { okStnEnt with moored := false, port := 31, isStatic := true })).img .A).stnAt
      (stnKeyNat okLearn.key) = some { okStnEnt with moored := false, port := 31, isStatic := true } ∧
    ((learningOf (oneStn { okStnEnt with moored := false, sc := 8191 })).img .A).stnAt (stnKeyNat okLearn.key) =
      some { okStnEnt with moored := false, sc := 8191 } ∧
    ((learningOf solo).img .A).stnAt (stnKeyNat okLearn.key) = none ∧
    ((learningOf solo).img .A).slotAt (slotIn_ 0 (stnKeyNat okLearn.key)) = none ∧
    ((withStn (learningOf solo) fullStn).img .A).stnAt (stnKeyNat okLearn.key) = none ∧
    ((withStn (learningOf solo) fullStn).img .A).pathFor (stnKeyNat okLearn.key) = none ∧
    (learning.img .A).stn = [(slotIn_ 0 (stnKeyNat okStn), some (stnKeyNat okStn, okStnEnt))] :=
  ⟨learning_at _, learning_at _, learning_at _, learning_at _, stnAt_empty _ rfl _, rfl, stnAt_full _ (withStn_stn _ _) _ (by decide),
    pathFor_full _ (withStn_stn _ _) _, rfl⟩

theorem witness_LearningAndAging_sweep :
    ((imgA solo fun im => { im with chan := [(0, { hit := true, lock := true })] }).img .A).chan =
      [(0, { hit := true, lock := true })] ∧ Executes chanState tblHdr 0x0231 .A ∧ (0x8FFF : BitVec 16).toNat / 4096 % 8 = 0 ∧
    ((chanState.img .A).sc .rx 8191).args.any (·.mka) = false ∧
    (((imgA solo fun im => { im with scRx := [(8191, okScMka)] }).img .A).sc .rx 8191).args.any (·.mka) = true := by
  simp only [executes_iff]; decide

/-! ## Witnesses: the hall and frames -/

theorem witness_HallCommandsSetAndRead : Executes solo okHdr 0x0501 .A ∧ okShaper.w = .immediate ∧
    4095 < shaperCount .sc ∧ privileged .sc 4095 = false ∧ privileged .queue 504 = true ∧ privileged .queue 505 = false ∧
    privileged .control 15 = true ∧ (1600000 : Nat) < 1600001 ∧ Executes solo okHdr 0x0502 .A ∧ Executes solo okHdr 0x0503 .A ∧
    Executes solo okHdr 0x0504 .A ∧ Executes solo okHdr 0x0505 .A := by
  simp only [executes_iff]; decide

theorem witness_RefillTicksFillTheBuckets :
    let s := imgA solo fun im => { im with shapers := [(5, { en := true, rate := 1600000, burst := 16777215 })] }
    let p := imgA solo fun im => { im with pols := [(16383, { cir := 1600000, cbs := 1, ebs := 2 })] }
    (s.half .A).up = true ∧ (s.img .A).pendShape = [] ∧ (s.half .A).cqCells = [] ∧ (s.img .A).pols = [] ∧
    (s.img .A).shapers = [(5, { en := true, rate := 1600000, burst := 16777215 })] ∧
    (p.half .A).up = true ∧ (p.img .A).shapers = [] ∧
    (p.img .A).pols = [(16383, { cir := 1600000, cbs := 1, ebs := 2 })] ∧ tabGet (0, 0) (p.half .A).polLv 16383 = (0, 0) := by
  decide

/-- Entry 1 of client port 0 leads to transmit SC 0 on line port 31 in class 7; SA 3 of it is current. -/
def clientState : State :=
  imgA (regsA chanState [(pktOff 31, 0xE0004000), (0x200008, 0)]) fun im => { im with
    chan := [(1, { v0 := 1 + 7 * 2 ^ 15 })], scTx := [(0, { args := some { okSc with port := 31 }, cur := some 3 })],
    saTx := [(3, { inst := true, resident := true })] }
def taggedFrame : FrameIn := { okFrame with tags := [{ tpid := 0x8100, tci := 0xE001 }] }

theorem witness_ClientFramesEnterTheirQueue :
    let s := clientState
    let c := (s.img .A).chanAt (0 * 4096 + (s.img .A).vidOf 0 taggedFrame.tags)
    (s.half .A).up = true ∧ (s.img .A).pktClient 0 = true ∧ s.carries = true ∧ (s.half .A).restarting 0 = false ∧
    (s.img .A).typeAt 0 taggedFrame ≠ 0x88F7 ∧ (s.img .A).vidOf 0 taggedFrame.tags = 1 ∧ vInValid c.cur = true ∧
    vInMode c.cur = 0 ∧ vPolEn c.cur = false ∧
    ((s.img .A).sc .tx (vTxSc c.cur)).args = some { okSc with port := 31 } ∧ (s.img .A).lineServes 31 = true ∧
    ((s.img .A).sc .tx (vTxSc c.cur)).cur = some 3 ∧ ((s.img .A).sa .tx (vTxSc c.cur) 3).orphaned = false ∧
    ((s.img .A).sa .tx (vTxSc c.cur) 3).exhausted = false ∧ ((s.img .A).sa .tx (vTxSc c.cur) 3).resident = true ∧
    vClass c.cur = 7 ∧ vInValid ((solo.img .A).chanAt (0 * 4096 + (s.img .A).vidOf 0 taggedFrame.tags)).cur = false ∧
    s.isActive .A = true := by decide

theorem witness_ClientFramesEnterTheirQueue_stops : (State.reset.half .A).up = false ∧
    ({ clientState with tam := { clientState.tam with seed := false } } : State).carries = false ∧
    ((withA clientState fun y => y.setLane 0 { y.lane 0 with pcsRestart := true }).half .A).restarting 0 = true := by decide

theorem witness_ClientFramesEnterTheirQueue_room :
    ((regsA clientState [(queueOff 511, 0xC001)]).half .A).refuses (8 * (32 + 31) + 7) = none := by decide

/-- A frame stands in class 7 of client port 31, and of line port 31. -/
def queued : State := withA clientState fun y => { y with queues := [(255, [okHFrame]), (511, [{ okHFrame with an := 3 }])] }

theorem witness_SchedulerTakesTheLowestClass :
    let s := queued
    (s.half .A).up = true ∧ tabGet none (s.half .A).sending 31 = none ∧ tabGet none (s.half .A).paused 31 = none ∧ (s.half .A).queue_ (8 * 31 + 7) = okHFrame :: [] ∧
    (∀ b, b < 7 → (s.half .A).queue_ (8 * 31 + b) = []) ∧ (∀ b, b < 8 → ((s.img .A).shaper (8 * 31 + b)).en = false) ∧
    (s.img .A).pktClient 31 = true ∧ (s.half .A).restarting 31 = false ∧ okHFrame.waits = false ∧
    tabGet none (s.half .A).sending 63 = none ∧ tabGet none (s.half .A).paused 63 = none ∧ (s.half .A).queue_ (8 * 63 + 7) = { okHFrame with an := 3 } :: [] ∧
    (∀ b, b < 7 → (s.half .A).queue_ (8 * 63 + b) = []) ∧ (∀ b, b < 8 → ((s.img .A).shaper (8 * 63 + b)).en = false) ∧
    ((s.img .A).shaper (shaperKey .sc 0)).en = false ∧ ((s.img .A).sc .tx 0).args = some { okSc with port := 31 } ∧
    ((s.img .A).sc .tx 0).cur = some 3 ∧ ((s.img .A).sa .tx 0 3).orphaned = false ∧
    ((s.img .A).sa .tx 0 3).exhausted = false ∧ ((s.img .A).sa .tx 0 3).resident = true ∧
    okHFrame.clear = false ∧ (s.img .A).lineServes (63 - 32) = true ∧
    ((s.img .A).sa .tx 0 3).pn ≤ lastPn .gcm128 ∧ s.isActive .A = true ∧
    (withA s fun y => { y with helm := {} }).isActive .A = false := by decide

/-- Line port 31 is enabled; receive SC 8191 on it has an SA under AN 0, and its return entry 1 leads to client port 0. -/
def lineState : State :=
  imgA (regsA solo [(pktOff 31, 0xE0004000), (0x200008, 0)]) fun im => { im with
    scRx := [(8191, { args := some { okSc with dir := .rx, port := 31, replayProtect := true } })],
    saRx := [(4 * 8191, { inst := true, resident := true, pn := 1 })], chan := [(31 * 4096 + 1, { v0 := chanVersion })] }
/-- The SecTAG of a frame that is only authenticated, so that what it delivers can be read here. -/
def clearSecTag : SecTag := { okSecTag with e := false, c := false }
def taggedLine : LineFrameIn :=
  { okLineFrame with secTag := some clearSecTag, data := [0x81, 0, 0xE0, 1, 0x90, 0] ++ List.replicate 42 0 }
def rxArgs : ScArgs := { okSc with dir := .rx, port := 31, replayProtect := true }

theorem witness_LineFramesDecryptIntoTheirQueue :
    let s := lineState
    let v := (s.img .A).sa .rx 8191 0
    let r := validateFrame 0 (sakBytes .gcm128 ((s.img .A).key v.handle).key)
      (frameIv .gcm128 0 v.ssci ((s.img .A).key v.handle).salt 1) taggedLine clearSecTag
    let g := delivered taggedLine r.1
    let c := (s.img .A).chanAt (31 * 4096 + (s.img .A).vidOf 31 g.tags)
    (s.half .A).up = true ∧ (s.img .A).lineServes 31 = true ∧ s.carries = true ∧
    tagSeen ((s.img .A).portClearTags 31) taggedLine = some clearSecTag ∧ secTagOk true clearSecTag 48 = true ∧
    taggedLine.data.length = 48 ∧ (s.img .A).rxScFor 31 clearSecTag = some 8191 ∧
    ((s.img .A).sc .rx 8191).args = some rxArgs ∧ secTagOk (suiteXpn .gcm128) clearSecTag 48 = true ∧
    v.inst = true ∧ v.orphaned = false ∧ v.resident = true ∧ recoverPn .gcm128 clearSecTag.pn v.pn = 1 ∧ v.pn ≤ 1 ∧
    g.tags = [{ tpid := 0x8100, tci := 0xE001 }] ∧ (s.img .A).retQueue c.cur = some 0 ∧
    secTagOk true { clearSecTag with v := true } 48 = false ∧
    (s.img .A).rxScFor 31 { clearSecTag with sci := 1 } = none ∧ ((s.img .A).sa .rx 8191 3).inst = false := by
  decide +kernel

theorem witness_LineFramesDecryptIntoTheirQueue_late :
    rxArgs.replayProtect = true ∧ recoverPn .gcm128 1 (2 : Nat) < 2 := by decide

theorem witness_LineFramesDecryptIntoTheirQueue_room : (lineState.half .A).refuses 0 = none := by decide +kernel

def okRx : RxFrame :=
  { id := 1, sc := 8191, an := 0, pn := 1, queue := some 0, port := 31, c := true, icvOk := true, learn := none }

theorem witness_VerdictsRaiseThePacketNumber :
    let s := withA lineState fun y => { y with rxFrames := [okRx], queues := [(0, [okHFrame])] }
    let w := { okHFrame with unsure := true }
    let t := withA lineState fun y =>
      { y with rxFrames := [okRx], sending := [(0, some { queue := 0, frame := w, wire := 64 })] }
    (s.half .A).rxFrames = okRx :: [] ∧ ((s.img .A).sa .rx okRx.sc okRx.an).inst = true ∧ okRx.queue = some 0 ∧
    (s.half .A).queue_ 0 = [okHFrame] ∧ okHFrame.id = okRx.id ∧ tabGet none (s.half .A).sending 0 = none ∧
    okRx.icvOk = true ∧ ((s.img .A).sc .rx okRx.sc).args = some rxArgs ∧ (s.img .A).portStrict okRx.port = true ∧
    ({ okRx with icvOk := false } : RxFrame).icvOk = false ∧
    (t.half .A).rxFrames = okRx :: [] ∧ (t.half .A).queue_ 0 = [] ∧
    tabGet none (t.half .A).sending 0 = some { queue := 0, frame := w, wire := 64 } ∧ w.id = okRx.id ∧ w.unsure = true ∧
    t.obeyed = some .A := by decide

/-! ## Witnesses: keys -/

def domKey : KeyEnt := { st := 1, serial := 1, kind := 1, origin := 1, len256 := true, resident := true }
def mod3 (d : Nat) : Nat := mkHandle 3 d 0
/-- Domain 15 with a blob area and, unless `new`, its key; a serial is left. -/
def domain15 (new : Bool) : State :=
  imgA solo fun im => { im with areas := [(15, some (0, 1048832))], keys := if new then [] else [(mod3 15, domKey)],
                                serialEnd := 2 }
def caImport : ImportArgs := { okImport with parent := mod3 15, kind := 4 }

theorem witness_KeyCreationStartsWithItsBlob :
    let s := domain15 true
    Executes solo (onRing 15 false) 0x0101 .A ∧ serves 15 15 = true ∧ (1048832 : Nat) ≤ 1048832 ∧
    Executes s okHdr 0x0102 .A ∧ ((s.img .A).key (mkHandle 3 15 0)).st = 0 ∧ (s.img .A).creating (mkHandle 3 15 0) = false ∧
    tabGet none (s.img .A).areas 15 ≠ none ∧ s.tam.seed = true ∧ (s.img .A).serial < (s.img .A).serialEnd ∧
    ({ s with tam := { s.tam with seed := false } } : State).executor okHdr = some .A ∧
    Executes (domain15 false) (onRing 15 false) 0x0103 .A ∧ hLanding caImport.parent = 3 ∧ hDomain caImport.parent = 15 ∧
    importOk caImport = true ∧ (((domain15 false).img .A).key caImport.parent).st = 1 ∧ caImport.kcv = none ∧
    ((domain15 false).img .A).count4 15 < 4096 ∧ tabGet none ((domain15 false).img .A).areas 15 ≠ none ∧
    ((domain15 false).img .A).serial < ((domain15 false).img .A).serialEnd ∧ (1048832 : Nat) % 256 = 0 := by
  simp only [executes_iff]; decide

def cakKey : KeyEnt := { st := 1, serial := 2, parent := mod3 15, parSerial := 1, kind := 4, origin := 4, resident := true }
def okJob : Job :=
  { cmd := cmdOf okHdr 0x0103, on := .dma, status := stDone, cflags := 0, result := [], area := none,
    cont := .create key15 cakKey }

theorem witness_KeysExistOnceWrittenAndJournalled :
    let s := imgA (domain15 false) fun im => { im with jobs := [okJob] }
    let r : PendRec := { id := 5, by_ := .A, rec_ := .key key15 cakKey }
    let d := { s with flash := { s.flash with recs := [r] } }
    (s.img .A).jobs = [okJob] ∧ okJob.cmd.fn = okHdr.fn ∧ okJob.cmd.table = okHdr.table ∧ okJob.cmd.pos = okHdr.pos ∧
    okJob.cmd.tag = okHdr.tag ∧ s.executor okHdr = some .A ∧ okJob.on = .dma ∧ okJob.cont = .create key15 cakKey ∧
    s.board.powerFail = false ∧ (s.img .A).entryAddr key15 ≠ none ∧ (s.img .A).parentLive key15 cakKey = true ∧
    d.holder = some .A ∧ d.flash.recs = [r] ∧ okJob.cmd.op ≠ 0x0820 ∧ (d.img .A).sessions = [] := by decide

/-- Domain 15 with a landing-4 key at generation 3. -/
def replaceable : State := imgA (domain15 false) fun im => { im with keys := [(key15, { cakKey with gen := 3 })] }
def gang (r : Option Nat) : Gangway := { handle := key15, gen := 4, key := 1, kcv := 1, rec_ := r }

theorem witness_ReplacementKeepsTheHandle :
    let s := replaceable
    let g := imgA s fun im => { im with gangways := [gang none] }
    let c := imgA { s with flash := { s.flash with recs := [{ id := 5, by_ := .A, rec_ := .commit key15 4 1 1 }] } } fun im =>
      { im with gangways := [gang (some 5)] }
    Executes s (onRing 15 false) 0x0104 .A ∧ hLanding key15 = 4 ∧ serves 15 (hDomain key15) = true ∧
    ((s.img .A).key key15).st = 1 ∧ 3 = ((s.img .A).key key15).gen ∧ ((s.img .A).key key15).origin = 4 ∧
    (s.img .A).gangways = [] ∧ tabGet none (s.img .A).areas (hDomain key15) ≠ none ∧
    (g.img .A).gangways = [gang none] ∧ (gang none).handle = key15 ∧ 2 + 1 = ((s.img .A).key key15).gen ∧
    4 + 1 ≠ ((s.img .A).key key15).gen ∧ 4 ≠ ((s.img .A).key key15).gen ∧
    c.holder = some .A ∧ (c.img .A).cas = [] ∧ (c.img .A).boundTribs key15 = [] ∧ (c.img .A).sessions = [] ∧
    (c.img .A).gangways = [gang (some 5)] ∧ c.flash.recs = [{ id := 5, by_ := .A, rec_ := .commit key15 4 1 1 }] := by
  simp only [executes_iff]; decide

theorem witness_InvalidationCascades :
    let s := regsA (imgA (domain15 false) fun im => { im with keys := [(mod3 15, domKey), (key15, cakKey)] })
      [(0x9000F0, 0x01000000)]
    let k := keysA solo [(sak0, sakKey)]
    let c : Cascade := { root := mod3 15, endsAt := 9, grace := 1 }
    let g := imgA { s with now := 9 } fun im => { im with cascades := [c] }
    let d := keysA solo [(mod3 15, { domKey with st := 3 })]
    handleOk 15 (mod3 15) = true ∧ Executes s okHdr 0x0105 .A ∧ ((s.img .A).key (mod3 15)).st = 1 ∧
    ((s.img .A).key (mod3 15)).bound = none ∧ ((s.img .A).key (mod3 15)).mka = false ∧ hLanding (mod3 15) ≠ 5 ∧
    0 < (s.img .A).graceS (hDomain (mod3 15)) ∧ s.board.powerFail = false ∧
    descends (mod3 15) 1 ((s.img .A).key key15) = true ∧ Executes k okHdr 0x0105 .A ∧ hLanding sak0 = 5 ∧
    ((k.img .A).key sak0).st = 1 ∧ ((k.img .A).key sak0).bound = none ∧ g.holder = some .A ∧ (g.img .A).cascades = [c] ∧
    c.root = mod3 15 ∧ c.endsAt ≤ g.now ∧ ({ g with now := 8 } : State).now < c.endsAt ∧
    Executes d okHdr 0x0106 .A ∧ ((solo.img .A).key (mod3 15)).st = 0 ∧ ((d.img .A).key (mod3 15)).st = 3 ∧
    (d.img .A).descendants (mod3 15) = [] ∧ (d.img .A).cascades = [] ∧ d.board.powerFail = false ∧
    handleOk 0 sak0 = true := by
  simp only [executes_iff]; decide

theorem witness_LoadsAreChecked :
    let s := imgA (domain15 false) fun im => { im with
      keys := [(mod3 15, domKey), (key15, { cakKey with resident := false })], loads := [key15] }
    let f : Flash := { used := 49152 }
    s.holder = some .A ∧ (s.img .A).loads = [key15] ∧ (s.img .A).jobs = [] ∧ (solo.img .A).loads = [] ∧
    f.compacting = false ∧ 49152 ≤ f.used ∧ ({ f with used := 49151 } : Flash).used < 49152 ∧
    ({ f with compacting := true } : Flash).compacting = true ∧ s.board.powerFail = false := by decide

theorem witness_QueriesWriteTheirResultArea :
    let s := keysA solo [(mod3 15, domKey)]
    let c := { solo with flash := { solo.flash with charter := some okCharter } }
    let j : Job := { okJob with area := some (8, [(1, 2)]), cont := .finish }
    let d := imgA solo fun im => { im with jobs := [j] }
    Executes s okHdr 0x0107 .A ∧ handleOk 15 (mod3 15) = true ∧ ((s.img .A).key (mod3 15)).st ≠ 0 ∧
    Executes s okHdr 0x0303 .A ∧ Executes timed okHdr 0x0306 .A ∧ (timed.img .A).tribEn 31 = true ∧
    Executes s okHdr 0x0905 .A ∧ Executes c okHdr 0x0907 .A ∧ c.flash.charter = some okCharter ∧
    Executes s okHdr 0x0904 .A ∧ s.pkeFull .A 0 = false ∧ Executes s okHdr 0x0804 .A ∧ Executes s okHdr 0x0810 .A ∧
    Executes s okHdr 0x0821 .A ∧ d.executor okHdr = some .A ∧ (d.img .A).jobs = [j] ∧ j.cmd = cmdOf okHdr j.cmd.op ∧
    j.on = .dma ∧ j.cont = .finish ∧ j.area = some (8, [(1, 2)]) ∧ j.cmd.op ≠ 0x0820 := by
  simp only [executes_iff]; decide

/-- A standing configuration of one record. -/
def oneCfg : CfgImg := { records := [(0x600208, 1)], saveCount := 1, run := 1, valid := true }

theorem witness_QueriesWriteTheirResultArea_config :
    let s := { solo with flash := { solo.flash with cfg0 := some oneCfg } }
    s.flash.config = some oneCfg ∧ oneCfg.valid = true ∧ oneCfg.len ≤ oneCfg.len ∧ oneCfg.len - 1 < oneCfg.len := by
  decide

/-- The public-key engine of half A is up and idle. -/
def engine : State := withA solo fun y => { y with pke := { ok := true }, img := { y.img with hssEnd := 1 } }

theorem witness_EngineStartsOperations :
    let c := imgA engine fun im => { im with curves := [(7, some okCurve)] }
    engine.pkeFull .A 15 = false ∧ Executes engine (onRing 15 false) 0x0903 .A ∧ (engine.img .A).verifyNs .dual ≠ none ∧
    okVerify.msg.length ≤ 16777216 ∧ Executes engine okHdr 0x0901 .A ∧ (engine.img .A).curveAt 7 = false ∧ (192 : Nat) ≤ ({ okCurve with bits := 521 } : Curve).bits ∧
    Executes c okHdr 0x0902 .A ∧ (c.img .A).curveAt 7 = true ∧
    Executes (keysA engine [(mod3 15, domKey)]) okHdr 0x0108 .A ∧ handleOk 0 (mod3 15) = true ∧
    (((keysA engine [(mod3 15, domKey)]).img .A).key (mod3 15)).st ≠ 0 ∧
    (engine.img .A).hssNext < (engine.img .A).hssEnd ∧ (engine.half .A).pke.ok = true ∧ Executes engine okHdr 0x0906 .A ∧
    (solo.half .A).pke.ok = false ∧ (engine.half .A).pke.testing = false ∧ (engine.half .A).pke.queue = [] ∧
    (engine.half .A).pke.lanes = [] := by
  simp only [executes_iff]; decide

theorem witness_ResultsAreReleasedAtTheirDeadline :
    let r : PkeRun := { op := { id := 3, ns := 20000000 }, at_ := 20000000 }
    let j : Job := { okJob with on := .pke 3, cont := .finish }
    let s := withA { solo with now := 19999999 } fun y =>
      { y with pke := { ok := true, lanes := [(0, some r)] }, img := { y.img with jobs := [j] } }
    let t := withA pair fun y => { y with pke := { testing := true }, helm := { y.helm with st := .out } }
    (s.half .A).up = true ∧ (s.half .A).pke.lanes = [(0, some r)] ∧ (s.half .A).pke.queue = [] ∧ (s.half .A).ctrs = [] ∧
    (s.img .A).jobs = [j] ∧ j.on = .pke r.op.id ∧ j.cont = .finish ∧ j.area = none ∧ j.cmd.op ≠ 0x0820 ∧ s.now < r.at_ ∧
    r.at_ ≤ ({ s with now := 20000000 } : State).now ∧ (t.half .A).up = true ∧ (t.half .A).pke.testing = true ∧
    (t.half .A).pke.queue = [] ∧ (t.img .A).jobs = [] ∧ t.isActive .A = false ∧ (solo.half .A).pke.testing = false := by
  decide

/-! ## Witnesses: peers, key agreement and associations -/

theorem witness_PiecesJoinReassemblies :
    let r : Reasm :=
      { c := .port 31, ty := 0x34, sender := 8191, session := 1, total := 1009, pieces := 2, got := [(0, [5])], at_ := 0 }
    let p : Piece :=
      { ty := 0x34, version := 1, sender := 8191, session := 1, piece := 1, pieces := 2, total := 1009, data := [0] }
    let o : Piece := { p with pieces := 1, piece := 0, total := 96, ty := 0x20, data := List.replicate 96 0 }
    let s := withA { solo with now := 99999999 } fun y => { y with reasm := [r] }
    let t : Reasm := { r with pieces := 3, total := 2017 }
    let q : Piece := { p with pieces := 3, total := 2017, data := List.replicate 1008 0 }
    carrierOk (.port 31) = true ∧ (s.half .A).up = true ∧ (2 : Nat) ≠ 1 ∧ pieceType 0x23 = false ∧ pieceType 0x35 = false ∧
    p.version = 1 ∧ pieceType p.ty = true ∧ pieceOk p = true ∧ 2 ≤ p.pieces ∧ (solo.half .A).reasm = [] ∧
    pieceOk o = true ∧ o.pieces = 1 ∧ o.ty = 0x20 ∧ o.data.length = 96 ∧ pieceOk { p with data := [] } = false ∧
    (s.half .A).reasm = [r] ∧ r.takes (.port 31) p = true ∧ r.pieces = p.pieces ∧ pieceAt r.got p.piece = none ∧
    r.got.length + 1 = p.pieces ∧ t.takes (.port 31) q = true ∧ pieceOk q = true ∧ t.pieces = q.pieces ∧
    pieceAt t.got q.piece = none ∧ t.got.length + 1 < q.pieces ∧ pieceAt [(1, [0])] p.piece = some p.data ∧
    pieceAt [(1, [1])] p.piece = some [1] ∧ [1] ≠ p.data ∧ r.c = .port 31 ∧
    s.now < r.at_ + 100000000 ∧ r.at_ + 100000000 ≤ ({ s with now := 100000000 } : State).now := by decide +kernel

def ownCharter : Charter := okCharter
def okPeer : Peer := { digest := 9, run := 1, caps := 0, hailMs := 10, moored := none, assoc := [63, 95] }

/-- An enrolled module on half A: line port 31 is enabled, and hails are on. -/
def enrolled : State :=
  { regsA solo [(pktOff 31, 0xE0004000), (0x200008, 0), (0xA00004, 0x8000000A), (tribCfgOff 31, 0x80000500)] with
    flash := { charter := some ownCharter, anchor := some okAnchor }, now := 10000000 }
/-- It knows member 8191. -/
def known (p : Peer) : State := imgA enrolled fun im => { im with peers := [(8191, some p)] }
def peerHail : HailBody := { okHail with mdomain := 7, member := 8191, digest := 9, hailMs := 10 }

theorem witness_HailsKeepThePeerTable :
    let s := enrolled
    let k := known okPeer
    let l := withA (regsA s [(0x200000, 8)]) fun y => y.setLane 63 { y.lane 63 with pwrNow := 2 }
    carrierOk (.port 31) = true ∧ (∀ j, Carrier.port 31 ≠ .lane j) ∧ s.holder = some .A ∧ s.flash.charter = some ownCharter ∧ s.phase = .running ∧
    bit ((s.img .A).reg 0 0xA00004) 31 = true ∧ (s.img .A).hush ≤ s.now ∧ s.hailDue .A (.port 31) = true ∧
    l.hailDue .A (.lane 31) = true ∧ l.hailDue .A (.lane 30) = false ∧ s.hailDue .A (.lane 31) = false ∧ (s.half .A).up = true ∧ peerHail.member ≠ s.member ∧
    10 ≤ peerHail.hailMs ∧ peerHail.hailMs ≤ 1000 ∧ peerHail.member < 8192 ∧ some peerHail.mdomain = s.mdomain ∧
    (k.img .A).peer 8191 = some okPeer ∧ okPeer.digest = peerHail.digest ∧ okPeer.run = peerHail.run ∧
    okPeer.digest ≠ ({ peerHail with digest := 8 } : HailBody).digest ∧ okPeer.moored = none ∧ (s.img .A).peers = [] ∧
    (s.img .A).pairings = [] ∧ some ({ peerHail with mdomain := 8 } : HailBody).mdomain ≠ s.mdomain ∧
    (∀ r, r < 32 → ((s.img .A).txA r).torn = false) := by
  refine ⟨by decide, ?_, by decide +kernel⟩
  intro j h; cases h

theorem witness_PeersDepartMooredAndAreReleased :
    let s := withA { known okPeer with now := 40000001 } fun y => { y with heard := [(heardKey 8191 95, 1)] }
    let t := withA s fun y => { y with heard := [(heardKey 8191 63, 1), (heardKey 8191 95, 1)] }
    let m := regsA { known { okPeer with moored := some 0 } with now := 1000000 } [(0xA00008, 1)]
    s.holder = some .A ∧ (s.img .A).peer 8191 = some okPeer ∧ carrierOk (.port 31) = true ∧
    tabGet 0 (s.half .A).heard (heardKey 8191 (carrierKey (.port 31))) = 1 ∧
    tabGet 0 (s.half Half.A.other).heard (heardKey 8191 (carrierKey (.port 31))) = 0 ∧
    ({ s with now := 40000000 } : State).now ≤ 1 - 1 + 3 * okPeer.hailMs * 1000000 + 10000000 ∧
    1 - 1 + 3 * okPeer.hailMs * 1000000 + 10000000 < s.now ∧ okPeer.moored = none ∧ (s.img .A).moorMs ≠ 0 ∧
    (∀ k, k < 96 → k ≠ carrierKey (.port 31) → tabGet 0 (s.half .A).heard (heardKey 8191 k) = 0) ∧
    tabGet 0 (t.half .A).heard (heardKey 8191 63) ≠ 0 ∧ (m.img .A).peer 8191 = some { okPeer with moored := some 0 } ∧
    ({ m with now := 999999 } : State).now < 0 + (m.img .A).moorMs * 1000000 ∧ 0 + (m.img .A).moorMs * 1000000 ≤ m.now ∧
    32 + 31 ∈ okPeer.assoc ∧ (m.img .A).termTrib 31 = true ∧ Executes m okHdr 0x0404 .A ∧ m.flash.charter ≠ none ∧
    Executes s okHdr 0x0404 .A ∧ Executes s okHdr 0x0403 .A ∧ okHdr.fn = 0 := by
  simp only [executes_iff]; decide +kernel

/-- The periodic rekey of tributary 31, armed. -/
def rekeySched : Sched := { okSched with cmd := none, op := 0x0431, period := 1, act := .rekey .tributary 31 }

theorem witness_RekeysAreSetAndCleared :
    let s := { timed with flash := { timed.flash with charter := some ownCharter } }
    let c := imgA s fun im => { im with sched := [(255, some rekeySched)] }
    let b := imgA { bound31 { st := .run } with now := 1 } fun im => { im with stepAt := [(31, 2)] }
    Executes s (onRing 15 false) 0x0431 .A ∧ instantOk lastAt = true ∧ ((s.half .A).tb 3).valid = true ∧
    (s.img .A).rekeyOpen 15 .tributary 31 = true ∧ s.flash.charter ≠ none ∧ (s.img .A).rekeyEntry .tributary 31 = none ∧
    (s.img .A).schedFull 15 1 = false ∧ timed.flash.charter = none ∧ Executes c okHdr 0x0432 .A ∧
    (c.img .A).rekeyEntry .tributary 31 = some 255 ∧ b.holder = some .A ∧ tabGet 0 (b.img .A).stepAt 31 ≠ 0 ∧
    ((b.img .A).txA 31).bound = some key15 ∧ ({ b with now := 0 } : State).now < tabGet 0 (b.img .A).stepAt 31 - 1 ∧
    tabGet 0 (b.img .A).stepAt 31 - 1 ≤ b.now ∧ ((b.img .A).txA 31).st = .run ∧ ((b.img .A).key key15).st = 1 ∧
    ((b.img .A).txA 31).spent = false ∧ (b.img .A).termTrib 31 = true ∧
    (((bound31 { st := .announced }).img .A).txA 31).st = .announced := by
  simp only [executes_iff]; decide

def okPair : Pairing := { okPairing with member := 8191, object := 31, domain := 15, auto := true }
/-- Bytes of zeros. -/
def zeros (n : Nat) : List Nat := List.replicate n 0
theorem zeros_length (n : Nat) : (zeros n).length = n := List.length_replicate
/-- The body of an OFFER of purpose 1 from a member, with the digest of its charter (Table 10.5). -/
def offerOf (mdomain init resp tag : Nat) (digest : List Nat) : List Nat :=
  ([1, 0, 0, 0] ++ beBytes 4 tag ++ leBytes 16 mdomain ++ beBytes 2 init ++ beBytes 2 resp) ++ digest ++
    zeros 1700
/-- The body of an ANSWER with a signature of no bytes (Table 10.6). -/
def answerOf (tag resp : Nat) (digest : List Nat) : List Nat :=
  (beBytes 4 tag ++ beBytes 2 resp ++ [0, 0]) ++ digest ++ zeros 1702
def noDigest : List Nat := List.replicate 48 0
def okOffer : List Nat := offerOf 7 8191 1 0 noDigest
def okAnswer : List Nat := answerOf 0 8191 noDigest
def okZka : Zka :=
  { session := 1, initiator := true, pairing := 2047, peer := 8191, carrier := .port 31, st := .offered, since := 0, at_ := 0,
    sends := 0, want := none, offer := offerOf 7 1 8191 0 noDigest }
/-- Pairing 2047 with member 8191, in the domain 15, whose key is LIVE, and the sessions given. -/
def paired (l : List Zka) : State :=
  imgA { known okPeer with now := 1000000000 } fun im => { im with
    pairings := [(2047, some okPair)], keys := [(mkHandle 3 15 0, domKey)], sessions := l, autoAt := [(2047, 1)] }

theorem witness_PairingsOpenSessions :
    let s := paired []
    s.flash.charter ≠ none ∧ (s.img .A).pairingOpen 15 2047 = true ∧ Executes s (onRing 15 false) 0x0401 .A ∧
    okPair.target = 0 ∧ hLanding (mkHandle 4 15 0) = 4 ∧ hDomain (mkHandle 4 15 0) = okPair.domain ∧
    ((s.img .A).key (mkHandle 4 15 0)).st = 0 ∧ Executes s okHdr 0x0402 .A ∧
    (∀ z ∈ (s.img .A).sessions, z.open = true → z.pairing ≠ 2047) ∧ (s.img .A).pairing 2047 = some okPair ∧
    (s.img .A).openSessions.length < 64 ∧ s.hssSpent .A = false ∧ ((s.img .A).key (mkHandle 3 okPair.domain 0)).st = 1 ∧
    Executes s okHdr 0x0411 .A ∧ (s.img .A).present okPair.member = true ∧
    ((imgA s fun im => { im with peers := [] }).img .A).present okPair.member = false ∧ s.holder = some .A ∧
    okPair.auto = true ∧ s.member < okPair.member ∧ tabGet 0 (s.img .A).autoAt 2047 ≠ 0 ∧
    ({ s with now := 99999999 } : State).now < tabGet 0 (s.img .A).autoAt 2047 - 1 + (s.img .A).zkaTimeout ∧
    tabGet 0 (s.img .A).autoAt 2047 - 1 + ((regsA s [(0xA0000C, 1000)]).img .A).zkaTimeout ≤ s.now := by
  simp only [executes_iff]; decide

theorem witness_PairingsOpenSessions_cancel :
    let s := paired [okZka]
    (s.img .A).sessions = [okZka] ∧ okZka.open = true ∧ serves 15 ((s.img .A).pairDomain okZka.pairing) = true ∧
    Executes s (onRing 15 false) 0x0412 .A := by
  simp only [executes_iff]; decide +kernel

def peerCharter : Charter := charterOf 8191 7 1

theorem ofCharter_offerOf (d i r g : Nat) : ofCharter (offerOf d i r g (sha2 384 peerCharter.bytes)) = peerCharter.digest :=
  congrArg leNat (bytesAt_append (by simp) (by simp))

theorem anCharter_answerOf (g r : Nat) : anCharter (answerOf g r (sha2 384 peerCharter.bytes)) = peerCharter.digest :=
  congrArg leNat (bytesAt_append (by simp) (by simp))

theorem cached_peerCharter (s : State) (d : Nat) (h : d = peerCharter.digest) :
    ((imgA s fun im => { im with charters := [peerCharter] }).img .A).cached d = some peerCharter := by
  subst h
  show [peerCharter].find? _ = _
  rw [List.find?_cons_of_pos (by simp)]

theorem witness_OffersAreAnswered :
    let s := paired []
    carrierOk (.trib 31) = true ∧ s.holder = some .A ∧ s.flash.charter ≠ none ∧ (s.img .A).sessions = [] ∧
    (s.img .A).offers = [] ∧ offerOk okOffer = true ∧ some (ofMdomain okOffer) = s.mdomain ∧
    ofRespId okOffer = s.member ∧ (s.img .A).matching okOffer = some 2047 ∧ (s.img .A).present (ofInitId okOffer) = true ∧
    s.hssSpent .A = false ∧ (s.img .A).cached (ofCharter okOffer) = none ∧ offerOk [] = false ∧
    some (ofMdomain (offerOf 8 8191 1 0 noDigest)) ≠ s.mdomain ∧ ofRespId (offerOf 7 8191 2 0 noDigest) ≠ s.member ∧
    (s.img .A).matching (offerOf 7 8191 1 1 noDigest) = none := by decide +kernel

theorem witness_OffersAreAnswered_cached :
    let b := offerOf 7 8191 1 0 (sha2 384 peerCharter.bytes)
    let c := imgA (paired []) fun im => { im with charters := [peerCharter] }
    offerOk b = true ∧ some (ofMdomain b) = c.mdomain ∧ ofRespId b = c.member ∧ (c.img .A).matching b = some 2047 ∧
    (c.img .A).present (ofInitId b) = true ∧ c.hssSpent .A = false ∧
    (c.img .A).cached (ofCharter b) = some peerCharter := by
  refine ⟨?_, by decide +kernel, by decide +kernel, by decide +kernel, by decide +kernel, by decide +kernel,
    cached_peerCharter _ _ (ofCharter_offerOf _ _ _ _)⟩
  rw [offerOk, show (offerOf 7 8191 1 0 (sha2 384 peerCharter.bytes)).length = 1776 by simp [offerOf, zeros_length]]
  rfl

theorem witness_InitiatorFollowsItsTable :
    let s := paired [okZka]
    let f : Zka := { okZka with st := .finished, sends := 9, at_ := 800000000, macR := List.replicate 32 0 }
    carrierOk (.port 31) = true ∧ s.holder = some .A ∧ (s.img .A).sessions = [okZka] ∧ okZka.initiator = true ∧
    okZka.carrier = .port 31 ∧ (s.img .A).pairing okZka.pairing = some okPair ∧ okZka.st = .offered ∧ okZka.want = none ∧
    answerOk okAnswer = true ∧ anTag okAnswer = ofTag okZka.offer ∧ anRespId okAnswer = okZka.peer ∧
    s.hssSpent .A = false ∧ (s.img .A).cached (anCharter okAnswer) = none ∧ answerOk [] = false ∧
    anTag (answerOf 1 8191 noDigest) ≠ ofTag okZka.offer ∧ anRespId (answerOf 0 8190 noDigest) ≠ okZka.peer ∧
    f.st = .finished ∧ f.at_ + 200000000 ≤ (paired [f]).now ∧ f.sends < 10 ∧ 10 ≤ ({ f with sends := 10 } : Zka).sends ∧
    ([] : List Nat).length ≠ 32 ∧ (List.replicate 32 1).length = 32 ∧ List.replicate 32 1 ≠ f.macR ∧ f.macR.length = 32 ∧
    okPair.target = 0 := by decide +kernel

theorem witness_InitiatorFollowsItsTable_cached :
    let b := answerOf 0 8191 (sha2 384 peerCharter.bytes)
    let c := imgA (paired [okZka]) fun im => { im with charters := [peerCharter] }
    answerOk b = true ∧ anTag b = ofTag okZka.offer ∧ anRespId b = okZka.peer ∧ c.hssSpent .A = false ∧
    (c.img .A).cached (anCharter b) = some peerCharter := by
  refine ⟨?_, by decide +kernel, by decide +kernel, by decide +kernel, cached_peerCharter _ _ (anCharter_answerOf _ _)⟩
  have h : (answerOf 0 8191 (sha2 384 peerCharter.bytes)).length = 1758 := by simp [answerOf, zeros_length]
  have h2 : bytesAt (answerOf 0 8191 (sha2 384 peerCharter.bytes)) 1756 2 = [0, 0] := by
    have hl : (beBytes 4 0 ++ beBytes 2 8191 ++ [0, 0] ++ sha2 384 peerCharter.bytes).length = 56 := by simp
    rw [bytesAt, answerOf, List.drop_append, List.drop_of_length_le (by omega), List.nil_append, hl]
    decide +kernel
  rw [answerOk, h, h2]; rfl

theorem witness_ResponderFollowsItsTable :
    let z : Zka := { okZka with initiator := false, st := .answered }
    let i : Zka := { z with st := .installing, rec_ := some 4, handle := mkHandle 4 15 0 }
    let e : KeyEnt := { cakKey with origin := 2 }
    let r : PendRec := { id := 4, by_ := .A, rec_ := .key i.handle e }
    let s := paired [z]
    let t := { paired [i] with flash := { (paired [i]).flash with recs := [r] } }
    let b : List Nat := List.replicate 34 0
    let q : ZkaRec := { session := 1, macI := List.replicate 32 0, macR := [], at_ := 0 }
    let u := { paired [] with flash := { (paired []).flash with zkaRecs := [q] } }
    let d : Zka := { z with st := .closed }
    s.holder = some .A ∧ s.flash.charter ≠ none ∧ z.initiator = false ∧ z.carrier = .port 31 ∧
    (s.img .A).pairing z.pairing = some okPair ∧ okPair.target = 0 ∧ (s.img .A).sessions = [z] ∧ z.st = .answered ∧
    finishOk b = true ∧ finishOk [] = false ∧
    (t.img .A).sessions = [i] ∧ i.st = .installing ∧ i.rec_ = some 4 ∧ (t.img .A).jobs = [] ∧ t.flash.recs = [r] ∧
    t.flash.zkaRecs = [] ∧ (u.img .A).sessions = [] ∧ u.flash.zkaRecs = [q] ∧ q.macI = fiMac b ∧
    ({ u with now := 29999999999 } : State).now < q.at_ + 30000000000 ∧
    q.at_ + 30000000000 ≤ ({ u with now := 30000000000 } : State).now ∧ ((paired [d]).img .A).sessions = [d] ∧
    d.st = .closed ∧ d.at_ = 0 := by decide +kernel

theorem witness_SessionsEndAndChartersAreExchanged :
    let s := paired [okZka]
    let b := beBytes 2 3972 ++ peerCharter.bytes
    (s.img .A).sessions = [okZka] ∧ okZka.open = true ∧ okZka.carrier = .port 31 ∧ 2 ≠ okZka.session ∧
    okZka.since + ((regsA s [(0xA0000C, 1000)]).img .A).zkaTimeout ≤ s.now ∧
    ({ s with now := 99999999 } : State).now < okZka.since + (s.img .A).zkaTimeout ∧
    peerCharter.bytes = b.drop 2 ∧ b.length = 2 + beNat (b.take 2) ∧ ([1] : List Nat).length ≠ 2 + beNat ([1].take 2) ∧
    s.flash.charter = some ownCharter := by decide +kernel

def okCaArgs : CaArgs := { okCa with port := 31, handle := key15, ckn := [0], priority := 255 }
def okPeerCa : CaPeer := { mi := 1, mn := 4, priority := 0, sci := 9, live := true, rx := [], at_ := 0 }
def okCaSt : Ca :=
  { args := okCaArgs, mi := 2, mn := 1, peers := [], tx := 0, rx := [], sak := none, at_ := 0, regen := none,
    ckn := [0] }
/-- A CAK for line port 31, and the CA of index 1023 if there is one. -/
def withCa (c : Option Ca) : State :=
  imgA enrolled fun im => { im with
    keys := [(key15, cakKey)], cas := match c with | some v => [(1023, some v)] | none => [] }

theorem witness_AssociationsAreBoundAndUnbound :
    let s := withCa none
    let p := keysA s [(key15, { cakKey with resident := false })]
    s.flash.charter ≠ none ∧ Executes s (onRing 15 false) 0x0421 .A ∧ (s.img .A).caArgsOk okCaArgs = true ∧
    serves 15 (hDomain okCaArgs.handle) = true ∧ (s.img .A).ca 1023 = none ∧ ((s.img .A).key okCaArgs.handle).st = 1 ∧
    ((s.img .A).key okCaArgs.handle).kind = 4 ∧ cknOk ((s.img .A).key okCaArgs.handle).origin okCaArgs.ckn = true ∧
    (s.img .A).scTx.length < 4096 ∧ (s.img .A).pinned4 < 2048 ∧ ((s.img .A).key okCaArgs.handle).resident = true ∧
    ((p.img .A).key okCaArgs.handle).resident = false ∧ Executes s okHdr 0x0422 .A ∧
    ((withCa (some okCaSt)).img .A).cas = [(1023, some okCaSt)] ∧ serves 15 okCaSt.domain = true ∧
    Executes (withCa (some okCaSt)) (onRing 15 false) 0x0422 .A := by
  simp only [executes_iff]; decide

/-- An MKPDU with its ICV as zeros. -/
def frameOf (m : Mkpdu) : FrameIn :=
  { id := 0, dst := paeGroup, src := 9, tags := [], etherType := 0x888E,
    payload := [3, 5] ++ beBytes 2 (((mkaSets m).flatMap setBytes).length + 16) ++ (mkaSets m).flatMap setBytes ++
      List.replicate 16 0 }
/-- What a new peer, of the highest priority, says. -/
def okMkpdu : Mkpdu :=
  { priority := 0, server := true, sci := 9, mi := 1, mn := 5, ckn := [0], live := [(2, 1)], potential := [], latest := none,
    sak := none }
def okDist : DistSak := { an := 3, offset := 0, kn := 1, suite := .gcm128, key := List.replicate 24 0 }

theorem witness_ParticipantsExchangeKeys :
    let c : Ca := { okCaSt with peers := [okPeerCa] }
    let s := imgA (withCa (some okCaSt)) fun im => { im with scTx := [(0, plainSc)] }
    let t := withCa (some c)
    s.holder = some .A ∧ (s.img .A).cas = [(1023, some okCaSt)] ∧ readMkpdu okFrame = none ∧
    readMkpdu (frameOf okMkpdu) = some okMkpdu ∧
    readMkpdu (frameOf { okMkpdu with ckn := [1] }) = some { okMkpdu with ckn := [1] } ∧ [1] ≠ okCaSt.ckn ∧
    readMkpdu (frameOf { okMkpdu with mn := 4 }) = some { okMkpdu with mn := 4 } ∧ okMkpdu.mi = okPeerCa.mi ∧
    4 ≤ okPeerCa.mn ∧ okMkpdu.ckn = okCaSt.ckn ∧ okMkpdu.mi ≠ okCaSt.mi ∧ okMkpdu.lists okCaSt = true ∧
    okCaSt.peers = [] ∧ okCaSt.rx = [] ∧ okCaSt.sak = none ∧ okMkpdu.sak = none ∧ okMkpdu.installed = [] ∧
    ((s.img .A).key okCaSt.args.handle).st = 1 ∧ (s.img .A).scRx.length < 8192 ∧
    ((s.img .A).sc .tx okCaSt.tx).args = some okSc ∧
    t.holder = some .A ∧ (t.img .A).cas = [(1023, some c)] ∧
    readMkpdu (frameOf { okMkpdu with sak := some okDist }) = some { okMkpdu with sak := some okDist } ∧
    okPeerCa.live = true ∧ okPeerCa.mn < okMkpdu.mn ∧ okMkpdu.server = true ∧ c.args.suites.contains okDist.suite = true ∧
    (regsA { s with now := 99999999 } [(0xA00010, 1)]).now < okCaSt.at_ + ((regsA s [(0xA00010, 1)]).img .A).helloNs ∧
    okCaSt.at_ + ((regsA s [(0xA00010, 1)]).img .A).helloNs ≤ 100000000 ∧ (s.img .A).wantSak = [] := by decide +kernel

theorem witness_ParticipantsExchangeKeys_server (sci : Nat) :
    preferred 255 sci 0 9 = false ∧ preferred 0 sci 255 9 = true := by
  simp [preferred]

theorem witness_LifeTimesEnd :
    let k : CaSak := { an := 3, key := 1, kn := 1, mi := 2, server := true, at_ := 0, inUse := false }
    let c : Ca := { okCaSt with peers := [okPeerCa], rx := [(9, 8191)], sak := some k, regen := some 0 }
    let d : Ca := { c with peers := [] }
    let w (r : Bool) := imgA (regsA (withCa (some c)) [(0xA00010, 1)]) fun im => { im with
      saTx := [(3, { inst := true, resident := r })], saRx := [(4 * 8191 + 3, { inst := true, usePosted := true })] }
    let s := w true
    s.holder = some .A ∧ (s.img .A).cas = [(1023, some c)] ∧ c.peers = [okPeerCa] ∧ okPeerCa.live = true ∧
    (s.img .A).mooredOn c.args.port = false ∧ c.args.group = false ∧ 299999999 < okPeerCa.at_ + (s.img .A).lifeNs ∧
    okPeerCa.at_ + (s.img .A).lifeNs ≤ 300000000 ∧ c.sak = some k ∧ k.inUse = false ∧
    ((s.img .A).sa .tx c.tx k.an).inst = true ∧ ((s.img .A).sa .tx c.tx k.an).resident = true ∧
    299999999 < k.at_ + (s.img .A).lifeNs ∧ k.at_ + (s.img .A).lifeNs ≤ 300000000 ∧
    ((w false).img .A).cas = [(1023, some c)] ∧ (((w false).img .A).sa .tx c.tx k.an).inst = true ∧
    (((w false).img .A).sa .tx c.tx k.an).resident = false ∧ (((w false).img .A).sc .tx c.tx).cur ≠ some k.an ∧
    d.regen = some 0 ∧ d.live = [] ∧ (0 : Nat) ≠ k.an ∧ (s.img .A).oldRxDone c 300000000 = true := by decide +kernel

/-! ## Witnesses: time and the helm -/

/-- A module whose TB3 takes the samples of source `src`. -/
def source (src : Nat) : State := regsA timed [(0xC00060, BitVec.ofNat 32 (src * 2 ^ 28))]

/-- A one-step Sync of a PTP domain, all else zeros. -/
def ptpSync (domain : Nat) : List Nat := [0, 2, 0, 44, domain] ++ List.replicate 39 0

theorem witness_TimeSetStepsOneTimeBase :
    instantOk lastAt = true ∧ instantOk badAt = false ∧ Executes timed okHdr 0x0301 .A ∧
    instantOk { lastAt with time := { okTime with nanos := 1000000000 } } = false ∧ instantOk { lastAt with reserved := 1 } = false ∧
    Executes (source 3) okHdr 0x0302 .A ∧ ((source 3).img .A).tbSrc 3 ≠ 2 ∧
    ((armed okSched).img .A).schedAt 255 = some okSched := by
  simp only [executes_iff]; decide

theorem witness_SamplesSteerTheirTimeBase :
    let pps := regsA (source 4) [(0xC00104, 0x30000000)]
    let ptp := regsA (source 1) [(0xC00300, 0xBF30FF00)]
    let m := ptpSync 255
    let f := withA ptp fun y => { y with ptp := { master := some (0, 0, 0) } }
    let e : TimeVal := { okTime with nanos := 100000000 }
    (source 3).holder = some .A ∧ 4 ≠ ((source 3).img .A).tbSrc 3 ∧ (3 : Nat) ≠ 0 ∧ 3 = ((source 3).img .A).tbSrc 3 ∧
    Executes (source 2) okHdr 0x0302 .A ∧ instantOk lastAt = true ∧ ((source 2).img .A).tbSrc 3 = 2 ∧
    (-2 : Int) ^ 63 ≤ 2 ^ 63 - 1 ∧ bit ((pps.img .A).tcCfg 1) 31 = false ∧ bits ((pps.img .A).tcCfg 1) 29 28 = 3 ∧
    (pps.img .A).tbSrc 3 = 3 + 1 ∧ ((pps.half .A).tb 3).valid = true ∧ (ppsTheta e 0).natAbs ≤ 100000000 * 65536 ∧
    100000000 * 65536 < (ppsTheta { e with subns := 1 } 0).natAbs ∧ bits ((ptp.img .A).reg 0 0xC00300) 29 24 = 63 ∧
    (ptp.half .A).ptp.follows m = false ∧ ((ptp.half .A).ptp.take m 0).2 = none ∧ (f.half .A).ptp.follows m = true ∧
    ptpType m = 0 ∧ ptpTwoStep m = false ∧ ((f.half .A).ptp.take m 0).2 = some (0, sinceSample 0 0) ∧
    bit ((ptp.img .A).reg 0 0xC00300) 31 = true ∧ bits ((ptp.img .A).reg 0 0xC00300) 15 8 = ptpDomain m ∧
    bits ((ptp.img .A).reg 0 0xC00300) 21 20 = 3 ∧ (ptp.img .A).tbSrc 3 = 1 ∧
    bits ((ptp.img .A).reg 0 0xC00300) 15 8 ≠ ptpDomain (ptpSync 254) := by
  simp only [executes_iff]; decide +kernel

theorem witness_SamplesSteerTheirTimeBase_clauses :
    let b : TBase := { valid := true, good := 15 }
    let w : Word := 0x08000001
    b.valid = true ∧ ({} : TBase).valid = false ∧ bit w 27 = true ∧ bits w 15 0 * 65536 < (65537 : Int).natAbs ∧
    (-65536 : Int).natAbs ≤ bits w 15 0 * 65536 ∧ 50 * 65536 < (-3276801 : Int).natAbs ∧ (3276800 : Int).natAbs ≤ 50 * 65536 ∧
    15 ≤ b.good ∧ b.st ≠ .holdover := by decide

theorem witness_HoldoverAndPulses :
    let b : TBase := { valid := true, st := .locked, lastAt := 1 }
    let s := withA { source 3 with now := 4000000000 } fun y => { y with tbs := [(3, b)] }
    let p := regsA { solo with board := { solo.board with ppsAt := [(1, 1)] }, now := 1100000000 } [(0xC00104, 0x30000000)]
    let o := regsA (withA solo fun y => { y with tbs := [(3, { valid := true, sec := 1 })] }) [(0xC00104, 0xB0FF0000)]
    s.holder = some .A ∧ (s.half .A).tb 3 = b ∧ b.st = .locked ∧ b.lastAt ≠ 0 ∧
    b.lastAt - 1 + (s.half .A).holdoverNs ((s.img .A).tbSrc 3) ≤ s.now ∧
    ({ s with now := 3999999999 } : State).now < b.lastAt - 1 + (s.half .A).holdoverNs ((s.img .A).tbSrc 3) ∧
    bit ((p.img .A).tcCfg 1) 31 = false ∧ 1 ∉ p.board.ppsLost ∧ tabGet 0 p.board.ppsAt 1 - 1 + 1100000000 ≤ p.now ∧
    ({ p with now := 1099999999 } : State).now < tabGet 0 p.board.ppsAt 1 - 1 + 1100000000 ∧
    bits ((o.img .A).tcCfg 1) 29 28 = 3 ∧ bit ((o.img .A).tcCfg 1) 31 = true ∧ ((o.half .A).tb 3).valid = true ∧
    ((((o.half .A).tb 3).ns : Int) + (o.img .A).cableNs 1) % 1000000000 = 0 ∧
    2 < ((3 : Int) + (o.img .A).cableNs 1) % 1000000000 ∧ ((999999997 : Int) + (o.img .A).cableNs 1) % 1000000000 < 999999998 := by
  decide

def okHo : Handover := { accepted := true, age := 0, by_ := none, late := false, returnMs := 0, tb := none }
def okCpl : Cpl :=
  { op := 0, fn := 0, table := false, half := .A, status := 0, tag := 0, pos := 0, cflags := 0, result := [] }
def okPlaced : Placed := { fn := 0, ring := 2, pos := 0, entry := .cont true 1 { seq := 1, post := .cpl okCpl } }
def okCopy : Copy :=
  { n := 1, gen := 1, renew := true, relinq := false, offer := false, final := false, health := 0, fwdCount := 0, seq := 9,
    pns := [], wharf := [], cfc := [], mfas := 0, pend := [], writes := [], fns := [], entries := [], hssNext := 0, tbs := [], at_ := 0, stats := none, ho := none,
    img := some {} }
def okAck : Ack := { n := 1, renew := true, health := 2 ^ 63, base := 0, fwd := [], dbs := [], answer := none }

theorem witness_CrossingsSendCopies : (pair.half .A).up = true ∧ (pair.half .A).helm.st.active = true ∧
    (pair.half .A).sealable true = false ∧ (pair.half .A).helm.st = .activePaired ∧ (pair.half .B).up = true ∧
    (pair.half .B).helm.st = .inStep ∧ Executes pair okHdr 0x0601 .A ∧ 8191 + 1 ≤ (statShape 6).2 ∧
    (statShape 6).2 < 8191 + 2 ∧ 3 + 1 ≤ (statShape 11).2 := by
  simp only [executes_iff]; decide

/-- The pair, with the copies and the ACKs that wait on the ferry link. -/
def sent (copies : List Copy) (acks : List Ack) : State :=
  { pair with a := { pair.a with kept := copies }, b := { pair.b with acks } }

theorem witness_CopiesAreAppliedAndAcknowledged :
    let s := sent [okCopy] []
    let c := { okCopy with entries := [okPlaced] }
    let g := sent [c] [okAck]
    let w := { g with b := { g.b with helm := { g.b.helm with claim := true, gen := 9 } } }
    (s.half .B).up = true ∧ (s.half .A).up = true ∧ (s.half .B).helm.st = .inStep ∧ (s.half .B).ferryUp = true ∧
    (s.half .A).kept = [okCopy] ∧ okCopy.gen = (s.half .B).helm.copyGen ∧ okCopy.n = (s.half .B).helm.crossing + 1 ∧
    okCopy.final = false ∧ okCopy.renew = true ∧ ({ okCopy with final := true } : Copy).final = true ∧
    ({ okCopy with n := 0 } : Copy).n ≤ (s.half .B).helm.crossing ∧
    ((sent [okCopy, { okCopy with n := 2 }] []).half .A).kept = [okCopy, { okCopy with n := 2 }] ∧
    ({ okCopy with n := 2 } : Copy).n = (s.half .B).helm.crossing + 2 ∧ ((sent [] [okAck]).half .A).helm.st = .activePaired ∧
    ((sent [] [okAck]).half .B).acks = [okAck] ∧ okAck.renew = true ∧ okAck.fwd = [] ∧ okAck.dbs = [] ∧
    (sent [] [okAck]).holder = some .A ∧ ((sent [] [okAck]).half .A).ferryUp = true ∧ g.holder = some .A ∧
    (g.half .A).ferryUp = true ∧ (w.half .A).helm.st.active = true ∧ w.holder ≠ some .A ∧ (w.half .A).ferryUp = true ∧
    (w.half .B).acks = [okAck] ∧ (solo.half .A).ferryUp = false ∧ mfasOf 0 = (pair.half .A).mfas ∧
    mfasOf 138570 ≠ (pair.half .A).mfas ∧ (pair.half .B).ferryUp = true ∧ (solo.half .B).ferryUp = false ∧
    hwBits okAck.health 63 63 = 1 ∧ ((sent [] [okAck]).half .A).gov.paceLimit = false ∧
    ((sent [] [okAck]).half .A).kept = [] ∧ ((sent [] [okAck]).half .A).helm.handover = none ∧
    (g.half .A).kept = [c] ∧ c.entries = [okPlaced] ∧ (g.half .A).helm.acked < c.n ∧ c.n ≤ okAck.n ∧
    (g.half .A).helm.st.active = true ∧ (g.half .B).helm.st.active = false := by decide

/-- The pair, with the helm of half A or B changed. -/
def helmed (f g : Helm → Helm) : State := { pair with a := { pair.a with helm := f pair.a.helm },
                                                      b := { pair.b with helm := g pair.b.helm } }

theorem witness_LeasesExpire :
    let r := helmed (fun m => { m with noAck := 6 }) fun m => { m with silence := 10 }
    let q := helmed (fun m => { m with st := .relinquished, claim := false, noAck := 12 }) id
    let h := { pair with a := { pair.a with haltCause := 1, helm := { pair.a.helm with st := .halted, claim := false } },
                         b := { pair.b with img := { pair.b.img with seq := 1 } } }
    let k := { pair with b := { pair.b with haltCause := 1 }, a := { pair.a with img := { pair.a.img with seq := 1 } } }
    let n := { k with a := { k.a with helm := { k.a.helm with st := .activeSolo } } }
    (r.half .A).up = true ∧ (r.half .A).helm.st = .activePaired ∧ 6 ≤ (r.half .A).helm.noAck ∧
    (pair.half .A).helm.noAck < 6 ∧ (r.half .B).up = true ∧ (r.half .B).helm.st = .inStep ∧
    (r.half .B).helm.sealed = none ∧ 10 ≤ (r.half .B).helm.silence ∧ (pair.half .B).helm.silence < 10 ∧
    (q.half .A).helm.st = .relinquished ∧ 12 ≤ (q.half .A).helm.noAck ∧ (q.half .B).helm.claim = false ∧ (11 : Nat) < 12 ∧
    (h.half .A).haltCause ≠ 0 ∧ (h.half .B).helm.st = .inStep ∧ (k.half .B).haltCause ≠ 0 ∧ (k.half .A).up = true ∧
    (h.half .B).ferryUp = true ∧ (h.half .B).img.seq ≠ 0 ∧ (k.half .A).ferryUp = true ∧ (k.half .A).img.seq ≠ 0 ∧
    (k.half .A).helm.st = .activePaired ∧ (n.half .B).haltCause ≠ 0 ∧ (n.half .A).ferryUp = true ∧
    (n.half .A).img.seq ≠ 0 ∧ (n.half .A).helm.st = .activeSolo ∧ (n.half .A).helm.haltNotice = false ∧
    (pair.half .B).haltCause = 0 ∧ (solo.half .A).ferryUp = false := by decide

theorem witness_ClaimsDecideWhoIsActive :
    let c := helmed (fun m => { m with claim := true }) fun m => { m with st := .activePaired, claim := true, gen := 2 }
    let d := helmed (fun m => { m with st := .inStep, sealed := some 10 }) fun m => { m with st := .activePaired, claim := true, gen := 2 }
    let e := helmed (fun m => { m with st := .inStep, sealed := some 10 }) id
    let f := helmed (fun m => { m with handover := some okHo }) id
    (c.half .A).up = true ∧ (c.half .B).helm.claim = true ∧ c.obeyed = some .B ∧ (c.half .A).helm.st.active = true ∧
    (c.half .B).helm.st.active = true ∧ (c.half .A).helm.claim = true ∧ (d.half .A).helm.st = .inStep ∧
    (d.half .A).helm.sealed ≠ none ∧ d.obeyed = some .B ∧ (d.half .B).helm.claim = true ∧ pair.obeyed = some .A ∧
    (e.half .A).helm.sealed = some 10 ∧ e.obeyed ≠ some .B ∧ (9 : Nat) < 10 ∧ (f.half .A).sealable true = true := by decide

theorem witness_StandbysRejoin :
    let s := { helmed (fun m => { m with st := .activeSolo }) (fun m => { m with st := .out }) with
      flash := { fw0 := some { svn := 0, ferryVer := 1, ferryMin := 1, build := 0, digest := 0, loads := true } } }
    let t := { s with b := { s.b with helm := { s.b.helm with rejoining := true } } }
    (s.half .B).up = true ∧ (s.half .B).helm.st = .out ∧ (s.half .B).ferryUp = true ∧ (s.half .B).helm.katBad = [] ∧
    s.serving = some Half.B.other ∧ s.halvesInterwork = true ∧ (s.half .B).helm.rejoining = false ∧
    (s.half .A).haltCause = 0 ∧ (t.half .B).helm.rejoining = true ∧ (∀ p ∈ (t.half .B).helm.regionFails, p.2 < 3) ∧
    (t.half .A).helm.st = .activeSolo := by decide

theorem witness_SelfTestsTakeAHalfOutOfStep : (pair.half .B).up = true ∧
    ((withA solo fun y => { y with lanes := [(63, { pwrNow := 2, target := 2 })] }).half .A).lane 63 =
      { pwrNow := 2, target := 2 } ∧
    (solo.half .A).helm.st.active = true ∧ (pair.half .B).helm.st = .inStep ∧ pair.phase ≠ .cold ∧
    tabGet 0 (helmed id fun m => { m with regionFails := [(2431, 2)] }).b.helm.regionFails 2431 = 2 := by decide

theorem witness_HelmCommandsAct : Executes pair okHdr 0x0701 .A ∧ (pair.half .A).helm.st = .activePaired ∧
    (pair.half .B).helm.st = .inStep ∧ (pair.half .A).helm.handover = none ∧ (pair.img .A).schedFull 0 0 = false ∧
    (solo.half .A).helm.st = .activeSolo ∧ Executes solo okHdr 0x0701 .A ∧ Executes pair okHdr 0x0702 .A ∧
    pair.phase ≠ .cold ∧ (pair.half .B).haltCause = 0 ∧ (pair.half .A).haltCause = 0 ∧ State.reset.phase = .cold ∧
    Executes pair okHdr 0x0703 .A ∧ (pair.half .B).restarts < 65535 ∧
    65535 ≤ ({ pair with b := { pair.b with restarts := 65535 } } : State).b.restarts := by
  simp only [executes_iff]; decide

/-! ## Witnesses: lanes, the ferry link, frames -/

/-- Lanes 31 and 63 of half A move from QUIET to ACTIVE. -/
def moving (l : LaneSt) : State := withA solo fun y => { y with lanes := [(31, l), (63, l)] }

theorem witness_LanesMoveAndAdapt :
    let q : LaneSt := { pwrNow := 1, target := 2 }
    ((moving q).half .A).up = true ∧ ((moving q).half .A).lane 63 = q ∧ q.pwrNow ≠ q.target ∧
    ({ q with target := 0 } : LaneSt).target = 0 ∧ q.target ≠ 0 ∧ ({ q with target := 1 } : LaneSt).pwrNow = 1 ∧
    q.signal ≠ true ∧ (tabGet {} (moving q).slips (slipKey 63 .rx) : Slip).stopped = false ∧ q.pwrNow ≠ 0 ∧
    ({} : LaneSt).pwrNow = 0 ∧ ({ q with signal := true, lock := true } : LaneSt).signal = true ∧
    ({ q with signal := true, lock := true } : LaneSt).lock = true ∧ q.adapted = false := by decide

theorem witness_SlipwaysStop :
    let v : Slip := { lost1 := true, lost2 := true }
    let s : State := { solo with slips := [(slipKey 63 .rx, v)] }
    s.holder = some .A ∧ tabGet {} s.slips (slipKey 63 .rx) = v ∧ v.lost1 = true ∧ v.lost2 = true ∧ v.lost1 ≠ false ∧
    v.stopped = false ∧ s.slipFed 63 .rx = true ∧ State.reset.slipFed 63 .tx = false ∧ ({} : Slip).lost1 = false ∧ ({ stopped := true } : Slip).stopped = true := by decide

theorem witness_FerryLanesLockAndEnterUse : (pair.half .A).up = true ∧
    (tabGet {} (pair.half .A).ferry 7 : FerryLane).locked = false ∧
    (tabGet {} (pair.half .A).ferry 7 : FerryLane).count = 0 ∧ (∀ hd ∈ List.replicate 64 2, headerOk hd = true) ∧
    (List.replicate 64 2).length = 64 ∧ headerOk 3 = false ∧ ({ locked := true, bad := 15 } : FerryLane).bad + 1 = 16 ∧
    ({ locked := true } : FerryLane).bad + 1 ≠ 16 ∧ (tabGet {} (pair.half .A).ferry 3 : FerryLane).locked = true ∧
    (ferryDelays ((pair.half .A).ferryArrivals 3 64000)).isSome = true ∧
    (ferryDelays ((pair.half .A).ferryArrivals 3 64001)).isNone = true := by decide +kernel

theorem witness_GovernorSteersTheVoltage :
    let g := (solo.half .A).gov
    let w := (solo.half .A).reg 0 0x100
    (List.replicate 16 881).length = 16 ∧ (solo.half .A).up = true ∧ bits w 25 16 < (List.replicate 16 881).foldl max 0 ∧
    (List.replicate 16 880).foldl max 0 ≤ bits w 25 16 ∧ bits w 25 16 - bits w 15 8 ≤ (List.replicate 16 840).foldl max 0 ∧
    (List.replicate 16 839).foldl max 0 < bits w 25 16 - bits w 15 8 ∧ g.lowRun ≠ 63 ∧
    ({ lowRun := 63 } : Gov).lowRun = 63 ∧ g.paceLimit = false ∧ ({ paceLimit := true } : Gov).paceLimit = true ∧
    ({ index := 639, words := 0, occ := 0, cerr := 0 } : FifoIn).index < 640 := by decide

/-- Lane 31 of half A searches, with one sounding. -/
def searching (l : RxLane) : State :=
  regsA (withA solo fun y => { y with
    lanes := [(63, { signal := true, lock := true, adapted := true, pwrNow := 2, target := 2 })], rxLanes := [(31, l)] })
    [(0x200000, 15)]

theorem witness_LanesAlign :
    let c : Sounding := { pos := 0, mfas := 255, count := 1 }
    let n := ((searching {}).img .A).confirmN
    let f : LaneFrameIn := { okLaneFrame with fasErrors := 3, ovh := 0 :: 255 :: List.replicate 54 0 }
    ((searching {}).half .A).hunting 31 = true ∧ ({} : RxLane).snds = [] ∧
    ((searching { snds := [c] }).half .A).hunting 31 = true ∧ ({ snds := [c] } : RxLane).snds = [c] ∧ c.pos = 0 ∧
    255 = c.mfas ∧ 254 ≠ c.mfas ∧ c.count + 1 < n ∧ n ≤ ({ c with count := n - 1 } : Sounding).count + 1 ∧
    ((searching { sync := true, mfas := 255 }).half .A).hunting 31 = false ∧ ((searching {}).half .A).up = true ∧
    ({} : RxLane).sync = false ∧ f.fasErrors ≤ 3 ∧ f.ovh.getD 1 0 = ({ sync := true, mfas := 255 } : RxLane).mfas ∧
    f.ovhOk = true ∧ ({ f with ovhOk := false } : LaneFrameIn).ovhOk = false ∧ (searching {}).isActive .A = true ∧
    3 < ({ f with fasErrors := 4 } : LaneFrameIn).fasErrors ∧
    ({} : RxLane).run + 1 < ((searching {}).img .A).lossM ∧
    ((searching {}).img .A).lossM ≤ ({ run := 15 } : RxLane).run + 1 := by decide

theorem witness_WindowsAndRetimesEnd :
    let e := (grouped.img .A).groupDegExp 15
    let p := (passing.img .A).pdegExp 30
    (grouped.img .A).laneGroup 31 = some 15 ∧ grouped.now < ((grouped.half .A).rxLane 31).wAt + degWindowNs e ∧
    ((grouped.half .A).rxLane 31).wAt + degWindowNs e ≤ 10 ^ 9 ∧ 131006 * 1 < 200000 * 10 ^ e ∧
    0 * 10 ^ (e + 1) ≤ 131006 * 1 ∧ 0 * 10 ^ (e + 1) ≤ 1 ∧ (passing.img .A).tribEn 30 = true ∧
    Side.B ∈ (passing.img .A).tribSides 30 ∧ passing.now < ((passing.half .A).side 30 .B).wAt + degWindowNs p ∧
    ((passing.half .A).side 30 .B).wAt + degWindowNs p ≤ 10 ^ 9 ∧ ({ wBad := true } : SideSt).wBad = true ∧
    ({} : SideSt).wBad = false ∧ 129024 * 1 < 2 * 10 ^ p ∧ 0 * 10 ^ (p + 1) ≤ 129024 * 1 ∧
    (grouped.half .A).rxLanes = [] := by decide

/-- The pointer word of a normal pointer 5, in three copies. -/
def ptr5 : List Nat := [0, 0, 0, 5, 0, 0, 0, 5, 0, 0, 0, 5, 0, 0, 0, 0]
/-- Tributary 31 of half A is a terminating one on slot (15, 1), and lane 31 brings that slot, with a pointer word in the
frame of MFAS 7. -/
def receiving (v : SlotRx) : State :=
  withA (regsA (searching { sync := true, lpos := some 1, gid := some 15, bufs := [(7, [(beNat ptr5, false)])] })
    [(0x3001F0, 0x80000500), (0x3001F4, 0xC0000000),
    (tribCfgOff 31, 0x80000500), (0x400080 + 0x100 * 31, 0x01F)]) fun y => { y with sides := [(62, { slots := [(0, v)] })] }

/-- A KEY_CONFIRM of epoch 1. -/
def confirmMsg : List Nat := withCrc (0x13 :: 1 :: 0 :: 0 :: 0 :: 1 :: List.replicate 18 0)

theorem witness_ContainerRowsAreInterpreted :
    let s := receiving { norm := true, cur := 5 }
    let c := imgA (withA s fun y => { y with tribs := [(31, { tmcRx := [confirmMsg] })] }) fun im =>
      { im with tx := [(31, { s0 := slotIn 2, st := .switched })] }
    (s.half .A).up = true ∧ (s.img .A).tribEn 31 = true ∧ Side.A ∈ (s.img .A).tribSides 31 ∧ 0 < (s.img .A).tribSlots 31 ∧
    ((s.img .A).slotsInUse 31 .A).getD 0 (0, 0) = (15, 1) ∧ (s.half .A).slotFailed 15 1 = false ∧
    (s.half .A).slotFailed 15 0 = true ∧ (s.half .A).slotWords 15 1 8 = none ∧
    (s.half .A).slotWords 15 1 7 = some [(beNat ptr5, false)] ∧ rcvPtr (wordBytes (beNat ptr5)) = some (0, 5) ∧
    rcvPtr [64, 0, 0, 5, 64, 0, 0, 5, 64, 0, 0, 5, 0, 0, 0, 0] = some (1, 5) ∧
    rcvPtr [128, 0, 0, 5, 128, 0, 0, 5, 0, 0, 0, 5, 0, 0, 0, 0] = some (2, 5) ∧
    rcvPtr [0, 0, 0, 5, 0, 0, 0, 6, 0, 0, 0, 7, 0, 0, 0, 0] = none ∧ 3 ≤ ({ norm := true, cur := 5 } : SlotRx).sinceAcc ∧
    ({ lopRun := 2, lopVal := 5 } : SlotRx).norm = false ∧ crcOk (withCrc (List.replicate 156 0)) = true ∧
    crcOk (List.replicate 160 1) = false ∧ ({ pbip := some 0 } : SlotRx).pbip = some 0 ∧ ({} : SlotRx).pbip = none ∧
    c.holder = some .A ∧ (c.img .A).termTrib 31 = true ∧ ((c.half .A).trib 31).tmcRx = confirmMsg :: [] ∧
    ((s.half .A).trib 31).tmcRx.head? ≠ some confirmMsg ∧ pieceType (confirmMsg.getD 0 0) = false ∧
    confirmMsg.length = 28 ∧ ([1] : List Nat).length ≠ 28 ∧ beNat (bytesAt confirmMsg 0 1) = 0x13 ∧
    beNat (bytesAt confirmMsg 1 1) = 1 ∧ beNat (bytesAt confirmMsg 2 4) = 1 ∧
    ((c.img .A).txA 31).inSt 2 = some (slotIn 2) ∧ ((c.img .A).txA 31).st = .switched ∧ (slotIn 2).epoch = 1 := by
  decide +kernel

/-- Pass-through tributary 31 receives slot (15, 1) on side A; side B has decided an adjustment. -/
def hub : State :=
  withA (regsA (searching { sync := true, lpos := some 1, gid := some 15 }) [(0x3001F0, 0x80000500), (0x3001F4, 0xC0000000),
    (tribCfgOff 31, 0xC0000500), (0x400080 + 0x100 * 31, 0x01F), (0x400080 + 0x100 * 31 + 64, 0x00F)]) fun y =>
    { y with sides := [(62, { slots := [(0, { norm := true })] }), (63, { pend := some (true, 1) })] }

theorem witness_FramesAreSent :
    let s := hub
    let f := imgA s fun im => { im with forced := [(62, 1)] }
    (s.half .A).up = true ∧ pair.obeyed ≠ some .B ∧ (pair.half .B).up = true ∧ timed.obeyed = some .A ∧
    timed.isActive .A = true ∧ (timed.img .A).termTrib 31 = true ∧ pair.isActive .B = false ∧
    ((searching {}).half .A).sendsFrames 31 = true ∧ (s.img .A).tribEn 31 = true ∧
    (s.img .A).tribPass 31 = true ∧ ((s.half .A).side 31 .B).pend = some (true, 1) ∧
    (s.half .A).hubAis 31 .B = false ∧ (f.half .A).hubAis 31 .B = true ∧ (s.half .A).adjustDue 1 = true ∧
    (s.half .A).adjustDue 2 = false ∧ ((s.half .A).side 31 .B).txNew = 0 ∧
    ((s.half .A).side 31 .B).recentre = false ∧ ({ act := 2 } : SideSt).act = 2 := by decide

/-! ## Witnesses: configuration, firmware, enrolment -/

/-- A flash record 0 on its way, for a command with this opcode. -/
def recording (op : Nat) (r : Rec) : State :=
  let j : Job := { cmd := { op, fn := 0, table := false, pos := 0, tag := 7 }, on := .flash 0, status := 0, cflags := 0,
                   result := [], area := none, cont := .finish }
  imgA { solo with flash := { recs := [{ id := 0, by_ := .A, rec_ := r }], nextRec := 1 } } fun im => { im with jobs := [j] }

def okImg : CfgImg := { records := [], saveCount := 1, run := 0, valid := true }

/-- A configuration image of one record, of the version given, with its CRC. -/
def cfgOf (version : Nat) : List Nat :=
  let h := ascii "FCFG" ++ [version, 0, 0, 0] ++ leBytes 4 1 ++ List.replicate 60 0
  h ++ leBytes 4 (crc32c h)

theorem witness_ConfigurationIsSavedAndModuleSet :
    let s := recording 0x0820 (.cfg true okImg)
    (onRing 0 false).fn = 0 ∧ solo.board.powerFail = false ∧ Executes solo okHdr 0x0820 .A ∧ Executes solo okHdr 0x0822 .A ∧
    cfgInputBad 76 (cfgOf 1) = false ∧ bytesAt [] 0 4 ≠ ascii "FCFG" ∧ (cfgOf 2).getD 4 0 ≠ 1 ∧
    75 ≠ 68 + 8 * cfgCount (cfgOf 1) ∧ (cfgOf 1).length ≠ 84 ∧
    leNat (bytesAt (cfgOf 1 ++ [0]) (65 + 8 * cfgCount (cfgOf 1)) 4) ≠ crc32c ((cfgOf 1).take (64 + 8 * cfgCount (cfgOf 1))) ∧
    s.holder = some .A ∧
    s.flash.recs = [{ id := 0, by_ := .A, rec_ := .cfg true okImg }] ∧ (s.img .A).sessions = [] ∧
    (∃ j : Job, (s.img .A).jobs = [j] ∧ j.on = .flash 0) ∧ Executes solo okHdr 0x0823 .A ∧ solo.tam.seed = true ∧
    (solo.img .A).service = false ∧ (solo.img .A).service ≠ true ∧
    ({ solo with tam := { solo.tam with seed := false } } : State).tam.seed = false := by
  simp only [executes_iff]
  refine ⟨?_, ?_, ?_, ?_, ?_, ?_, ?_, ?_, ?_, ?_, ?_, ?_, ?_, ⟨_, rfl, rfl⟩, ?_⟩ <;> decide +kernel

def fw (svn : Nat) : Fw := { svn, ferryVer := 1, ferryMin := 1, build := 0, digest := 0, loads := true }
/-- Both halves run slot 1, which is staged, and B is in step. -/
def activated : State :=
  { pair with flash := { fw1 := some (fw 3), staged := some 1, rollA := 1, rollB := 2 },
              a := { pair.a with boot := { pair.a.boot with slot := 1, svn := 3 } },
              b := { pair.b with boot := { pair.b.boot with slot := 1, svn := 3 } } }

theorem witness_FirmwareIsStagedActivatedAndCommitted :
    let s := recording 0x0803 (.fwCommit 1)
    Executes solo okHdr 0x0801 .A ∧ ([] : List Nat).length = 0 ∧ solo.pkeFull .A 0 = false ∧ fwHeaderOk [] = false ∧
    ([] : List Nat).getD 5 0 < activated.flash.rollback ∧
    (∃ w, activated.fwOf .A = some w ∧ interwork w (fwOfInput []) = false) ∧
    (∃ j : Job, j.cont = .stage 1 (fw 3)) ∧ Executes activated okHdr 0x0802 .A ∧
    0 = activated.flash.bootSlot ∧ activated.flash.staged = some 1 ∧ (activated.half Half.A.other).restarts < 65535 ∧
    65535 ≤ (({ activated with b := { activated.b with restarts := 65535 } } : State).half Half.A.other).restarts ∧
    Executes activated okHdr 0x0803 .A ∧ (∀ y : Half, (activated.half y).up = true ∧ (activated.half y).boot.slot = 1) ∧
    (activated.half .B).helm.st = .inStep ∧ (∀ y : Half, (solo.half y).helm.st ≠ .inStep) ∧
    (({ activated with a := pair.a } : State).half .A).boot.slot ≠ 1 ∧
    s.flash.recs = [{ id := 0, by_ := .A, rec_ := .fwCommit 1 }] ∧ (∃ j : Job, (s.img .A).jobs = [j] ∧ j.on = .flash 0 ∧
      j.cmd.op ≠ 0x0820) ∧ (s.img .A).sessions = [] ∧ s.holder = some .A := by
  simp only [executes_iff]
  refine ⟨?_, ?_, ?_, ?_, ?_, ⟨fw 3, ?_, ?_⟩, ⟨{ okJob with cont := .stage 1 (fw 3) }, rfl⟩, ?_, ?_, ?_, ?_, ?_, ?_, ?_, ?_,
    ?_, ?_, ?_, ⟨_, rfl, rfl, ?_⟩, ?_, ?_⟩ <;> first
    | decide +kernel
    | intro y; cases y <;> decide

/-- The module with an anchor and no charter. -/
def anchored : State := { solo with flash := { anchor := some okAnchor } }

theorem witness_EnrolmentTakesEffectOnceDurable :
    let s := recording 0x0811 (.anchor okAnchor)
    let t := recording 0x0812 (.charter okCharter)
    Executes solo okHdr 0x0811 .A ∧ solo.board.powerFail = false ∧ solo.flash.anchorTaken = false ∧
    (Anchor.mk okAnchor.bytes).formOk = true ∧ anchored.flash.anchor ≠ none ∧ ([] : List Nat).length ≠ 184 ∧
    bytesAt okCharter.bytes 0 4 ≠ ascii "FANC" ∧ ([] : List Nat).getD 4 0 ≠ 1 ∧ Executes anchored okHdr 0x0812 .A ∧
    anchored.pkeFull .A 0 = false ∧ Executes solo okHdr 0x0812 .A ∧ solo.pkeFull .A 0 = false ∧ solo.flash.anchor = none ∧
    ([] : List Nat).length ≠ 3972 ∧ (Charter.mk [0, 0, 0, 0, 0, 1]).idgen ≠ anchored.flash.idgen ∧
    (∃ o, enrolled.flash.charter = some o ∧ (Charter.mk okCharter.bytes).seq ≤ o.seq) ∧
    Executes enrolled okHdr 0x0812 .A ∧ enrolled.pkeFull .A 0 = false ∧ s.holder = some .A ∧
    s.flash.recs = [{ id := 0, by_ := .A, rec_ := .anchor okAnchor }] ∧ (s.img .A).sessions = [] ∧
    (∃ j : Job, (s.img .A).jobs = [j] ∧ j.on = .flash 0 ∧ j.cmd.op ≠ 0x0820) ∧ t.holder = some .A ∧
    t.flash.recs = [{ id := 0, by_ := .A, rec_ := .charter okCharter }] ∧ (t.img .A).sessions = [] ∧
    (∃ j : Job, (t.img .A).jobs = [j] ∧ j.on = .flash 0 ∧ j.cmd.op ≠ 0x0820) ∧
    (∃ j : Job, j.cont = .charter okCharter) := by
  simp only [executes_iff]
  refine ⟨?_, ?_, ?_, ?_, ?_, ?_, ?_, ?_, ?_, ?_, ?_, ?_, ?_, ?_, ?_, ⟨_, rfl, ?_⟩, ?_, ?_, ?_, ?_, ?_, ⟨_, rfl, rfl, ?_⟩, ?_,
    ?_, ?_, ⟨_, rfl, rfl, ?_⟩, ⟨{ okJob with cont := .charter okCharter }, rfl⟩⟩ <;> decide +kernel

/-- A charter is not this module's while its ECDSA key is not the module's. -/
theorem witness_EnrolmentTakesEffectOnceDurable_other : ∃ c : List Nat,
    (Charter.mk c).ecdsa ≠ idEcdsa (anchored.half .A).kram.birth anchored.flash.idgen := by
  by_cases h : (Charter.mk okCharter.bytes).ecdsa = idEcdsa (anchored.half .A).kram.birth anchored.flash.idgen
  · refine ⟨List.replicate 200 1, fun h' => ?_⟩
    rw [← h] at h'; revert h'; decide +kernel
  · exact ⟨_, h⟩

/-- The module enrolled in domain 7 as member 1, ERASED, with its HSS indices spent and IDGEN `g`. -/
def erased (g : Nat) : State :=
  { anchored with tam := { anchored.tam with seed := false },
                  flash := { anchored.flash with charter := some ownCharter, idgen := g, hssBlk := 2 ^ 28, run := 4 } }
/-- The bytes of an authorisation of this kind for it (Table 19.5), its signature as zeros. -/
def permit (kind g : Nat) : List Nat :=
  ascii "FAUT" ++ [1, kind, g, 0] ++ leBytes 16 7 ++ leBytes 2 1 ++ List.replicate 22 0 ++ leBytes 8 4 ++
    List.replicate 3708 0

theorem witness_AuthorisationsPermitTheirActs :
    let r : State := { solo with tam := { solo.tam with seed := false } }
    let l : State := { r with tam := { r.tam with latched := [3] } }
    let u : State := { erased 0 with flash := { (erased 0).flash with hssBlk := 0 } }
    Executes r okHdr 0x0109 .A ∧ r.flash.anchor = none ∧ r.tam.seed = false ∧ r.tamperHeld = false ∧
    Executes l okHdr 0x0109 .A ∧ l.flash.anchor = none ∧ l.tam.seed = false ∧ l.tamperHeld = true ∧
    Executes solo okHdr 0x0814 .A ∧ Executes solo okHdr 0x0109 .A ∧ solo.flash.anchor = none ∧
    solo.tam.seed = true ∧ Executes solo okHdr 0x0813 .A ∧ (erased 0).flash.anchor = some okAnchor ∧
    (erased 0).flash.charter = some ownCharter ∧
    authNames ownCharter (erased 0).flash.idgen (erased 0).flash.run (permit 1 0) = true ∧ (erased 0).pkeFull .A 0 = false ∧
    Executes (erased 0) okHdr 0x0109 .A ∧ authForm 1 ((permit 1 0).take 3764) = true ∧ (erased 0).tam.seed = false ∧
    (erased 0).tamperHeld = false ∧ Executes (erased 14) okHdr 0x0813 .A ∧ (erased 14).flash.anchor = some okAnchor ∧
    (erased 14).flash.charter = some ownCharter ∧ (erased 14).pkeFull .A 0 = false ∧
    authNames ownCharter (erased 14).flash.idgen (erased 14).flash.run (permit 2 14) = true ∧
    authForm 2 ((permit 2 14).take 3764) = true ∧ (erased 14).hssSpent .A = true ∧ (erased 14).flash.idgen < 15 ∧
    authNames ownCharter (erased 15).flash.idgen (erased 15).flash.run (permit 2 15) = true ∧
    authForm 2 ((permit 2 15).take 3764) = true ∧ 15 ≤ (erased 15).flash.idgen ∧ Executes (erased 15) okHdr 0x0813 .A ∧
    (erased 15).hssSpent .A = true ∧ Executes u okHdr 0x0813 .A ∧ u.hssSpent .A = false ∧ u.flash.anchor = some okAnchor ∧ u.flash.charter = some ownCharter ∧
    u.pkeFull .A 0 = false ∧ authNames ownCharter u.flash.idgen u.flash.run (permit 2 0) = true ∧
    Executes (erased 0) okHdr 0x0814 .A ∧
    authForm 3 ((permit 3 0).take 3764) = true ∧
    authNames ownCharter (erased 0).flash.idgen (erased 0).flash.run (permit 3 0) = true ∧ (permit 2 0).getD 5 0 ≠ 3 ∧
    authNames ownCharter (erased 0).flash.idgen (erased 0).flash.run (permit 2 0) = true ∧
    authNames ownCharter (erased 0).flash.idgen (erased 0).flash.run (permit 1 1) = false ∧ Executes (erased 0) okHdr 0x0813 .A ∧
    solo.phase = .running ∧ solo.tamperHeld = false := by
  simp only [executes_iff]
  repeat' apply And.intro
  all_goals decide +kernel
/-! ## Witnesses: protected memory -/

/-- Half A's DRAM is initialised, and holds some bytes and counters. -/
def stored : State := withA solo fun y =>
  { y with dram := { init := true, data := [(0, 1), (0x37FFFFFFF, 5)], minor := [(64, 255), (234881023, 3)],
                     cache := [3] } }

theorem witness_LinesAreSealedAndVerified :
    let d := (stored.half .A).dram
    let bad : DramIn := { bad := true }
    let node : DramIn := { node := some (5, [1]) }
    1536 / 512 ∈ d.cache ∧ 234881023 / 512 ∉ d.cache ∧ bad.bad = true ∧
    ({ line := some ([1, 2, 3, 4], 5) } : DramIn).line = some ([1, 2, 3, 4], 5) ∧
    ({ group := some [1] } : DramIn).group = some [1] ∧ node.node = some (5, [1]) ∧ node.bad = false ∧
    node.group = none ∧ node.line = none ∧ 1 ≤ 5 := by decide

theorem witness_MemoryIsReadAndWrittenByLines :
    let y := stored.half .A
    let bad : DramIn := { bad := true }
    y.up = true ∧ y.dram.init = true ∧ (6 : Nat) < 7 ∧ (234881023 : Nat) < 234881024 ∧
    stored.phase ≠ .cold ∧ 1536 / 512 ∈ y.dram.cache ∧ 234881023 / 512 ∉ y.dram.cache ∧ y.dram.cache.length < 1536 ∧
    y.lineFails 1536 {} true = none ∧ y.lineFails 1536 bad true = some .uncorrectable ∧
    0 < 256 ∧ 0x37FFFFF00 + 256 ≤ 0x380000000 ∧ 4096 / 64 = (4096 + 64 - 1) / 64 ∧
    255 ≤ y.dram.minorOf (4096 / 64) ∧ y.dram.minorOf 234881023 < 255 ∧
    0x37FFFFFFF / 64 = (0x37FFFFFFF + 1 - 1) / 64 ∧
    0 ≤ (32 + 100 - 1) / 64 - 32 / 64 ∧ 2 ≤ (32 + 100 - 1) / 64 - 32 / 64 ∧ 64 * (32 / 64 + 0) < 32 ∧
    32 + 100 < 64 * (32 / 64 + 2) + 64 ∧ y.dram.minorOf (32 / 64 + 2) < 255 ∧
    (let full := decide (255 ≤ y.dram.minorOf (4096 / 64))
     let part := decide (64 * (4096 / 64) < 4096 ∨ 4096 + 64 < 64 * (4096 / 64) + 64)
     full = true ∧ part = false ∧ y.lineFails (4096 / 64) bad (full || part) = some .uncorrectable) := by
  decide +kernel

theorem witness_InitialisationZeroesMemory : (solo.half .A).up = true ∧ (solo.half .A).boot.ready = true ∧
    solo.holder ≠ none ∧ (solo.half .A).dram.init = false ∧ (solo.half .B).up = false ∧ State.reset.holder = none ∧
    (stored.half .A).dram.init = true := by decide

/-- Core 4 of half A has the regions 14 and 15, which share the line at 0x40; 14 lets only the secure level read. -/
def fenced : State := withA solo fun y =>
  { y with prot := [(4, { regions := [(14, { base := 0x41, limit := 0x40, perm := 0x100 }),
                                      (15, { base := 1, limit := 0xFFFFFFC0, perm := 0x1FF })] })] }

theorem witness_AccessesStopAtTheFirstForbiddenByte :
    let p := (fenced.half .A).unit 4
    (fenced.half .A).up = true ∧ Level.user ≠ .secure ∧ (0xFFF00000 : Nat) ≤ 0xFFF0010B ∧ (0xFFF0010B : Nat) < 0xFFF0010C ∧
    (tabGet {} p.regions 15 : Region).holds 0 = true ∧ (∀ k, k < 15 → (tabGet {} p.regions k : Region).holds 0 = false) ∧
    (tabGet {} p.regions 14 : Region).holds 0x7F = true ∧ (∀ k, k < 14 → (tabGet {} p.regions k : Region).holds 0x7F = false) ∧
    (∀ r, r < 16 → (tabGet {} ((solo.half .A).unit 0).regions r : Region).holds 0 = false) ∧
    (∀ k, k < 64 → p.forbids .user .write (0 + k) = none) ∧ p.forbids .user .write (0 + 64) = some 14 ∧
    p.forbids .secure .read 0x40 = none ∧ p.forbids .user .read 0xFFF00000 = some 16 ∧ 0xFFFFFFFF + 1 ≤ 2 ^ 32 := by
  decide +kernel

theorem witness_RegionsBelongToTheSecureLevel : (fenced.half .A).up = true ∧ (0xFF : Nat) < 0x100 ∧ 0xFC % 16 ≠ 0 ∧
    0xFC % 16 ≠ 4 ∧ 0xFC % 16 ≠ 8 ∧ 0xF4 % 16 = 4 ∧ 0xE0 % 16 = 0 ∧ 0xE8 % 16 = 8 ∧
    bits (0x3F : Word) 31 6 < bits ((tabGet {} ((fenced.half .A).unit 4).regions (0xE4 / 16) : Region).base) 31 6 ∧
    Level.user ≠ .secure := by decide

/-! ## Witnesses: tamper -/

/-- A map of a source set. -/
def mapped (src : Nat) (w : Word) (s : State) : State := s.setModReg (0xF00100 + 4 * src) w

def entry (src resp : Nat) (onCell : Bool) : LogEntry :=
  { serial := 1, src, resp, onCell, seconds := 0, missed := 0, posted := false }

theorem witness_AlarmsAreLatchedLoggedAndAnswered :
    let r := mapped 15 1 solo
    let e := mapped 15 5 solo
    let h := mapped 17 3 pair
    let k := mapped 17 3 { pair with a := { pair.a with haltCause := 1 } }
    r.tam.inAlarm = [] ∧ r.tam.latched = [] ∧ r.tam.log.length < 64 ∧ r.tam.pend = none ∧ r.tam.erasedAt = none ∧
    r.tam.onCell = false ∧ bit (r.tmpMap 15) 2 = false ∧ State.reset.holder = none ∧ r.holder = some .A ∧ r.tam.log = [] ∧
    (r.half .A).queue = [] ∧ (r.img .A).fns = [] ∧ (r.half .A).unsent = [] ∧ (r.half .A).kept = [] ∧ r.cellSeconds = 0 ∧
    bit (e.tmpMap 15) 2 = true ∧ e.phase ≠ .cold ∧ 17 = 16 + Half.B.idx ∧ 19 = 18 + Half.B.idx ∧ bit (h.tmpMap 17) 1 = true ∧
    bit (h.tmpMap 17) 2 = false ∧ (h.half .B).haltCause = 0 ∧ (h.half Half.B.other).haltCause = 0 ∧
    (k.half Half.B.other).haltCause ≠ 0 ∧ State.reset.tam.onCell = true ∧ State.reset.tam.inAlarm = [] ∧
    entry 20 5 true = { serial := State.reset.tam.nextSerial, src := 20, resp := 5, onCell := State.reset.tam.onCell,
                        seconds := State.reset.cellSeconds, missed := State.reset.tam.unlogged, posted := false } := by
  decide

theorem witness_LatchesHoldAlarmsBack :
    let s := mapped 15 5 { State.reset with now := 4999, tam := { onCell := false, inAlarm := [0], latched := [0],
                                                                  erasedAt := some 0, seed := false } }
    let l : State := { s with tam := { s.tam with inAlarm := [] } }
    0 ∈ s.tam.inAlarm ∧ s.tam.watches 20 = false ∧ State.reset.tam.watches 16 = false ∧ 0 ∉ l.tam.inAlarm ∧
    0 ∈ l.tam.latched ∧ l.tam.watches 0 = true ∧ l.holder = none ∧ 15 ∉ s.tam.inAlarm ∧ 15 ∉ s.tam.latched ∧
    bit (s.tmpMap 15) 2 = true ∧ s.tam.erasedAt = some 0 ∧ s.now < 0 + 5000 ∧ s.tam.onCell = false ∧ s.holder = none ∧
    ¬((12 : Nat) = 12 ∧ ((-400 : Int) < -400 ∨ (-400 : Int) < -400)) ∧ (-401 : Int) < -400 ∧
    ¬((13 : Nat) = 13 ∧ ((1440 : Int) < 1440 ∨ (1440 : Int) < 1440)) ∧ (1440 : Int) < 1441 := by
  decide

theorem witness_TwoHaltsAtOnceErase :
    let s := mapped 16 3 (mapped 17 3 pair)
    s.tam.onCell = false ∧ s.tam.inAlarm = [] ∧ s.tam.latched = [] ∧ s.tam.log = [] ∧ s.tam.pend = none ∧
    s.tam.erasedAt = none ∧ s.phase ≠ .cold ∧ bit (s.tmpMap 16) 1 = true ∧ bit (s.tmpMap 17) 1 = true := by decide

theorem witness_TheCellIsChecked : State.reset.tam.onCell = true ∧ solo.tam.onCell = false ∧
    solo.tam.cellLow = decide ((30 : Nat) < 30) ∧ solo.tam.cellFailed = false ∧ solo.holder = some .A ∧
    (solo.half .A).queue = [] ∧ solo.tam.cellLow = false ∧
    ({ solo.tam with cellLow := true, cellFailed := true } : Tamper).cellLow = decide ((29 : Nat) < 30) ∧
    ({ solo.tam with cellLow := true } : Tamper).cellFailed = false := by decide

/-! ## Witnesses: power, board and bring-up -/

theorem witness_MainsPowersTheHalves :
    let p : State := { State.reset with tam := { pend := some { target := 1, mask := 1, seconds := 0 } } }
    let c : State := { State.reset with board := { power := .cold } }
    State.reset.board.power = .off ∧ 20 ∉ State.reset.tam.latched ∧ State.reset.tam.pend = none ∧ 20 ∉ p.tam.latched ∧
    p.tam.pend = some { target := 1, mask := 1, seconds := 0 } ∧ c.board.power = .cold ∧ solo.board.power ≠ .off ∧
    solo.board.power ≠ .cold ∧ (-160 : Int) ≤ -160 ∧ (-161 : Int) < -160 := by decide

/-- Both halves are powered and have not started; half A may have an image named, and slot 1 holds one. -/
def unstarted (n : Option Nat) (v : Nat) : State :=
  { State.reset with phase := .booting, a := { boot := { powered := true, named := n } }, b := { boot := { powered := true } },
                     board := { power := .on }, flash := { fw1 := some (fw v), rollB := v } }

theorem witness_PowerLossAndResets :
    let s := unstarted none 0
    let f : State := { solo with board := { solo.board with powerFail := true, ps1 := { ac := true, dc := true } } }
    s.board.power = .on ∧ (s.half .B).boot.powered = true ∧ (s.half .B).boot.started = false ∧
    State.reset.board.power ≠ .on ∧ State.reset.board.power = .off ∧ (solo.half .A).boot.started = true ∧
    f.board.powerFail = true ∧ f.board.power ≠ .off ∧ solo.phase ≠ .cold ∧ 99 < 100 ∧
    f.board.ps1 = { ac := true, dc := true, fault := false } ∧ f.board.ps2 ≠ { ac := true, dc := true, fault := false } := by
  decide

/-- Cage 7 with power enabled and a budget of 30 W, with or without its optics at high power. -/
def caged (low : Bool) (v : Cage) : State :=
  ({ solo with board := { solo.board with cages := [(7, v)] } }).setModReg 0x1100138 (if low then 0xC000001E else 0x8000001E)

theorem witness_CagesFollowTheirOptics :
    let v : Cage := { present := true, powered := true }
    let w : Word := (caged false v).modReg (0x1100100 + 8 * 7)
    bit w 31 = true ∧ bit w 30 = false ∧ bit ((caged true v).modReg (0x1100100 + 8 * 7)) 30 = true ∧ bits w 4 0 = 30 ∧
    (caged false v).board.power = .on ∧ bit ((solo.setModReg 0x1100138 0).modReg (0x1100100 + 8 * 7)) 31 = false ∧
    ((caged false v).cage 7).present = true ∧ ((caged false v).cage 7).powered = true ∧ (solo.cage 7).present = false ∧
    (solo.cage 7).powered = false ∧ 4 * (30 + 3) < 133 ∧ 132 ≤ 4 * (30 + 3) ∧ 132 ≤ 4 * 33 ∧
    (((withA (caged false v) fun y => y.setLane 63 { pwrNow := 1 }).half .A).lane (8 * 7 + 7)).pwrNow ≠ 0 ∧
    ((caged false v).half .A).up = true := by decide

theorem witness_FansAndWarnings :
    let b : Board := { solo.board with tray := true }
    b.power ≠ .off ∧ b.tray = true ∧ 3 ∉ b.failed ∧ b.failed.length ≠ 1 ∧ ({ b with failed := [0] } : Board).failed.length = 1 ∧
    b.failed = [] ∧ bits (solo.modReg 0x1100010) 6 0 ≤ 100 ∧ b.duty ≤ 100 ∧ ({ b with failed := [0] } : Board).failed ≠ [] ∧
    3 ∉ ({ b with failed := [0] } : Board).failed ∧ 0 ∈ ({ b with failed := [0] } : Board).failed ∧ solo.board.tray = false ∧
    solo.board.failed.length < 2 ∧ 2 ≤ ({ solo.board with failed := [0, 3] } : Board).failed.length ∧
    warnLimit .outlet ≤ 1120 ∧ 1119 < warnLimit .outlet ∧ Sensor.outlet ∉ b.warned ∧
    Sensor.outlet ∈ ({ b with warned := [.outlet] } : Board).warned := by decide

theorem witness_TripsRemovePower :
    let h := 3600000000000
    let s : State := { solo with now := h, board := { solo.board with tripTimes := [1, 2, 0] } }
    let t : State := { solo with board := { solo.board with power := .tripped } }
    s.board.power = .on ∧ s.board.heldOff = false ∧ 2 ≤ (s.board.tripTimes.filter fun t => decide (s.now < t + h)).length ∧
    (({ s with now := h + 1 } : State).board.tripTimes.filter fun t => decide (h + 1 < t + h)).length < 2 ∧
    t.board.power = .tripped ∧ t.board.heldOff = false ∧ (960 : Int) ≤ 960 ∧ (1408 : Int) ≤ 1408 ∧ (1840 : Int) ≤ 1840 ∧
    ({ t.board with heldOff := true } : Board).heldOff = true := by decide

theorem witness_ReferenceAndSideband :
    (regsA solo [(0xC00100, 0x40000000)]).refIn = true ∧ solo.refIn = false ∧ (-10000 : Int) ≤ -10000 ∧
    ({ solo.board with refState := 1 } : Board).refState = 1 ∧ solo.board.refState ≠ 1 ∧ solo.board.power ≠ .off ∧
    State.reset.board.power = .off := by decide

theorem witness_HalvesLoadTheirImages :
    let s := unstarted (some 1) 1
    let t := unstarted none 0
    let u : State := { t with flash := { t.flash with fw0 := none } }
    let n : State := { u with flash := { u.flash with fw1 := none } }
    let o : State := { u with b := booted .activeSolo true }
    (s.half .A).boot.powered = true ∧ (s.half .A).boot.started = false ∧ s.phase ≠ .cold ∧ (s.half .A).boot.named = some 1 ∧
    s.flash.slot 1 = some (fw 1) ∧ (fw 1).loads = true ∧ max s.flash.rollA s.flash.rollB ≤ (fw 1).svn ∧
    t.flash.slot 0 = some (fw 0) ∧ max t.flash.rollA t.flash.rollB ≤ (fw 0).svn ∧ u.flash.slot 0 = none ∧
    u.flash.slot 1 = some (fw 0) ∧ s.flash.slot 0 = some (fw 0) ∧ (fw 0).svn < max s.flash.rollA s.flash.rollB ∧
    u.holder = none ∧ o.holder = some Half.A.other ∧ n.flash.slot 0 = none ∧ n.flash.slot 1 = none ∧
    (n.half .A).haltCause = 0 := by decide

/-- Both halves have loaded; which of them are ready. -/
def loaded (ra rb : Bool) : State :=
  { unstarted none 0 with a := { boot := { powered := true, started := true, ready := ra } },
                          b := { boot := { powered := true, started := true, ready := rb } }, now := 2000000000 }

theorem witness_TheFirstReadyHalfClaims :
    let c : State := { loaded false true with b := booted .activeSolo true }
    ((loaded false false).half .A).up = true ∧ ((loaded false false).half .A).boot.ready = false ∧
    ((loaded false false).half .B).helm.claim = false ∧ (loaded false false).phase = .booting ∧
    (c.half Half.A.other).helm.claim = true ∧ ((loaded false true).half .B).up = true ∧
    ((loaded false true).half .B).boot.ready = true ∧
    ((loaded false true).half .B).boot.readyAt + 2000000000 ≤ (loaded false true).now ∧
    ((loaded false true).half Half.B.other).helm.claim = false ∧ ((loaded false true).half .B).helm.claim = false ∧
    ((loaded false true).half Half.B.other).img.seq = 0 ∧
    ((imgA (loaded false true) fun im => { im with seq := 1 }).half Half.B.other).img.seq ≠ 0 ∧
    (1999999999 : Nat) < ((loaded false true).half .B).boot.readyAt + 2000000000 ∧ solo.phase ≠ .booting := by decide

theorem witness_BootIsNumberedFirst :
    let s : State := { solo with phase := .booting }
    s.phase = .booting ∧ s.holder = some .A ∧ (s.img .A).seq = 0 ∧ (s.img .A).fns = [] ∧ (s.img .A).regs = [] ∧
    (s.half .A).unsent = [] ∧ ({ s.flash with cfgCur := none } : Flash).config = none ∧ s.flash.config ≠ none := by decide

theorem witness_BootingEndsOnceReady :
    let s := imgA { solo with phase := .booting } fun im => { im with seq := 1 }
    solo.phase ≠ .booting ∧ solo.holder ≠ some .B ∧ s.phase = .booting ∧ s.holder = some .A ∧ (s.img .A).seq ≠ 0 ∧
    (s.half .A).boot.hssReady = true ∧ (s.half .A).boot.dramDone = true ∧ s.tam.seed = true ∧ s.a.helm.st ≠ .inStep ∧
    s.b.helm.st ≠ .inStep ∧ (solo.img .A).seq = 0 ∧ (s.half .B).boot.hssReady = false := by decide

/-! ## Witnesses: the usher -/

def okEv : Ev := { code := 0x0D0B, origin := .A, absorbed := 0, payload := [], route := .pf, key := 0, times := [] }
def lvEv : Ev := { okEv with key := 5 }
/-- A state with posts at the usher of half A. -/
def posted (s : State) (q : List (Src × Post)) : State := withA s fun y => { y with queue := q }

theorem witness_TheUsherNumbersTheOldestPost :
    (∀ c, Post.cpl okCpl ≠ .due c) ∧
    let q : List (Src × Post) := [(.level, .ev lvEv), (.command, .cpl okCpl), (.cores, .ev okEv)]
    let n := imgA ringed fun im => { im with seq := 1 }
    let s := posted n q
    let p := posted { pair with a := { pair.a with img := n.a.img } } q
    s.holder = some .A ∧ s.holder ≠ some .B ∧ (∀ z ∈ q, z.1 ≠ Src.alarm) ∧ (s.half .A).ctrs = [] ∧
    (s.half .A).queue = [(.level, .ev lvEv)] ++ (.command, .cpl okCpl) :: [(.cores, .ev okEv)] ∧
    (∀ z ∈ [((Src.level, Post.ev lvEv) : Src × Post)], z.1 ≠ .command) ∧ (s.img .A).ringEn okCpl.fn 1 = true ∧
    ((s.img .A).fnSt okCpl.fn).cpl.stalled = false ∧ ((s.img .A).fnSt okCpl.fn).discard = [] ∧
    (s.half .A).helm.st = .activeSolo ∧ (s.half .A).unsent = [] ∧ (p.half .A).helm.st = .activePaired ∧
    0 < (s.img .A).seq ∧ (p.half .A).unsent = [] ∧
    ((posted n [(.level, .ev lvEv), (.command, .due okCmd)]).half .A).queue =
      [(.level, .ev lvEv)] ++ (.command, .due okCmd) :: [] ∧
    ({ okEv with code := 0x0601, payload := [(1, 0), (1, 5), (8, 0), (8, 0)] } : Ev).payload =
      [(1, 0), (1, 5), (8, 0), (8, 0)] ∧ okEv.code ≠ 0x0601 ∧ okEv.route = .pf ∧ ((posted solo q).img .A).ringEn 0 2 = false ∧
    (((posted solo q).img .A).fnSt 0).held = [] := by
  exact ⟨nofun, by decide⟩

theorem witness_ModeratedInterruptsGoOut :
    let s := fnA (regsA { solo with now := 256 } [(0x100130, 0x00010002)]) 0 { cpl := { modCount := 1 } }
    s.holder = some .A ∧ 0 < (((s.img .A).fnSt 0).ring 1).modCount ∧
    (((s.img .A).fnSt 0).ring 1).modSince + 256 * bits ((s.img .A).reg 0 (0x100110 + 0x20 * 1)) 31 16 ≤ s.now ∧
    ({ s with now := 255 } : State).now <
      (((s.img .A).fnSt 0).ring 1).modSince + 256 * bits ((s.img .A).reg 0 (0x100110 + 0x20 * 1)) 31 16 ∧
    (((solo.img .A).fnSt 15).ring 2).modCount = 0 := by decide

theorem witness_PostsGoWhereTheHalfStands :
    let h : State := { solo with b := { solo.b with helm := { st := .out } } }
    let q : State := { solo with b := { solo.b with helm := { st := .relinquished } } }
    let f := [Post.ev okEv] ++ [.ev okEv] ++ .ev lvEv :: []
    (pair.half .B).helm.st = .inStep ∧ (h.half .B).helm.st = .out ∧ (q.half .B).helm.st = .relinquished ∧
    (solo.half .B).helm.st = .halted ∧ Posting solo .A ∧ Posting pair .A ∧ okEv.key = 0 ∧ lvEv.key ≠ 0 ∧
    (∀ o, Post.ev o ∈ f.drop 3 → o.key ≠ lvEv.key) ∧ f = [.ev okEv] ++ [.ev okEv] ++ .ev lvEv :: [] ∧
    ({ pair.b with fwd := f, fwdOut := 1 } : HState).fwdOut = [Post.ev okEv].length ∧
    (∀ v, Post.ev v ∈ [Post.ev okEv] → v.key ≠ lvEv.key) ∧
    ((posted solo [(.cores, .ev okEv), (.level, .ev lvEv)]).half .A).queue =
      [(.cores, .ev okEv)] ++ (.level, .ev lvEv) :: [] ∧
    (∀ z ∈ [((Src.cores, Post.ev okEv) : Src × Post)], ∀ v, z.2 = .ev v → v.key ≠ lvEv.key) := by
  refine ⟨rfl, rfl, rfl, rfl, Or.inr rfl, Or.inl rfl, rfl, by decide, ?_, rfl, rfl, ?_, rfl, ?_⟩ <;> simp [okEv, lvEv]

/-! ## Witnesses: what registers and indicators show -/

/-- Line port 31 meets every condition of R265. -/
def express : State :=
  withA (regsA solo [(pktOff 31, 0x90000000), (0x200008, 0)]) fun y =>
    { y with preempt := [(31, 2)], img := { y.img with shapers := [(504, { en := true, rate := 50000, burst := 0 })] } }

theorem witness_RegistersReadAsTheStateStands : reaches 15 0xD00000 = false ∧ solo.holder = some .A ∧
    2 ≤ bits (0x202 : Word) 3 0 ∧ bits (0x202 : Word) 11 8 ≤ 15 ∧ (255 : Nat) < 256 := by decide

theorem witness_ExpressConditionsShow : (express.img .A).portEn 31 = true ∧
    ((express.img .A).shaper (8 * (32 + 31))).en = true ∧
    4 * ((express.img .A).shaper (8 * (32 + 31))).rate ≤ 200000 * (express.img .A).portWidth (4 + 31 / 8) ∧
    ((express.img .A).shaper (8 * (32 + 31))).burst = 0 ∧ tabGet 0 (express.half .A).preempt 31 = 2 ∧
    tabGet 0 (express.half .A).heldLast 31 = 0 ∧ (express.half .A).gov.paceLimit = false := by decide

theorem witness_LampsFollowTheState :
    let e : State := { solo with tam := { solo.tam with seed := false } }
    let b : State := { solo with phase := .booting }
    let c : State := { solo with phase := .cold }
    let h : State := { solo with b := { solo.b with haltCause := 5 } }
    let o : State := { solo with b := { solo.b with helm := { st := .out } } }
    let f := caged false { present := true, powered := true, fault := true }
    let g := withA (caged false { present := true, powered := true }) fun y =>
      { y with lanes := (List.range 8).map fun i => (56 + i, { pwrNow := 2, target := 2, signal := true }) }
    State.reset.board.power = .off ∧ e.board.power ≠ .off ∧ e.tam.seed = false ∧ solo.tam.seed = true ∧ c.phase = .cold ∧
    b.phase = .booting ∧ b.phase ≠ .cold ∧ solo.phase = .running ∧ solo.holder = some .A ∧ pair.holder = some .A ∧
    (solo.half .A).helm.st.active = true ∧ (pair.half .B).helm.st = .inStep ∧ (o.half .B).helm.st = .out ∧
    (h.half .B).helm.st = .halted ∧ (h.half .B).haltCause ≠ 0 ∧ (f.cage 7).fault = true ∧ (solo.cage 7).fault = false ∧
    (solo.cage 7).present = false ∧ g.holder = some .A ∧ (g.cage 7).powered = true ∧
    (∀ i, i < 8 → ((g.half .A).lane (8 * 7 + i)).inActive = true ∧ ((g.half .A).lane (8 * 7 + i)).signal = true) := by
  decide

/-! ## Single steps, with results from the worked examples of the spec -/

/-- One field of the state after a step that completes. -/
def after {α : Type} (r : Host.Outcome State Fault Refusal) (f : State → α) : Option α :=
  match r with | .next t => some (f t) | _ => none

/-- The governor of Table 01.5 at 860 mV, its over_run at `n`. -/
def hot (n : Nat) : State := withA solo fun y => { y with gov := { vcore := 860, overRun := n } }

-- Table 01.5, steps 3 to 5.
theorem test_pace_limit_needs_four : after (exec (.paceGovernorRun .A (973 :: List.replicate 15 0) []) (hot 2))
    (fun t => (t.a.gov.overRun, t.a.gov.paceLimit)) = some (3, false) := by decide
theorem test_pace_limit_at_the_fourth : after (exec (.paceGovernorRun .A (973 :: List.replicate 15 0) []) (hot 3))
    (fun t => (t.a.gov.paceLimit, t.a.gov.vcore)) = some (true, 860) := by decide

-- Table 02.6, step 1: bit 1 of LNE_CAGE_MODE.
theorem test_cage_mode_steps_cfg_gen : after (exec (.cageModeWrite .A 0 2) solo)
    (fun t => ((t.img .A).reg 0 0x200000, (t.img .A).cfgGen)) = some (2, 1) := by decide +kernel

-- Table 03.6, steps 5 and 6: CONFIRM_N is 3.
theorem test_second_sighting_is_no_sync :
    after (exec (.soundingCheck .A 31 0 0 0x37) (searching { snds := [{ pos := 0, mfas := 0x37, count := 1 }] }))
      (fun t => ((t.a.rxLane 31).sync, (t.a.rxLane 31).snds.map (·.count))) = some (false, [2]) := by decide
theorem test_third_sighting_is_sync :
    after (exec (.soundingCheck .A 31 0 0 0x38) (searching { snds := [{ pos := 0, mfas := 0x38, count := 2 }] }))
      (fun t => (t.a.rxLane 31).sync) = some true := by decide +kernel

-- Table 03.7, and the sum after the retime.
theorem test_deskew_buffers : [12900, 9800, 12500, 0].map lanBuffers = [23, 18, 23, 2] ∧
    [14900, 11800, 14500, 0].map lanBuffers = [27, 22, 26, 2] := by decide +kernel

-- Table 04.7: the totals at e = 0, 32, −265, 50 and −252 bits, k = 2.
theorem test_justification_totals :
    [4096, 4128, 3831, 4146, 3844].map (jcTotalOf · 2) = [106, 114, 40, 119, 43] := by decide +kernel

-- Table 07.5: the lookup of 10.20.30.77 before and after the /26.
def trie (ps : List (Nat × Nat × Nat)) : State := imgA solo fun im =>
  { im with trie := { bank0 := ps.foldl (fun b p => tabSet none b (pKey 4 p.1 p.2.1) (some (BitVec.ofNat 32 p.2.2))) [] } }
theorem test_lookup_before_the_add :
    after (exec (.trieLookup tblHdr 4 0x0A141E4D) (trie [(16, 0x0A140000, 1), (24, 0x0A141E00, 2)]))
      (fun t => t.a.queue.map (·.2)) = some [.cpl { okCpl with op := 0x0217, table := true, tag := 7,
                                                               result := [(1, 24), (4, 2)] }] := by decide
theorem test_lookup_after_the_add :
    after (exec (.trieLookup tblHdr 4 0x0A141E4D) (trie [(16, 0x0A140000, 1), (24, 0x0A141E00, 2), (26, 0x0A141E40, 212)]))
      (fun t => t.a.queue.map (·.2)) = some [.cpl { okCpl with op := 0x0217, table := true, tag := 7,
                                                               result := [(1, 26), (4, 212)] }] := by decide

-- Table 12.5: receive at Y, 154.5 ns, in release-then-poison mode, to a tenth of a nanosecond.
theorem test_receive_latency : (((receiving {}).img .A).latency 31 |>.2) = 1545 * 65536 / 10 := by decide +kernel

-- Table 14.5: a 16-byte store at 0x24AE30 with the minor counter of line 37,560 at 255.
def line37560 : State := withA solo fun y =>
  { y with dram := { init := true, data := [(0x24AE2F, 9), (0x24AE30, 1)], minor := [(37560, 255), (37561, 4)] } }
theorem test_reencryption : after (exec (.dramWrite .A 2 0x24AE30 16 5 []) line37560)
    (fun t => (t.a.dram.minor, t.a.dram.majorOf 586, t.a.dram.reenc, t.a.dram.data)) =
      some ([], 1, 1, [(0x24AE2F, 9), (0x24AE30, 5)]) := by decide

-- Table 15.4, steps 3 to 5: evidence 3; LID2, then MESH5, on the cell; then mains.
def stored3 : State := { State.reset with tam := { evidence := 3 } }
theorem test_lid_on_the_cell : after (exec (.tamperAlarm [1]) { stored3 with now := 3542400000000000 })
    (fun t => (t.tam.seed, t.tam.pend, t.tam.latched)) =
      some (false, some { target := 4, mask := 2, seconds := 3542400 }, [1]) := by decide
def lidOpen : State :=
  { stored3 with tam := { evidence := 3, seed := false, inAlarm := [1], latched := [1],
                          pend := some { target := 4, mask := 2, seconds := 3542400 } } }
theorem test_mesh_after_the_lid : after (exec (.tamperAlarm [9]) lidOpen)
    (fun t => (t.tam.pend.map fun p => (p.target, p.mask, p.seconds), t.tam.latched)) =
      some (some (5, 0x202, 3542400), [1, 9]) := by decide
theorem test_mains_completes_the_record :
    after (exec (.mainsApplied true false 320 320) { lidOpen with tam := { lidOpen.tam with
        pend := some { target := 5, mask := 0x202, seconds := 3542400 } } })
      (fun t => (t.tam.evidence, t.tam.pend, t.tam.seed, t.tam.latched)) = some (5, none, false, [1]) := by decide

-- Table 17.2: counter 12 (MODE 1, EVENT 0x22), step 1 and step 4.
def ctr12 (v : Nat) (sticky : Bool) : State := withA solo fun y =>
  { y.setReg 0 0x1001000 1 with ctrs := [(12, { cfg := 0x90220104, thresh := 2000, val := v, sticky })] }
theorem test_counter_before_the_wrap : after (exec (.counterWindowRead .A 0 0x060 8) (ctr12 (2 ^ 48 - 1000) false))
    (fun t => t.out) = some [.read 0x0000FFFFFFFFFC18] := by decide
theorem test_counter_after_the_wrap : after (exec (.counterWindowRead .A 0 0x060 8) (ctr12 600 true))
    (fun t => t.out) = some [.read 0x8000000000000258] := by decide
theorem test_counter_wraps : after (exec (.counterWrap .A 12 1) (ctr12 (2 ^ 48 - 1) false))
    (fun t => ((t.a.ctr 12).val, (t.a.ctr 12).sticky)) = some (0, true) := by decide

-- Table 18.12, step 5: the fans of a new tray start at 100 %.
theorem test_new_tray_runs_at_full : after (exec (.fanTrayInsert) solo)
    (fun t => (t.board.tray, t.board.duty)) = some (true, 100) := by decide

-- Reset values of the register tables: 880/40/40 with OFFER_EN, VCORE_STEP 24, PWR 0, BUFFERS 512, the frame pool of 225,280
-- cells, STATE 5, DUTY 60, the debug port locked.
theorem test_reset_values : [0x100, 0x104, 0x201000, 0x300004, 0x800004, 0xD00000, 0x1100014, 0xE00018].map
    (State.reset.readWord .A 0) =
      [0x07702828, 24 * 4096, 0, 512, 225280, 5 * 2 ^ 27, 60, 2 ^ 31] := by decide +kernel

-- Reset values that are 0: halt cause, lane, group, tributary side, cipher, port, station, key, peer, engine, time base,
-- schedule, DRAM, ring and supply status.
theorem test_reset_zeros : [0x10, 0x204, 0x20100C, 0x202000, 0x300108, 0x400004, 0x500004, 0x500010, 0x600004, 0x600304,
    0x700108, 0x700110, 0x900004, 0x900208, 0xA00000, 0xA00020, 0xB00000, 0xC00004, 0xC00304, 0xE00000, 0xE0000C, 0xF00004,
    0x10010C, 0x100114, 0x1000008, 0x1100000, 0x1100104].all (fun o => State.reset.readWord .A 0 o == 0) = true := by
  decide +kernel

/-! ## Frames, rows, spans and entries as bytes -/

-- R74: the first 64 bits of the scrambler's sequence.
theorem test_scrambler_start : bitsNat (scramblerSequence 64) = 0xFFFFFFFFFFFFFFC0 := by decide +kernel
-- Table 03.1: the FAS is the first 64 bits.
theorem test_fas : bitsNat (msbBits fasBytes) = 0x3A6C9E15D2B407F1 := by decide +kernel
-- Table 03.2: line bits from an even FAS to the odd one, and over the pair; overhead bits of an odd frame (R73).
theorem test_fas_spacing : (lineBit (pairBit true 0), lineBit (262140)) = (138570, 277440) := by decide
theorem test_odd_frame_codeword : pairBit true 0 % 5140 = 2570 := by decide
-- R80: bit 0 enters BIP bit 15.
theorem test_bip_first_bit : bip16 [true] = 0x8000 := by decide +kernel
-- R56: Gray code.
theorem test_gray : [grayLevel false false, grayLevel false true, grayLevel true true, grayLevel true false] =
    [0, 1, 2, 3] := by decide
-- R112: container words of an ordinary, an increment and a decrement frame.
theorem test_container_area : [0, 1, 2].map (fun a => (containerArea a).length) = [1018, 1017, 1019] := by decide +kernel
-- Table 04.8, steps 1, 4 and 5.
theorem test_row_start : [rowStarts 3 300, rowStarts 2 300, rowStarts 0 (nextPtr 2 300)] = [[302], [301], [301]] := by
  decide
-- R125: a decrement at P 0 starts two rows; an increment at P 1,017 none.
theorem test_row_start_edges : (rowStarts 2 0, rowStarts 1 1017) = ([1, 1019], []) := by decide
-- R113: the justification word is row word 1,016, and the last tag word 1,017.
theorem test_justification_word : (dataRowWord 971, tagRowWord 35) = (1016, 1017) := by decide
-- Table 04.7, frame 4: total 119 on two slots.
theorem test_jc_split : (slotJc 2 119 0, slotJc 2 119 1) = (60, 59) := by decide
-- R145: the justification word of slot 1 of a two-slot side.
theorem test_side_pos : (sidePos 2 1 3, sidePos 2 1 971) = (7, 1943) := by decide
-- R147: the last span of a multiframe at k = 1, n = 64 is shorter (248,832 = 60 × 4,096 + 3,072).
theorem test_last_span : (spanCount 1 64, spanBounds 1 64 60) = (61, (245760, 248832)) := by decide
-- R149: two spans of 64 words that end in one strip at k = 4 take tag words of slots 0 and 1.
theorem test_tag_place : (tagPlace 4 1 0, tagPlace 4 1 1) = ((0, 0), (1, 0)) := by decide +kernel
-- Table 05.2 has 32 bytes before the JC list.
theorem test_span_aad : (spanAad 2 1 4 7 0 0 256 [53]).length = 33 := by decide +kernel
-- Table 16.6: TRIB_KEY_STEP's fields after the 16-byte header.
theorem test_key_step_packing : (List.range 3).map (fldOffset [(1, 2), (1, 1), (16, 0)]) = [0, 1, 8] := by decide
-- Table 10.11: pieces of the offer, the answer and the finish, and the rows that the offer and DONE take.
theorem test_piece_counts : (pieceCount 1776, pieceCount 5458, pieceCount 3734) = (2, 6, 4) := by decide
theorem test_offer_rows : segmentCount (.trib 4) (1008 + 20) + segmentCount (.trib 4) (768 + 20) = 39 := by decide
theorem test_done_rows : segmentCount (.trib 4) (32 + 20) = 2 := by decide
-- Table 11.4, step 1.
theorem test_hss_leaves : hssLeaves 1245190 = (1, 196614) := by decide
-- R352.
theorem test_signature_block : sigBlockLens.sum = 3700 := by decide
-- R456: two mismatches in a row, and two apart.
theorem test_mesh_alarm : (meshAlarm [false, true, true], meshAlarm [true, false, true]) = (true, false) := by decide
/-- A completion by half B of a command of the table ring. -/
def cplB : Cpl := { op := 0x0A51, fn := 0, table := true, half := .B, status := 0, tag := 0x2A17, pos := 3, cflags := 0,
                    result := [] }

-- Table 16.7: RING and HALF beside PHASE.
theorem test_completion_ctrl : (cplB.bytes 9 true).take 8 = [0x51, 0x0A, 7, 0, 0x17, 0x2A, 0, 0] := by decide +kernel
-- R498: after the factory defaults, a client lane in ACTIVE with its port in packet mode sends packets; in causeway mode,
-- with its tributary disabled, Local Fault at the nominal rate (R111).  R65: before a claim, electrical idle.
def lane0Active : State :=
  { withA solo (fun y => y.setLane 0 { pwrNow := 2, target := 2 }) with board := { power := .on } }
theorem test_packet_lane_sends : lane0Active.laneOut 0 = .packets := by decide +kernel
theorem test_disabled_tributary_local_fault :
    (withA lane0Active fun y => { y with img := y.img.setReg 0 0x20000C 0xFF }).laneOut 0 = .localFault false := by
  decide +kernel
theorem test_no_claim_idle : ({ State.reset with board := { power := .on } } : State).laneOut 0 = .idle := by
  decide +kernel

end Sys2Proof.Tests
end

section
/-! SUPPORT. Words of fields and masks, and what registers and indicators show (R41, R14, R265, R520). -/

namespace Sys2Proof.Machine

open Sys2Proof Sys2Proof.Claims

/-! ## Words of fields and masks -/

@[simp] theorem fieldsAt_nil : fieldsAt [] = 0 := rfl
@[simp] theorem fieldsAt_cons (v i : Nat) (fs : List (Nat × Nat)) :
    fieldsAt ((v, i) :: fs) = v * 2 ^ i + fieldsAt fs := by simp [fieldsAt]

theorem b2n_le_one (b : Bool) : b2n b ≤ 1 := by cases b <;> decide

/-- A flag read bit by bit. -/
theorem b2n_testBit (b : Bool) (i : Nat) : (b2n b).testBit i = (decide (i = 0) && b) := by
  cases b <;> cases i <;> simp [b2n, Nat.testBit_succ]

theorem maskOf_succ (n : Nat) (f : Nat → Bool) : maskOf (n + 1) f = 2 ^ n * b2n (f n) + maskOf n f := by
  simp [maskOf, List.range_succ, Nat.mul_comm, Nat.add_comm]

theorem maskOf_lt (n : Nat) (f : Nat → Bool) : maskOf n f < 2 ^ n := by
  induction n with
  | zero => simp [maskOf]
  | succ n ih =>
    have hb := Nat.mul_le_mul_left (2 ^ n) (b2n_le_one (f n))
    rw [maskOf_succ, Nat.pow_succ]
    omega

/-- The word of a mask read bit by bit. -/
theorem maskOf_testBit (n p : Nat) (f : Nat → Bool) : (maskOf n f).testBit p = (decide (p < n) && f p) := by
  induction n with
  | zero => simp [maskOf]
  | succ n ih =>
    rw [maskOf_succ, Nat.testBit_two_pow_mul_add _ (maskOf_lt n f), b2n_testBit, ih]
    rcases Nat.lt_trichotomy p n with lt | rfl | gt
    · simp [lt, Nat.lt_succ_of_lt lt]
    · simp
    · simp [show ¬ p < n by omega, show ¬ p < n + 1 by omega, show p - n ≠ 0 by omega]

/-- Bit `p` of the word of a mask is 1 exactly where the mask holds. -/
theorem maskOf_bit {n p : Nat} (f : Nat → Bool) (h : p < n) : maskOf n f / 2 ^ p % 2 = 1 ↔ f p = true := by
  have e := maskOf_testBit n p f
  rw [Nat.testBit_eq_decide_div_mod_eq, decide_eq_true h, Bool.true_and] at e
  rw [← e, decide_eq_true_iff]

/-! ## Reading one register -/

/-- The word of the array of status registers that an offset lies in. -/
def State.arrayWord (s : State) (x : Half) (fn off : Nat) : Option Nat :=
  (s.statusArrays x fn).findSome? fun a => (indexIn a.1 a.2.1 a.2.2.1 off).map a.2.2.2

theorem readWord_of_not_reaches {s : State} {x : Half} {fn off : Nat} (h : reaches fn off = false) :
    s.readWord x fn off = 0 := by simp [State.readWord, h]

/-- The physical function reaches every register: a single status register, else one of an array, else the kept word. -/
theorem readWord_pf (s : State) (x : Half) (off : Nat) : s.readWord x 0 off =
    ((s.statusWord x 0 off).or (s.arrayWord x 0 off)).getD (s.keptWord x 0 off) := by
  have e : s.readWord x 0 off = match s.statusWord x 0 off with
    | some w => w
    | none => match s.arrayWord x 0 off with
      | some w => w
      | none => s.keptWord x 0 off := rfl
  rw [e]
  cases s.statusWord x 0 off <;> cases s.arrayWord x 0 off <;> rfl

theorem readWord_pf_status {s : State} {x : Half} {off v : Nat} (h : s.statusWord x 0 off = some v) :
    s.readWord x 0 off = v := by rw [readWord_pf, h]; rfl

theorem readWord_pf_array {s : State} {x : Half} {off v : Nat} (h : s.statusWord x 0 off = none)
    (ha : s.arrayWord x 0 off = some v) : s.readWord x 0 off = v := by rw [readWord_pf, h, ha]; rfl

/-- A paired register that is no status register reads as the word kept in the image of the half. -/
theorem readWord_pf_paired {s : State} {x : Half} {off : Nat} {r : RegSpec} (h : s.statusWord x 0 off = none)
    (ha : s.arrayWord x 0 off = none) (hr : regSpecOf off = some r) (hp : r.home = .paired) :
    s.readWord x 0 off = ((s.img x).reg 0 off).toNat := by
  rw [readWord_pf, h, ha]
  simp [State.keptWord, hr, hp]

/-- What leaves the module is no part of what a register shows. -/
@[simp] theorem readWord_emit (s : State) (o : Out) (x : Half) (fn off : Nat) :
    (s.emit o).readWord x fn off = s.readWord x fn off := by cases x <;> rfl

/-- No single status register lies among the programmable counters. -/
theorem statusWord_counters (s : State) (x : Half) (fn : Nat) {off : Nat} (lo : 0x1000000 ≤ off)
    (hi : off < 0x1100000) : s.statusWord x fn off = none := by
  unfold State.statusWord
  split
  case h_54 => rfl
  all_goals omega

/-- Base, stride and count of the arrays of status registers. -/
def statusPlaces : List (Nat × Nat × Nat) := (State.reset.statusArrays .A 0).map fun a => (a.1, a.2.1, a.2.2.1)

/-- The arrays of status registers lie at the same places in every state. -/
theorem statusArrays_places (s : State) (x : Half) (fn : Nat) :
    (s.statusArrays x fn).map (fun a => (a.1, a.2.1, a.2.2.1)) = statusPlaces := by
  simp only [statusPlaces, State.statusArrays, List.map_cons, List.map_nil]

theorem arrayWord_eq_none {off : Nat} (h : ∀ a ∈ statusPlaces, indexIn a.1 a.2.1 a.2.2 off = none)
    (s : State) (x : Half) (fn : Nat) : s.arrayWord x fn off = none := by
  refine List.findSome?_eq_none_iff.2 fun a ha => Option.map_eq_none_iff.2 (h (a.1, a.2.1, a.2.2.1) ?_)
  rw [← statusArrays_places s x fn]
  exact List.mem_map_of_mem ha

/-- `CNT_VAL_HI[i]` lies in its own array of status registers and in no earlier one. -/
theorem arrayWord_cntValHi (s : State) (x : Half) {i : Nat} (h : i < 256) :
    s.arrayWord x 0 (0x100000C + 0x10 * i) = some ((s.half x).ctrWord i 3) := by
  have own : indexIn 0x100000C 0x10 256 (0x100000C + 0x10 * i) = some i := by simp [indexIn, h]
  refine List.findSome?_eq_some_iff.2 ⟨(s.statusArrays x 0).take 25, _, (s.statusArrays x 0).drop 26, rfl, ?_, ?_⟩
  · show (indexIn 0x100000C 0x10 256 (0x100000C + 0x10 * i)).map ((s.half x).ctrWord · 3) = _
    rw [own]; rfl
  · simp [State.statusArrays, indexIn]
    omega

/-- `CNT_VAL_HI[i]` reads as the last low read latched it (R519). -/
theorem readWord_cntValHi (s : State) (x : Half) {i : Nat} (h : i < 256) :
    s.readWord x 0 (0x100000C + 0x10 * i) = tabGet 0 (s.half x).ctrHi i :=
  readWord_pf_array (statusWord_counters s x 0 (by omega) (by omega)) (arrayWord_cntValHi s x h)

/-! ## Reads that change what is read next -/

/-- After a read through the physical function that changes half `x` by `f`, a register that shows `shown` of the half
shows it of the changed half. -/
theorem pf_read_then_shows (s : State) (x : Half) {ok : Bool} (hok : ok = true) (lo v off : Nat) (f : HState → HState)
    (shown : HState → Nat) (h : ∀ t : State, t.readWord x 0 off = shown (t.half x)) :
    ∃ u, onUnit ok (s.readAs 0 lo v fun t => t.modHalf x f) = .next u ∧ u.readWord x 0 off = shown (f (s.half x)) :=
  ⟨(s.modHalf x f).emit (.read v), by rw [hok]; rfl, by rw [readWord_emit, h, half_modHalf]⟩

theorem usherSeqLoRead_latches (s : State) (x : Half) : ∃ u, exec (.usherSeqLoRead x 0) s = .next u ∧
    u.readWord x 0 0x204 = (s.img x).seq / 2 ^ 32 :=
  pf_read_then_shows s x rfl _ _ _ _ HState.seqHi fun _ => readWord_pf_status rfl

theorem keyRunLoRead_latches (s : State) (x : Half) : ∃ u, exec (.keyRunLoRead x 0) s = .next u ∧
    u.readWord x 0 0x900204 = s.flash.run / 2 ^ 32 :=
  pf_read_then_shows s x rfl _ _ _ _ HState.runHi fun _ => readWord_pf_status rfl

theorem hssNextLoRead_latches (s : State) (x : Half) : ∃ u, exec (.hssNextLoRead x 0) s = .next u ∧
    u.readWord x 0 0xB00008 = (s.img x).hssNext / 2 ^ 32 :=
  pf_read_then_shows s x rfl _ _ _ _ HState.hssHi fun _ => readWord_pf_status rfl

theorem peerHealthLoRead_latches (s : State) (x : Half) : ∃ u, exec (.peerHealthLoRead x 0) s = .next u ∧
    u.readWord x 0 0xD00010 = (s.half x).helm.peerHealth / 2 ^ 32 :=
  pf_read_then_shows s x rfl _ _ _ _ HState.healthHi fun _ => readWord_pf_status rfl

theorem pmmFailLoRead_latches (s : State) (x : Half) : ∃ u, exec (.pmmFailLoRead x 0) s = .next u ∧
    u.readWord x 0 0xE00008 = 16 * (s.half x).dram.failAgent + (s.half x).dram.failAddr / 2 ^ 32 % 16 :=
  pf_read_then_shows s x rfl _ _ _ _ HState.failHi fun _ => readWord_pf_status rfl

theorem cntValLoRead_latches (s : State) (x : Half) {i : Nat} (h : i < 256) :
    ∃ u, exec (.cntValLoRead x 0 i) s = .next u ∧
      u.readWord x 0 (0x100000C + 0x10 * i) = ((s.half x).ctr i).word / 2 ^ 32 := by
  have key := pf_read_then_shows s x (ok := decide (0 < 16 ∧ i < 256)) (by simp [h]) (0x1000008 + 0x10 * i)
    (((s.half x).ctr i).word % 2 ^ 32) _
    (fun y => { y with ctrHi := tabSet 0 y.ctrHi i (((s.half x).ctr i).word / 2 ^ 32) })
    (fun y => tabGet 0 y.ctrHi i) fun t => readWord_cntValHi t x h
  rwa [tabGet_tabSet] at key

theorem pmmWalkCntRead_clears (s : State) (x : Half) : ∃ u, exec (.pmmWalkCntRead x 0) s = .next u ∧
    u.readWord x 0 0xE00010 = 0 :=
  pf_read_then_shows s x rfl _ _ _ _ (·.dram.walks) fun _ => readWord_pf_status rfl

theorem pmmCorrRead_clears (s : State) (x : Half) : ∃ u, exec (.pmmCorrRead x 0) s = .next u ∧
    u.readWord x 0 0xE00014 = 0 :=
  pf_read_then_shows s x rfl _ _ _ _ (·.dram.corr) fun _ => readWord_pf_status rfl

/-! ## A register of no step of its own -/

/-- A paired write that the half with the helm takes, to a register that sets nothing going. -/
theorem exec_registerWrite_paired {s : State} {x : Half} {off : Nat} {r : RegSpec} (w : Word)
    (hr : regSpecOf off = some r) (hp : r.home = .paired) (hh : s.holder = some x) (hin : r.inRange w = true)
    (hacc : (s.half x).accepts 0 r.base off ((s.img x).reg 0 off) (r.apply ((s.img x).reg 0 off) w) = true)
    (heff : ∀ t : State, t.regEffect x 0 r.base off ((s.img x).reg 0 off) w = t) :
    exec (.registerWrite x 0 off w) s = .next (wrote s x 0 off w (r.apply ((s.img x).reg 0 off) w)) := by
  show Host.Outcome.next (s.writeReg x 0 off w) = _
  have taken : s.writeReg x 0 off w = s.applyPaired x 0 off r w := by
    simp [State.writeReg, hr, hp, hh, reaches]
  rw [taken, State.applyPaired]
  simp only [hin, hacc, heff, Bool.and_self, if_true]
  rfl

/-- The register of a paired write holds the new word. -/
theorem img_reg_wrote (s : State) (x : Half) (off : Nat) (w new : Word) :
    ((wrote s x 0 off w new).img x).reg 0 off = new := by
  rw [wrote, img_modHalf]
  show ((s.modImg x _).img x).reg 0 off = new
  rw [img_modImg]
  exact reg_setReg ..

/-- `CWY_ALIGN_CFG` (03): LOSS_M and CONFIRM_N. -/
def cwyAlignCfg : RegSpec := { base := 0x300000, flds := [rangeF 11 8 5 2 15, rangeF 3 0 3 2 8] }

theorem regSpecOf_cwyAlignCfg : regSpecOf 0x300000 = some cwyAlignCfg := by decide

/-- The new word of `CWY_ALIGN_CFG` is its two fields as written, reserved bits 0 (R14). -/
theorem cwyAlignCfg_apply_toNat (old w : Word) :
    (cwyAlignCfg.apply old w).toNat = bits w 11 8 * 256 + bits w 3 0 := by
  have e : cwyAlignCfg.apply old w = setBits (setBits 0 11 8 (bits w 11 8)) 3 0 (bits w 3 0) := rfl
  have a := bits_lt w 11 8
  have b := bits_lt w 3 0
  rw [e]
  generalize bits w 11 8 = m at *
  generalize bits w 3 0 = n at *
  simp [setBits, bits] at *
  omega

theorem cwyAlignCfg_inRange {w : Word} (c : 2 ≤ bits w 3 0) (c' : bits w 3 0 ≤ 8) (l : 2 ≤ bits w 11 8)
    (l' : bits w 11 8 ≤ 15) : cwyAlignCfg.inRange w = true := by
  simp [cwyAlignCfg, RegSpec.inRange, rangeF, c, c', l, l']

/-- `CWY_ALIGN_CFG` reads as an accepted write left it (R41, R50). -/
theorem cwyAlignCfg_reads_as_written {s : State} {x : Half} {w : Word} (hh : s.holder = some x)
    (hin : cwyAlignCfg.inRange w = true) : ∃ u, exec (.registerWrite x 0 0x300000 w) s = .next u ∧
      u.readWord x 0 0x300000 = bits w 11 8 * 256 + bits w 3 0 :=
  ⟨_, exec_registerWrite_paired w regSpecOf_cwyAlignCfg rfl hh hin rfl fun _ => rfl, by
    rw [readWord_pf_paired rfl (arrayWord_eq_none (by decide) _ x 0) regSpecOf_cwyAlignCfg rfl, img_reg_wrote,
      cwyAlignCfg_apply_toNat]⟩

/-! ## The helm and the pace governor -/

theorem readWord_helmStat (s : State) (x : Half) : s.readWord x 0 0xD00000 =
    b2n (decide (s.obeyed = some x)) * 2 ^ 31 + x.idx * 2 ^ 30 + helmCode (s.half x).helm.st * 2 ^ 27 +
      b2n (s.half x.other).helm.claim * 2 ^ 26 + b2n (s.half x).helm.rejoining * 2 ^ 25 + (s.half x).restarts := by
  rw [readWord_pf_status (v := s.helmStat x) rfl]
  simp only [State.helmStat, flagAt, fieldsAt_cons, fieldsAt_nil]
  omega

theorem readWord_paceStat (s : State) (x : Half) : s.readWord x 0 0x104 =
    b2n (s.half x).gov.paceLimit * 2 ^ 31 + b2n (s.half x).gov.rateFloor * 2 ^ 30 +
      (s.half x).gov.group % 16 * 2 ^ 24 + ((s.half x).gov.vcore - 680) / 5 * 2 ^ 12 +
      (s.half x).gov.slowest % 4096 := by
  rw [readWord_pf_status (v := (s.half x).paceStat) rfl]
  simp only [HState.paceStat, flagAt, fieldsAt_cons, fieldsAt_nil]
  omega

/-! ## The indicators (R520, Table 18.2) -/

theorem modState_of_erased {s : State} (h : s.tam.seed = false) : s.modState = 5 := by simp [State.modState, h]

theorem stateLamp_unpowered {s : State} (h : s.board.power = .off) : s.stateLamp = .off := by
  simp [State.stateLamp, h]

theorem stateLamp_erased {s : State} (h : s.board.power ≠ .off) (e : s.tam.seed = false) : s.stateLamp = .red := by
  simp [State.stateLamp, h, modState_of_erased e]

theorem modState_ne_erased {s : State} (e : s.tam.seed = true) : s.modState ≠ 5 := by
  simp only [State.modState, e, Bool.not_true, Bool.false_eq_true, if_false]
  repeat' split
  all_goals decide

/-- With mains and a seed, STATE is off in COLD, amber blinking without a holder, and else shows the module state. -/
theorem stateLamp_seeded {s : State} (h : s.board.power ≠ .off) (e : s.tam.seed = true) :
    (s.phase = .cold → s.stateLamp = .off) ∧
    (s.phase ≠ .cold → s.holder = none ∨ s.phase = .booting → s.stateLamp = .amberBlinking) ∧
    (∀ k, s.phase = .running → s.holder = some k → s.stateLamp =
      (if s.a.helm.st ≠ .inStep ∧ s.b.helm.st ≠ .inStep then .greenBlinking
       else if (s.img k).service then .green else .amber)) := by
  have n := modState_ne_erased e
  refine ⟨fun c => ?_, fun c b => ?_, fun k r hk => ?_⟩
  · simp [State.stateLamp, h, n, c]
  · by_cases hn : s.holder = none
    · simp [State.stateLamp, h, n, c, hn]
    · have b := b.resolve_left hn
      have m : s.modState = 1 := by simp [State.modState, e, b]
      simp [State.stateLamp, h, b, hn, m]
  · have m : s.modState = if s.a.helm.st ≠ .inStep ∧ s.b.helm.st ≠ .inStep then 4
        else if (s.img k).service then 3 else 2 := by simp only [State.modState, e, r, hk]; rfl
    by_cases a : s.a.helm.st ≠ .inStep ∧ s.b.helm.st ≠ .inStep
    · rw [if_pos a] at m ⊢
      simp [State.stateLamp, h, r, hk, m]
    · rw [if_neg a] at m ⊢
      cases v : (s.img k).service <;> simp [State.stateLamp, h, r, hk, m, v]

theorem halfLamp_active {s : State} {x : Half} (h : (s.half x).helm.st.active = true) : s.halfLamp x = .green := by
  unfold State.halfLamp
  cases e : (s.half x).helm.st
  case activePaired | activeSolo => rfl
  all_goals rw [e] at h; exact absurd h (by decide)

theorem halfLamp_inStep {s : State} {x : Half} (h : (s.half x).helm.st = .inStep) : s.halfLamp x = .amber := by
  simp [State.halfLamp, h]

theorem halfLamp_out {s : State} {x : Half} (h : (s.half x).helm.st = .out) : s.halfLamp x = .amberBlinking := by
  simp [State.halfLamp, h]

theorem halfLamp_halted {s : State} {x : Half} (h : (s.half x).helm.st = .halted) (c : (s.half x).haltCause ≠ 0) :
    s.halfLamp x = .red := by simp [State.halfLamp, h, c]

theorem cageLamp_fault {s : State} {c : Nat} (f : (s.cage c).fault = true) : s.cageLamp c = .amber := by
  simp [State.cageLamp, f]

theorem cageLamp_dark {s : State} {c : Nat} (f : (s.cage c).fault = false)
    (d : (s.cage c).present = false ∨ (s.cage c).powered = false) : s.cageLamp c = .off := by
  rcases d with d | d <;> simp [State.cageLamp, f, d]

/-- A powered cage is green while its 8 lanes are in ACTIVE with signal at the half that holds the helm. -/
theorem cageLamp_green {s : State} {c : Nat} {k : Half} (hk : s.holder = some k) (f : (s.cage c).fault = false)
    (p : (s.cage c).present = true) (w : (s.cage c).powered = true)
    (l : ∀ i, i < 8 → ((s.half k).lane (8 * c + i)).inActive = true ∧
      ((s.half k).lane (8 * c + i)).signal = true) :
    s.cageLamp c = .green := by
  have all : ((List.range 8).all fun i => ((s.half k).lane (8 * c + i)).inActive &&
      ((s.half k).lane (8 * c + i)).signal) = true :=
    List.all_eq_true.2 fun i hi => Bool.and_eq_true_iff.2 (l i (List.mem_range.1 hi))
  simp only [State.cageLamp, f, p, w, hk, all]
  rfl

/-! ## The statement -/

/-- Registers read as the state stands (R14, R41, R43). -/
theorem registersReadAsTheStateStands : RegistersReadAsTheStateStands := fun x s =>
  ⟨fun _ _ => readWord_of_not_reaches,
    fun _ hh c c' l l' => cwyAlignCfg_reads_as_written hh (cwyAlignCfg_inRange c c' l l'),
    usherSeqLoRead_latches s x, keyRunLoRead_latches s x, hssNextLoRead_latches s x, peerHealthLoRead_latches s x,
    pmmFailLoRead_latches s x, fun _ => cntValLoRead_latches s x, pmmWalkCntRead_clears s x, pmmCorrRead_clears s x,
    readWord_helmStat s x, readWord_pf_status rfl, readWord_paceStat s x⟩

/-- Each bit of `HAL_EXPRESS_STAT` is the conjunction of the conditions of R265. -/
theorem expressConditionsShow : ExpressConditionsShow := fun x p s hp => by
  rw [readWord_pf_status (v := maskOf 32 ((s.half x).expressMet s.now)) rfl, maskOf_bit _ hp]
  simp only [HState.expressMet, Bool.and_eq_true, Bool.not_eq_true', decide_eq_true_eq, and_assoc]
  rfl

/-- The indicators follow the module state and the helm states. -/
theorem lampsFollowTheState : LampsFollowTheState := fun _ _ _ =>
  ⟨stateLamp_unpowered, fun h => ⟨stateLamp_erased h, stateLamp_seeded h⟩, halfLamp_active, halfLamp_inStep,
    halfLamp_out, halfLamp_halted, cageLamp_fault, cageLamp_dark, fun _ => cageLamp_green⟩

/-- Settles O60, by one lemma for each register and indicator that it names. -/
theorem registersAndLampsShowTheState : Obligations.RegistersAndLampsShowTheState :=
  ⟨registersReadAsTheStateStands, expressConditionsShow, lampsFollowTheState⟩

end Sys2Proof.Machine
end

section
/-! SUPPORT. The reads that change state: what a register read answers and leaves (R14, R41, R43, R478). -/

namespace Sys2Proof.Machine

open Sys2Proof Sys2Proof.Claims

/-! ## Which function a read reaches -/

/-- A virtual function reaches no register outside HIF (R41, R478). -/
theorem reaches_vf_outside_hif {fn off : Nat} (hf : 0 < fn) (h : inHif off = false) : reaches fn off = false := by
  simp [reaches, h, Nat.ne_of_gt hf]

/-- Every function reaches its HIF registers below those of ring 3 (R478). -/
theorem reaches_hif_below_ring3 (fn : Nat) {off : Nat} (lo : 0x100000 ≤ off) (hi : off < 0x100160) :
    reaches fn off = true := by
  have n : ¬ 0x100160 ≤ off := by omega
  have below : off < 0x100400 := by omega
  have block : off < 0x200000 := by omega
  simp [reaches, inHif, lo, n, below, block]

/-- The registers of ring 3 belong to the physical function alone (R478). -/
theorem reaches_vf_ring3 {fn off : Nat} (hf : 0 < fn) (lo : 0x100160 ≤ off) (hi : off < 0x100180) :
    reaches fn off = false := by
  simp [reaches, lo, hi, Nat.ne_of_gt hf]

/-- `HIF_RING_ERR[r]` is within reach where ring `r` is the function's (R478). -/
theorem reaches_ringErr {fn r : Nat} (h : r < 3 ∨ (r = 3 ∧ fn = 0)) : reaches fn (0x100114 + 0x20 * r) = true := by
  rcases h with lt | ⟨rfl, rfl⟩
  · exact reaches_hif_below_ring3 fn (by omega) (by omega)
  · rfl

/-! ## What a read answers -/

/-- A read by a function that reaches the register answers the value and does what the read does. -/
theorem onUnit_readAs_of_reaches {s : State} {ok : Bool} {fn off v : Nat} {act : State → State} (hok : ok = true)
    (h : reaches fn off = true) : onUnit ok (s.readAs fn off v act) = .next ((act s).emit (.read v)) := by
  simp [onUnit, State.readAs, hok, h]

/-- A read by a function that does not reach the register answers 0 and does nothing else (R41). -/
theorem onUnit_readAs_of_not_reaches {s : State} {ok : Bool} {fn off v : Nat} {act : State → State} (hok : ok = true)
    (h : reaches fn off = false) : onUnit ok (s.readAs fn off v act) = .next (s.emit (.read 0)) := by
  simp [onUnit, State.readAs, hok, h]

/-- A step that reads a register outside HIF is a read of the physical function's. -/
theorem pfRead_of_exec {row : Nat → Instr} {s : State} {ok : Nat → Bool} {off v : Nat} {act : State → State}
    (outside : inHif off = false) (hok : ∀ fn, fn < 16 → ok fn = true)
    (hexec : ∀ fn, exec (row fn) s = onUnit (ok fn) (s.readAs fn off v act)) : PfRead row s v (act s) :=
  ⟨(hexec 0).trans (onUnit_readAs_of_reaches (hok 0 (by decide)) rfl), fun fn hf h16 =>
    (hexec fn).trans (onUnit_readAs_of_not_reaches (hok fn h16) (reaches_vf_outside_hif hf outside))⟩

/-- A read of a register outside HIF that changes one half. -/
theorem pfRead_modHalf {row : Nat → Instr} {s : State} {x : Half} {ok : Nat → Bool} {off v : Nat}
    {f : HState → HState} (outside : inHif off = false) (hok : ∀ fn, fn < 16 → ok fn = true)
    (hexec : ∀ fn, exec (row fn) s = onUnit (ok fn) (s.readAs fn off v fun t => t.modHalf x f)) :
    PfRead row s v (s.modHalf x f) :=
  pfRead_of_exec outside hok hexec

/-! ## Reads of the registers of an array, and of the selected FIFO -/

theorem timTbNsRead_latches (s : State) (x : Half) {n : Nat} (hn : n < 4) :
    PfRead (.timTbNsRead x · n) s ((s.half x).tb n).ns (s.modHalf x fun y => y.setTb n
      { (s.half x).tb n with latSec := ((s.half x).tb n).sec, latSub := ((s.half x).tb n).sub }) :=
  pfRead_modHalf (off := 0xC00010 + 0x20 * n) (ok := fun fn => decide (fn < 16 ∧ n < 4))
    (by simp only [inHif, decide_eq_false_iff_not]; omega) (fun _ h => decide_eq_true ⟨h, hn⟩) fun _ => rfl

theorem prbsErrRead_clears (s : State) (x : Half) (e : Nat) {n : Nat} (hn : n < 64) :
    PfRead (.prbsErrRead x · n e) s (s.prbsErrors x n e)
      (s.modHalf x fun y => y.setLane n { (s.half x).lane n with prbsErr := 0 }) :=
  pfRead_modHalf (off := 0x201400 + 4 * n) (ok := fun fn => decide (fn < 16 ∧ n < 64))
    (by simp only [inHif, decide_eq_false_iff_not]; omega) (fun _ h => decide_eq_true ⟨h, hn⟩) fun _ => rfl

/-- A FIFO that is implemented answers its corrected errors, which are 0 afterwards (R37). -/
theorem fifoCerrRead_clears (s : State) (x : Half) {i : Nat} (hi : i = bits ((s.half x).reg 0 0x300) 9 0)
    (h : i < 640) : PfRead (.fifoCerrRead x) s (tabGet {} (s.half x).fifos i : Fifo).cerr
      (s.modHalf x fun y =>
        { y with fifos := tabSet {} y.fifos i { (tabGet {} (s.half x).fifos i : Fifo) with cerr := 0 } }) := by
  subst hi
  exact pfRead_modHalf (off := 0x30C) rfl (fun _ => decide_eq_true) fun fn => by
    show execFifoCerrRead x fn s = _
    simp only [execFifoCerrRead, if_pos h]

/-- An index that is not implemented reads 0 (R37). -/
theorem fifoCerrRead_beyond (s : State) (x : Half) (h : 640 ≤ bits ((s.half x).reg 0 0x300) 9 0) :
    PfRead (.fifoCerrRead x) s 0 s :=
  pfRead_of_exec (off := 0x30C) (act := fun t => t) rfl (fun _ => decide_eq_true) fun fn => by
    show execFifoCerrRead x fn s = _
    simp only [execFifoCerrRead, if_neg (Nat.not_lt.2 h)]

/-! ## The statement -/

theorem lowReadsLatchTheUpperHalf : LowReadsLatchTheUpperHalf := fun x s =>
  ⟨pfRead_modHalf (off := 0x200) rfl (fun _ => decide_eq_true) fun _ => rfl,
    pfRead_modHalf (off := 0x900200) rfl (fun _ => decide_eq_true) fun _ => rfl,
    pfRead_modHalf (off := 0xB00004) rfl (fun _ => decide_eq_true) fun _ => rfl,
    pfRead_modHalf (off := 0xD0000C) rfl (fun _ => decide_eq_true) fun _ => rfl,
    pfRead_modHalf (off := 0xE00004) rfl (fun _ => decide_eq_true) fun _ => rfl,
    fun _ => timTbNsRead_latches s x⟩

theorem readClearCountsClear : ReadClearCountsClear := fun x s =>
  ⟨fun _ e => prbsErrRead_clears s x e, fun _ => fifoCerrRead_clears s x, fifoCerrRead_beyond s x,
    pfRead_modHalf (off := 0xB00014) rfl (fun _ => decide_eq_true) fun _ => rfl,
    pfRead_modHalf (off := 0xE0000C) rfl (fun _ => decide_eq_true) fun _ => rfl,
    pfRead_modHalf (off := 0xE00010) rfl (fun _ => decide_eq_true) fun _ => rfl,
    pfRead_modHalf (off := 0xE00014) rfl (fun _ => decide_eq_true) fun _ => rfl⟩

theorem hostInterfaceCountsClear : HostInterfaceCountsClear := fun _ fn _ h16 =>
  ⟨onUnit_readAs_of_reaches (off := 0x100008) (decide_eq_true h16)
      (reaches_hif_below_ring3 fn (by decide) (by decide)),
    fun r hr => onUnit_readAs_of_reaches (off := 0x100114 + 0x20 * r)
      (decide_eq_true ⟨h16, by omega⟩) (reaches_ringErr hr),
    fun hf => onUnit_readAs_of_not_reaches (off := 0x100174) (decide_eq_true ⟨h16, by decide⟩)
      (reaches_vf_ring3 hf (by decide) (by decide))⟩

/-- Settles O9: each read is one `readAs`, answered where the function reaches the register. -/
theorem readsLatchAndClear : Obligations.ReadsLatchAndClear :=
  ⟨lowReadsLatchTheUpperHalf, readClearCountsClear, hostInterfaceCountsClear⟩

end Sys2Proof.Machine
end

section
/-! SUPPORT. Protection units: what governs a byte, how far an access goes, what a fault leaves, and who writes a region
(R447–R452). -/

namespace Sys2Proof.Machine

open Sys2Proof Sys2Proof.Claims

/-! ## What governs a byte -/

theorem isUnitReg_iff (a : Nat) : isUnitReg a = true ↔ 0xFFF00000 ≤ a ∧ a < 0xFFF0010C := by simp [isUnitReg]

/-- The region that governs a byte is the lowest-numbered one that holds it. -/
theorem governs_of_holds_first {u : ProtUnit} {a r : Nat} (lt : r < 16)
    (h : (tabGet {} u.regions r : Region).holds a = true)
    (first : ∀ k, k < r → (tabGet {} u.regions k : Region).holds a = false) : u.governs a = some r := by
  rw [ProtUnit.governs, List.find?_range_eq_some]
  exact ⟨h, List.mem_range.2 lt, fun k hk => by rw [first k hk]; rfl⟩

theorem governs_of_none_holds {u : ProtUnit} {a : Nat}
    (h : ∀ r, r < 16 → (tabGet {} u.regions r : Region).holds a = false) : u.governs a = none := by
  rw [ProtUnit.governs, List.find?_range_eq_none]
  exact fun r hr => by rw [h r hr]; rfl

/-- Below the secure level the unit's own registers are forbidden, whatever the regions say (R449). -/
theorem forbids_unitReg (u : ProtUnit) {l : Level} (t : AccessType) {a : Nat} (lo : 0xFFF00000 ≤ a)
    (hi : a < 0xFFF0010C) (below : l ≠ .secure) : u.forbids l t a = some 16 := by
  simp [ProtUnit.forbids, isUnitReg, lo, hi, below]

/-- Elsewhere, and at the secure level, the governing region decides (R448). -/
theorem forbids_by_region (u : ProtUnit) {l : Level} (t : AccessType) {a : Nat}
    (h : a < 0xFFF00000 ∨ 0xFFF0010C ≤ a ∨ l = .secure) : u.forbids l t a =
      (u.governs a).bind fun r => if (tabGet {} u.regions r : Region).allows l t then none else some r := by
  have own : (isUnitReg a && decide (l ≠ .secure)) = false := by
    rw [Bool.and_eq_false_iff, ← Bool.not_eq_true, isUnitReg_iff, decide_eq_false_iff_not, Classical.not_not]
    rcases h with lt | ge | secure
    · exact .inl fun own => absurd own.1 (Nat.not_le.2 lt)
    · exact .inl fun own => absurd own.2 (Nat.not_lt.2 ge)
    · exact .inr secure
  rw [ProtUnit.forbids, own]
  cases u.governs a <;> rfl

/-! ## How far an access goes -/

/-- Bytes that are permitted are passed over. -/
theorem firstForbidden_skip {u : ProtUnit} {l : Level} {t : AccessType} {a : Nat} (n m k : Nat)
    (free : ∀ j, j < n → u.forbids l t (a + (k + j)) = none) :
    u.firstForbidden l t a (n + m) k = u.firstForbidden l t a m (k + n) := by
  induction n generalizing k with
  | zero => simp
  | succ n ih =>
    have now : u.forbids l t (a + k) = none := free 0 n.succ_pos
    have rest := ih (k + 1) fun j hj => by
      rw [Nat.add_assoc k, Nat.add_comm 1]
      exact free (j + 1) (Nat.succ_lt_succ hj)
    rw [Nat.succ_add, ProtUnit.firstForbidden, now]
    exact rest.trans (by rw [Nat.add_assoc, Nat.add_comm 1])

/-- An access of permitted bytes alone goes to its end. -/
theorem firstForbidden_of_permitted {u : ProtUnit} {l : Level} {t : AccessType} {a n : Nat}
    (free : ∀ k, k < n → u.forbids l t (a + k) = none) : u.firstForbidden l t a n 0 = (n, none) := by
  have skip := firstForbidden_skip (u := u) (l := l) (t := t) (a := a) n 0 0 (by simpa using free)
  simpa [ProtUnit.firstForbidden] using skip

/-- An access stops at its first forbidden byte, with the reason (R450). -/
theorem firstForbidden_of_forbidden {u : ProtUnit} {l : Level} {t : AccessType} {a n size g : Nat} (lt : n < size)
    (free : ∀ k, k < n → u.forbids l t (a + k) = none) (stop : u.forbids l t (a + n) = some g) :
    u.firstForbidden l t a size 0 = (n, some g) := by
  obtain ⟨m, rfl⟩ : ∃ m, size = n + (m + 1) := ⟨size - n - 1, by omega⟩
  rw [firstForbidden_skip n (m + 1) 0 (by simpa using free), Nat.zero_add, ProtUnit.firstForbidden, stop]

/-- A region's registers, by their place in the region. -/
def Region.word (g : Region) : Nat → Nat
  | 0 => g.base.toNat
  | 4 => g.limit.toNat
  | 8 => g.perm.toNat
  | _ => 0

/-- The unit reads a region's register from its place in the region (R449). -/
theorem readReg_region (u : ProtUnit) {r k : Nat} (hr : r < 16) (hk : k < 16) :
    u.readReg (16 * r + k) = (tabGet {} u.regions r : Region).word k := by
  have place : (16 * r + k) / 16 = r := by omega
  have part : (16 * r + k) % 16 = k := by omega
  rw [ProtUnit.readReg, if_pos (by omega : 16 * r + k < 0x100), place, part]
  rfl

/-- The state after the first `n` bytes of an access are done. -/
def accessPart (s : State) (x : Half) (core : Nat) (ty : AccessType) (addr n : Nat) : State :=
  if n = 0 then s else Accessed s x core ty addr n

/-- What the model does for the permitted bytes of an access, each in its order (R450). -/
theorem permitted_eq_accessPart (s : State) (x : Half) (core : Nat) (ty : AccessType) (addr n : Nat) :
    (if 0 < n then (s.emit (.access x core ty addr n)).regAccess x core ty addr n else s) =
      accessPart s x core ty addr n := by
  cases n with
  | zero => rfl
  | succ n =>
    rw [accessPart, if_pos n.succ_pos, if_neg n.succ_ne_zero]
    simp only [State.regAccess, Accessed, isUnitReg, emit_half, Bool.and_eq_true, decide_eq_true_eq, and_assoc]

/-! ## The units of a half -/

theorem unit_tabSet_same (x : HState) (core : Nat) (u : ProtUnit) :
    ({ x with prot := tabSet {} x.prot core u } : HState).unit core = u := tabGet_tabSet ..

theorem unit_tabSet_of_ne (x : HState) {core k : Nat} (u : ProtUnit) (n : k ≠ core) :
    ({ x with prot := tabSet {} x.prot core u } : HState).unit k = x.unit k := tabGet_tabSet_of_ne _ _ _ n

/-! ## What a fault leaves -/

/-- A fault is due for posting: none was posted in the last ms (R452). -/
abbrev ProtUnit.due (u : ProtUnit) (now : Nat) : Prop := u.at_ = 0 ∨ u.at_ - 1 + 1000000 ≤ now

/-- A unit with a fault recorded. -/
def ProtUnit.recorded (u : ProtUnit) (now : Nat) (l : Level) (t : AccessType) (a r : Nat) : ProtUnit :=
  { u with
    info := BitVec.ofNat 32 (r * 2 ^ 27 + levelCode l * 2 ^ 25 + typeCode t * 2 ^ 23)
    addr := a
    at_ := if u.due now then now + 1 else u.at_
    cnt := if u.due now then 0 else u.cnt + 1 }

theorem recorded_info (u : ProtUnit) (now : Nat) (l : Level) (t : AccessType) (a r : Nat) :
    (u.recorded now l t a r).info =
      BitVec.ofNat 32 (r * 2 ^ 27 + levelCode l * 2 ^ 25 + typeCode t * 2 ^ 23) := rfl

theorem recorded_addr (u : ProtUnit) (now : Nat) (l : Level) (t : AccessType) (a r : Nat) :
    (u.recorded now l t a r).addr = a := rfl

theorem recorded_regions (u : ProtUnit) (now : Nat) (l : Level) (t : AccessType) (a r : Nat) :
    (u.recorded now l t a r).regions = u.regions := by cases u; rfl

theorem recorded_of_due {u : ProtUnit} {now : Nat} (l : Level) (t : AccessType) (a r : Nat) (due : u.due now) :
    (u.recorded now l t a r).at_ = now + 1 ∧ (u.recorded now l t a r).cnt = 0 := ⟨if_pos due, if_pos due⟩

theorem recorded_of_not_due {u : ProtUnit} {now : Nat} (l : Level) (t : AccessType) (a r : Nat) (due : ¬u.due now) :
    (u.recorded now l t a r).at_ = u.at_ ∧ (u.recorded now l t a r).cnt = u.cnt + 1 := ⟨if_neg due, if_neg due⟩

/-- PROT_FAULT of a core. -/
def protFaultEv (s : State) (h : Half) (core : Nat) (l : Level) (t : AccessType) (a r : Nat) : Ev :=
  { code := 0x0D0B, origin := h, absorbed := ((s.half h).unit core).cnt,
    payload := [(1, h.idx), (1, core), (1, levelCode l), (1, typeCode t), (4, a), (1, r)],
    route := .pf, key := 0, times := (s.half h).times }

/-- The state with a fault recorded in the unit. -/
def State.faultRecorded (s : State) (h : Half) (core : Nat) (l : Level) (t : AccessType) (a r : Nat) : State :=
  s.modHalf h fun x => { x with prot := tabSet {} x.prot core (((s.half h).unit core).recorded s.now l t a r) }

theorem protFault_of_due {s : State} {h : Half} {core : Nat} (l : Level) (t : AccessType) (a r : Nat)
    (due : ((s.half h).unit core).due s.now) : s.protFault h core l t a r =
      ((s.faultRecorded h core l t a r).postEv h .cores (protFaultEv s h core l t a r)).happen h 0x41 core 1 := by
  simp only [State.faultRecorded, ProtUnit.recorded, if_pos due]
  exact if_pos due

theorem protFault_of_not_due {s : State} {h : Half} {core : Nat} (l : Level) (t : AccessType) (a r : Nat)
    (due : ¬((s.half h).unit core).due s.now) : s.protFault h core l t a r =
      (s.faultRecorded h core l t a r).happen h 0x41 core 1 := by
  simp only [State.faultRecorded, ProtUnit.recorded, if_neg due]
  exact if_neg due

@[simp] theorem happen_half_prot (s : State) (h : Half) (ev obj n : Nat) :
    ((s.happen h ev obj n).half h).prot = (s.half h).prot := by
  obtain ⟨q, f, c, e⟩ := happen_eq s h ev obj n
  rw [e, half_modHalf]

@[simp] theorem postEv_half_prot (s : State) (h : Half) (src : Src) (e : Ev) :
    ((s.postEv h src e).half h).prot = (s.half h).prot := by
  obtain ⟨q, f, e⟩ := postEv_eq s h src e
  rw [e, half_modHalf]

/-- The units of the half after a fault: the core's own records it. -/
theorem protFault_half_prot (s : State) (h : Half) (core : Nat) (l : Level) (t : AccessType) (a r : Nat) :
    ((s.protFault h core l t a r).half h).prot =
      tabSet {} (s.half h).prot core (((s.half h).unit core).recorded s.now l t a r) := by
  have e : ((s.faultRecorded h core l t a r).half h).prot =
      tabSet {} (s.half h).prot core (((s.half h).unit core).recorded s.now l t a r) := by
    rw [State.faultRecorded, half_modHalf]
  by_cases due : ((s.half h).unit core).due s.now
  · rw [protFault_of_due l t a r due, happen_half_prot, postEv_half_prot, e]
  · rw [protFault_of_not_due l t a r due, happen_half_prot, e]

theorem protFault_unit_same (s : State) (h : Half) (core : Nat) (l : Level) (t : AccessType) (a r : Nat) :
    ((s.protFault h core l t a r).half h).unit core = ((s.half h).unit core).recorded s.now l t a r := by
  rw [HState.unit, protFault_half_prot]
  exact tabGet_tabSet ..

theorem protFault_unit_of_ne (s : State) (h : Half) {core k : Nat} (l : Level) (t : AccessType) (a r : Nat)
    (n : k ≠ core) : ((s.protFault h core l t a r).half h).unit k = (s.half h).unit k := by
  rw [HState.unit, protFault_half_prot]
  exact tabGet_tabSet_of_ne _ _ _ n

/-- A change of one half stays within it. -/
theorem within_modHalf (s : State) (h : Half) (f : HState → HState) : Within h s (s.modHalf h f) := by
  rw [Within, half_modHalf]
  rfl

/-- An event that is no level event merges into nothing. -/
theorem mergeLevel_of_key_zero {e : Ev} (k : e.key = 0) (q : List (Src × Post)) : mergeLevel e q = none := by
  induction q with
  | nil => rfl
  | cons p q ih =>
    obtain ⟨src, p⟩ := p
    cases p <;> simp [mergeLevel, k, ih]

/-- An event that is no level event, whatever it counts absorbed, joins the queue of an active half. -/
theorem postEv_queue_of_posting {s : State} {h : Half} (src : Src) {e : Ev} (k : e.key = 0) (p : Posting s h) :
    ((s.postEv h src e).half h).queue = (s.half h).queue ++ [(src, .ev e)] := by
  rw [State.postEv, half_modHalf]
  rcases p with p | p <;> simp only [p, mergeLevel_of_key_zero k, Option.getD_none]

/-- With no counter in use a fault that is due joins the queue of an active half as PROT_FAULT. -/
theorem protFault_queue_of_due {s : State} {h : Half} {core : Nat} (l : Level) (t : AccessType) (a r : Nat)
    (due : ((s.half h).unit core).due s.now) (idle : (s.half h).ctrs = []) (p : Posting s h) :
    ((s.protFault h core l t a r).half h).queue = (s.half h).queue ++ [(.cores, .ev (protFaultEv s h core l t a r))] := by
  have posting : Posting (s.faultRecorded h core l t a r) h := by
    rw [Posting, State.faultRecorded, half_modHalf]
    exact p
  have ctrs : (((s.faultRecorded h core l t a r).postEv h .cores (protFaultEv s h core l t a r)).half h).ctrs = [] := by
    obtain ⟨q, f, e⟩ := postEv_eq (s.faultRecorded h core l t a r) h .cores (protFaultEv s h core l t a r)
    rw [e, half_modHalf, State.faultRecorded, half_modHalf]
    exact idle
  rw [protFault_of_due l t a r due, happen_nil ctrs, postEv_queue_of_posting .cores rfl posting,
    State.faultRecorded, half_modHalf]

/-- A fault within the ms of the last one posted is only counted. -/
theorem protFault_queue_of_not_due {s : State} {h : Half} {core : Nat} (l : Level) (t : AccessType) (a r : Nat)
    (due : ¬((s.half h).unit core).due s.now) (idle : (s.half h).ctrs = []) :
    ((s.protFault h core l t a r).half h).queue = (s.half h).queue := by
  have ctrs : ((s.faultRecorded h core l t a r).half h).ctrs = [] := by
    rw [State.faultRecorded, half_modHalf]
    exact idle
  rw [protFault_of_not_due l t a r due, happen_nil ctrs, State.faultRecorded, half_modHalf]

/-- A protection fault leaves what R452 says. -/
theorem faulted_protFault (s : State) (x : Half) (core : Nat) (l : Level) (ty : AccessType) (a g : Nat) :
    Faulted s x core l ty a g (s.protFault x core l ty a g) := by
  obtain ⟨p, q, f, c, frame⟩ := protFault_eq s x core l ty a g
  simp only [Faulted, protFault_unit_same, recorded_info, recorded_addr, recorded_regions, true_and]
  refine ⟨recorded_of_due l ty a g, recorded_of_not_due l ty a g,
    fun k n => protFault_unit_of_ne s x l ty a g n, ?_, ?_, ?_, fun idle posting => ⟨fun due => ?_, fun due => ?_⟩⟩
  · rw [frame]
    exact within_modHalf ..
  · rw [frame, img_modHalf]
    rfl
  · rw [frame, half_modHalf]
  · exact ⟨_, protFault_queue_of_due l ty a g due idle posting, rfl, rfl, rfl⟩
  · exact protFault_queue_of_not_due l ty a g due idle

/-! ## Accesses -/

/-- An access of a core of a half that is up, by how far its unit lets it go. -/
theorem exec_processorAccess {s : State} {x : Half} {core : Nat} (l : Level) (ty : AccessType) {addr size n : Nat}
    {g : Option Nat} (up : (s.half x).up = true) (hc : core < 5) (pos : 0 < size) (top : addr + size ≤ 2 ^ 32)
    (far : ((s.half x).unit core).firstForbidden l ty addr size 0 = (n, g)) :
    exec (.processorAccess x core l ty addr size) s = .next (g.elim (accessPart s x core ty addr n)
      ((accessPart s x core ty addr n).protFault x core l ty (addr + n))) := by
  show execProcessorAccess x core l ty addr size s = _
  have ok : decide (core < 5 ∧ 0 < size ∧ addr + size ≤ 2 ^ 32) = true := decide_eq_true ⟨hc, pos, top⟩
  simp only [execProcessorAccess, onUnit, ok, up, far, permitted_eq_accessPart]
  cases g <;> rfl

theorem accessesStopAtTheFirstForbiddenByte : AccessesStopAtTheFirstForbiddenByte := by
  rintro x core l ty p s up hc rfl
  refine ⟨fun a => ⟨fun lo hi => forbids_unitReg _ ty lo hi, fun h =>
      ⟨fun r lt holds first => ?_, fun empty => ?_⟩⟩,
    fun addr size pos top => ⟨fun free => ?_, fun n g lt free stop => ?_⟩, fun r lt => ?_, rfl, rfl⟩
  · rw [forbids_by_region _ ty h, governs_of_holds_first lt holds first]
    rfl
  · rw [forbids_by_region _ ty h, governs_of_none_holds empty]
    rfl
  · rw [exec_processorAccess l ty up hc pos top (firstForbidden_of_permitted free)]
    rw [Option.elim_none, accessPart, if_neg (Nat.ne_of_gt pos)]
  · exact ⟨_, exec_processorAccess l ty up hc pos top (firstForbidden_of_forbidden lt free stop),
      faulted_protFault ..⟩
  · exact ⟨readReg_region _ lt (k := 0) (by decide), readReg_region _ lt (k := 4) (by decide),
      readReg_region _ lt (k := 8) (by decide)⟩

/-! ## Writes of regions and the fence -/

/-- A region register after a write, by its place in the region: a limit below the base is refused (R42). -/
theorem region_write (g : Region) (part : Nat) (w : Word) :
    (part = 0 → g.write part w = { g with base := BitVec.ofNat 32 (64 * bits w 31 6 + bits w 0 0) }) ∧
    (part = 4 → g.write part w =
      if bits w 31 6 < bits g.base 31 6 then g else { g with limit := BitVec.ofNat 32 (64 * bits w 31 6) }) ∧
    (part = 8 → g.write part w = { g with perm := BitVec.ofNat 32 (bits w 8 0) }) ∧
    (part ≠ 0 → part ≠ 4 → part ≠ 8 → g.write part w = g) := by
  refine ⟨?_, ?_, ?_, fun n0 n4 n8 => ?_⟩
  · rintro rfl
    rfl
  · rintro rfl
    rfl
  · rintro rfl
    rfl
  · unfold Region.write
    split
    · exact absurd rfl n0
    · exact absurd rfl n4
    · exact absurd rfl n8
    · rfl

/-- The unit of a core after the secure level has written a region register. -/
def ProtUnit.withRegion (u : ProtUnit) (off : Nat) (w : Word) : ProtUnit :=
  { u with regions :=
      tabSet {} u.regions (off / 16) ((tabGet {} u.regions (off / 16) : Region).write (off % 16) w) }

theorem withRegion_written (u : ProtUnit) (off : Nat) (w : Word) :
    (tabGet {} (u.withRegion off w).regions (off / 16) : Region) =
      (tabGet {} u.regions (off / 16) : Region).write (off % 16) w := tabGet_tabSet ..

theorem withRegion_of_ne (u : ProtUnit) {off k : Nat} (w : Word) (n : k ≠ off / 16) :
    (tabGet {} (u.withRegion off w).regions k : Region) = tabGet {} u.regions k := tabGet_tabSet_of_ne _ _ _ n

section
variable {s : State} {x : Half} {core off : Nat} (w : Word) (up : (s.half x).up = true) (hc : core < 5)
include up hc

/-- The secure level's write changes one region of the core's own unit (R449). -/
theorem exec_protRegionWrite_secure (ho : off < 0x100) : exec (.protRegionWrite x core .secure off w) s =
    .next (s.modHalf x fun y => { y with prot := tabSet {} y.prot core ((y.unit core).withRegion off w) }) := by
  show execProtRegionWrite x core .secure off w s = _
  simp only [execProtRegionWrite, onUnit, decide_eq_true (And.intro hc ho), up]
  rfl

/-- Below the secure level the write faults (R449). -/
theorem exec_protRegionWrite_below (ho : off < 0x100) {l : Level} (below : l ≠ .secure) :
    exec (.protRegionWrite x core l off w) s = .next (s.protFault x core l .write (0xFFF00000 + off) 16) := by
  show execProtRegionWrite x core l off w s = _
  simp only [execProtRegionWrite, onUnit, decide_eq_true (And.intro hc ho), up, if_pos below]
  rfl

omit up in
/-- The secure level's fence finds every access complete (R451). -/
theorem exec_protFence_secure : exec (.protFence x core .secure w) s = .next s := by
  show execProtFence x core .secure w s = _
  simp [execProtFence, onUnit, hc]

/-- Below the secure level the fence faults (R449). -/
theorem exec_protFence_below {l : Level} (below : l ≠ .secure) :
    exec (.protFence x core l w) s = .next (s.protFault x core l .write 0xFFF00100 16) := by
  show execProtFence x core l w s = _
  simp only [execProtFence, onUnit, decide_eq_true hc, up, decide_eq_true below]
  rfl
end

theorem regionsBelongToTheSecureLevel : RegionsBelongToTheSecureLevel := by
  intro x core off w s up hc ho
  refine ⟨?_, exec_protFence_secure w hc, fun l below =>
    ⟨⟨_, exec_protRegionWrite_below w up hc ho below, faulted_protFault ..⟩,
      ⟨_, exec_protFence_below w up hc below, faulted_protFault ..⟩⟩⟩
  rintro g rfl
  refine ⟨_, _, exec_protRegionWrite_secure w up hc ho, rfl, ?_⟩
  rw [half_modHalf, unit_tabSet_same, withRegion_written]
  obtain ⟨base, limit, perm, other⟩ :=
    region_write (tabGet {} ((s.half x).unit core).regions (off / 16)) (off % 16) w
  exact ⟨base, limit, perm, other, fun k n => withRegion_of_ne _ w n, fun k n => unit_tabSet_of_ne _ _ n, rfl⟩

/-- Settles O53: what governs each byte bounds an access, every forbidden access is one and the same fault, and only the
secure level's write reaches a region. -/
theorem protectionUnitsGuardEveryAccess : Obligations.ProtectionUnitsGuardEveryAccess :=
  ⟨accessesStopAtTheFirstForbiddenByte, regionsBelongToTheSecureLevel⟩

end Sys2Proof.Machine
end

section
/-! SUPPORT. Tamper alarms: which sources raise one, what answers it, and what is then told (R455–R470). -/

namespace Sys2Proof.Machine

open Sys2Proof Sys2Proof.Claims

/-! ## What is only told -/

/-- `t` differs from `s` at most in what its halves have posted and what has been told of its state: the tamper
controller, the phase, flash, what went out, and each half's helm and halt are as they were. -/
structure OnlyTold (s t : State) : Prop where
  tam : t.tam = s.tam
  phase : t.phase = s.phase
  flash : t.flash = s.flash
  out : t.out = s.out
  helm : ∀ k, (t.half k).helm = (s.half k).helm
  haltCause : ∀ k, (t.half k).haltCause = (s.half k).haltCause

theorem OnlyTold.trans {s t u : State} (h : OnlyTold s t) (g : OnlyTold t u) : OnlyTold s u :=
  ⟨g.tam.trans h.tam, g.phase.trans h.phase, g.flash.trans h.flash, g.out.trans h.out,
    fun k => (g.helm k).trans (h.helm k), fun k => (g.haltCause k).trans (h.haltCause k)⟩

theorem onlyTold_alerted (s : State) : OnlyTold s s.alerted :=
  ⟨rfl, rfl, rfl, rfl, fun k => by cases k <;> rfl, fun k => by cases k <;> rfl⟩

theorem onlyTold_lastState (s : State) (n : Nat) : OnlyTold s { s with lastState := n } :=
  ⟨rfl, rfl, rfl, rfl, fun k => by cases k <;> rfl, fun k => by cases k <;> rfl⟩

theorem onlyTold_posted (s : State) (x : Half) (q : List (Src × Post)) (f : List Post) :
    OnlyTold s (s.modHalf x fun y => { y with queue := q, fwd := f }) := by
  refine ⟨by simp, by simp, by simp, by simp, fun k => ?_, fun k => ?_⟩ <;>
    rcases Half.eq_or_other x k with rfl | rfl <;> simp

theorem onlyTold_noteState (s : State) : OnlyTold s s.noteState := by
  rcases noteState_eq s with e | ⟨x, -, q, f, e⟩
  · rw [e]
    exact ⟨rfl, rfl, rfl, rfl, fun _ => rfl, fun _ => rfl⟩
  · rw [e]
    exact (onlyTold_lastState s _).trans (onlyTold_posted _ x q f)

theorem onlyTold_postLog (s : State) (x : Half) : OnlyTold s (s.postLog x) := by
  have posts : ∀ (l : List LogEntry) (t : State), OnlyTold s t →
      OnlyTold s (l.foldl (fun t e => t.post x .alarm 0x0C01 e.payload) t) := by
    intro l
    induction l with
    | nil => exact fun _ told => told
    | cons e l ih =>
      intro t told
      obtain ⟨q, f, posted⟩ := postEv_eq t x .alarm (mkEv t x 0x0C01 e.payload .pf)
      have told' := onlyTold_posted t x q f
      rw [← posted] at told'
      exact ih _ (told.trans told')
  exact posts _ s ⟨rfl, rfl, rfl, rfl, fun _ => rfl, fun _ => rfl⟩

/-- The end of every TAMPER_ALARM: the alert, and the log posted by the half that holds the helm (R455, R465). -/
def State.announced (s : State) : State :=
  match s.holder with
  | some x => s.alerted.postLog x
  | none => s.alerted

theorem announced_of_no_holder {s : State} (h : s.holder = none) : s.announced = s.alerted := by
  rw [State.announced, h]

theorem announced_of_holder {s : State} {x : Half} (h : s.holder = some x) : s.announced = s.alerted.postLog x := by
  rw [State.announced, h]

theorem onlyTold_announced (s : State) : OnlyTold s s.announced := by
  cases h : s.holder with
  | none => exact announced_of_no_holder h ▸ onlyTold_alerted s
  | some x => exact announced_of_holder h ▸ (onlyTold_alerted s).trans (onlyTold_postLog _ x)

/-- Halted halves hold no helm. -/
theorem holder_of_halted {s : State} (h : ∀ k, (s.half k).helm.st = .halted) : s.holder = none := by
  cases e : s.holder with
  | none => rfl
  | some x =>
    have active := holder_active e
    rw [State.isActive, h x] at active
    cases active

/-- A log whose one entry waits, and of which nothing is on its way, is posted as that TAMPER_ALARM. -/
theorem postLog_one {s : State} {x : Half} {e : LogEntry} (active : s.isActive x = true) (log : s.tam.log = [e])
    (new : e.posted = false) (queue : (s.half x).queue = []) (fns : (s.img x).fns = [])
    (unsent : (s.half x).unsent = []) (kept : (s.half x).kept = []) :
    s.postLog x = s.setHalf x { s.half x with queue := [(.alarm, .ev (mkEv s x 0x0C01 e.payload .pf))] } := by
  have posting : (s.half x).helm.st = .activePaired ∨ (s.half x).helm.st = .activeSolo := by
    rw [State.isActive] at active
    cases st : (s.half x).helm.st <;> simp [st, HelmSt.active] at active ⊢
  have idle : (s.half x).alarmUnderWay e.serial = false := by
    have held : ((s.half x).img.fnSt 0).held = [] := by
      rw [Image.fnSt, show (s.half x).img.fns = [] from fns]
      rfl
    simp [HState.alarmUnderWay, queue, held, unsent, kept]
  have unposted : s.unpostedLog x = [e] := by simp [State.unpostedLog, log, new, idle]
  rw [State.postLog, unposted, HState.waitingAt, queue]
  show s.post x .alarm 0x0C01 e.payload .pf = _
  rw [post_active _ _ _ _ posting, State.modHalf, queue]
  rfl

/-! ## What an alarm enters -/

/-- An alarm enters a log that has room under the next serial (R465). -/
theorem logAlarm_of_room {t : Tamper} {src resp sec : Nat} (room : t.log.length < 64) :
    t.logAlarm src resp sec = { t with
      log := t.log ++ [{ serial := t.nextSerial, src, resp, onCell := t.onCell, seconds := sec, missed := t.unlogged,
                         posted := false }],
      nextSerial := (t.nextSerial + 1) % 2 ^ 32, unlogged := 0 } := by
  simp only [Tamper.logAlarm, if_pos room]

/-- Logging an alarm changes the log, the next serial and the count of what was not logged. -/
theorem logAlarm_eq (t : Tamper) (src resp sec : Nat) :
    ∃ l n u, t.logAlarm src resp sec = { t with log := l, nextSerial := n, unlogged := u } := by
  by_cases room : t.log.length < 64
  · exact ⟨_, _, _, logAlarm_of_room room⟩
  · simp only [Tamper.logAlarm, if_neg room]
    split
    · split
      · exact ⟨_, _, _, rfl⟩
      · exact ⟨_, _, _, rfl⟩
    · exact ⟨_, _, _, rfl⟩

/-- Those of the named sources that enter alarm: watched, and not in alarm already (R461). -/
def entering (t : Tamper) (srcs : List Nat) : List Nat :=
  (List.range 21).filter fun i => srcs.contains i && t.watches i && !t.inAlarm.contains i

theorem entering_one {t : Tamper} {src : Nat} (lt : src < 21) (w : t.watches src = true) (out : src ∉ t.inAlarm) :
    entering t [src] = [src] := by
  have once : (List.range 21).filter (fun i => decide (i = src)) = [src] := by
    rw [List.filter_eq, List.count_range, if_pos lt, List.replicate_one]
  refine Eq.trans ?_ once
  refine List.filter_congr fun i _ => ?_
  by_cases e : i = src
  · subst e
    simp [w, out]
  · simp [e]

theorem entering_nothing {t : Tamper} {src : Nat} (h : src ∈ t.inAlarm ∨ t.watches src = false) :
    entering t [src] = [] := by
  refine List.filter_eq_nil_iff.2 fun i _ => ?_
  by_cases e : i = src
  · rcases h with inAlarm | unwatched
    · simp [e, inAlarm]
    · simp [e, unwatched]
  · simp [e]

/-- The responses carried out for the alarms raised together. -/
def State.answers (s : State) (alarms : List Nat) : List (Nat × Nat) := alarms.map fun i => (i, s.responses alarms i)

/-- The sources have entered alarm; those that raise one are latched and logged with their responses (R455, R465). -/
def State.raised (s : State) (enter alarms : List Nat) : State :=
  s.modTam fun t => (s.answers alarms).foldl (fun t r => t.logAlarm r.1 r.2 s.cellSeconds)
    { t with inAlarm := t.inAlarm ++ enter, latched := t.latched ++ alarms }

theorem raised_tam (s : State) (enter alarms : List Nat) : ∃ l n u, (s.raised enter alarms).tam =
    { s.tam with inAlarm := s.tam.inAlarm ++ enter, latched := s.tam.latched ++ alarms, log := l, nextSerial := n,
                 unlogged := u } := by
  have logs : ∀ (l : List (Nat × Nat)) (t : Tamper), ∃ k n u,
      l.foldl (fun t r => t.logAlarm r.1 r.2 s.cellSeconds) t =
        { t with log := k, nextSerial := n, unlogged := u } := by
    intro l
    induction l with
    | nil => exact fun t => ⟨t.log, t.nextSerial, t.unlogged, rfl⟩
    | cons r l ih =>
      intro t
      obtain ⟨k, n, u, e⟩ := logAlarm_eq t r.1 r.2 s.cellSeconds
      obtain ⟨k', n', u', e'⟩ := ih (t.logAlarm r.1 r.2 s.cellSeconds)
      exact ⟨k', n', u', by rw [List.foldl_cons, e', e]⟩
  exact logs _ _

/-- One alarm, with room in the log: the tamper controller alone changes. -/
theorem raised_one {s : State} {src resp : Nat} {e : LogEntry} (room : s.tam.log.length < 64)
    (entry : e = { serial := s.tam.nextSerial, src, resp, onCell := s.tam.onCell, seconds := s.cellSeconds,
                   missed := s.tam.unlogged, posted := false })
    (answer : s.responses [src] src = resp) : s.raised [src] [src] = { s with tam :=
      { s.tam with inAlarm := s.tam.inAlarm ++ [src], latched := s.tam.latched ++ [src], log := s.tam.log ++ [e],
                   nextSerial := (s.tam.nextSerial + 1) % 2 ^ 32, unlogged := 0 } } := by
  subst answer entry
  refine congrArg (fun t => { s with tam := t }) ?_
  exact logAlarm_of_room (t := { s.tam with inAlarm := s.tam.inAlarm ++ [src], latched := s.tam.latched ++ [src] }) room

/-! ## What answers an alarm -/

/-- On the cell every alarm erases (R470). -/
theorem responses_on_cell {s : State} (cell : s.tam.onCell = true) (alarms : List Nat) (src : Nat) :
    s.responses alarms src = 5 := by
  simp [State.responses, cell]

/-- Those of the alarms that are carried out as erasures. -/
def State.erasing (s : State) (alarms : List Nat) : List Nat :=
  ((s.answers alarms).filter fun r => decide (4 ≤ r.2)).map (·.1)

theorem erasing_of_all {s : State} {alarms : List Nat} (erases : ∀ i ∈ alarms, s.responses alarms i = 5) :
    s.erasing alarms = alarms := by
  rw [State.erasing, List.filter_eq_self.2, State.answers, List.map_map]
  · exact List.map_id _
  · intro r hr
    obtain ⟨i, hi, rfl⟩ := List.mem_map.1 hr
    simp [erases i hi]

theorem erasing_of_none {s : State} {alarms : List Nat} (spares : ∀ i ∈ alarms, s.responses alarms i < 4) :
    s.erasing alarms = [] := by
  rw [State.erasing, List.filter_eq_nil_iff.2]
  · rfl
  · intro r hr
    obtain ⟨i, hi, rfl⟩ := List.mem_map.1 hr
    simpa using spares i hi

/-- Halves enter HALTED_HALF one after the other, with cause 3 where BUS is among the alarms, else 4 (R457). -/
def State.haltEach (s : State) (alarms : List Nat) (hs : List Half) : State :=
  hs.foldl (fun s h => s.haltHalf h (if alarms.contains (18 + h.idx) then 3 else 4) 0) s

theorem exec_tamperAlarm_nothing {s : State} {srcs : List Nat} (units : ∀ i ∈ srcs, i < 21)
    (nobody : entering s.tam srcs = []) : exec (.tamperAlarm srcs) s = .next s := by
  have ok : (srcs.all fun i => decide (i < 21)) = true := by simpa using units
  show onUnit _ (if (entering s.tam srcs).isEmpty then s else _) = _
  rw [ok, nobody]
  rfl

/-- TAMPER_ALARM of sources of which some enter alarm: an erasure where one is decided, else, on mains, the halts. -/
theorem exec_tamperAlarm {s : State} {srcs enter alarms : List Nat} (units : ∀ i ∈ srcs, i < 21)
    (ent : entering s.tam srcs = enter) (someone : enter ≠ [])
    (raise : (enter.filter fun i => !s.tam.latched.contains i) = alarms) :
    exec (.tamperAlarm srcs) s = .next (State.announced
      (if !(s.erasing alarms).isEmpty then (s.raised enter alarms).erase (s.erasing alarms)
       else if s.tam.onCell then s.raised enter alarms
       else (s.raised enter alarms).haltEach alarms (s.halts alarms))) := by
  have ok : (srcs.all fun i => decide (i < 21)) = true := by simpa using units
  subst raise ent
  show onUnit _ (if (entering s.tam srcs).isEmpty then s else _) = _
  rw [ok, if_neg (by simpa using someone)]
  rfl

/-- Every alarm is an erasure: E is erased once, for all of them (R466). -/
theorem exec_tamperAlarm_erases {s : State} {srcs enter alarms : List Nat} (units : ∀ i ∈ srcs, i < 21)
    (ent : entering s.tam srcs = enter) (raise : (enter.filter fun i => !s.tam.latched.contains i) = alarms)
    (raised : alarms ≠ []) (erases : ∀ i ∈ alarms, s.responses alarms i = 5) :
    exec (.tamperAlarm srcs) s = .next ((s.raised enter alarms).erase alarms).announced := by
  have someone : enter ≠ [] := fun e => raised (by rw [← raise, e]; rfl)
  rw [exec_tamperAlarm units ent someone raise, erasing_of_all erases, if_pos (by simpa using raised)]

/-- No alarm is an erasure: each half that an alarm halts enters HALTED_HALF. -/
theorem exec_tamperAlarm_spares {s : State} {srcs enter alarms : List Nat} (units : ∀ i ∈ srcs, i < 21)
    (ent : entering s.tam srcs = enter) (someone : enter ≠ [])
    (raise : (enter.filter fun i => !s.tam.latched.contains i) = alarms)
    (spares : ∀ i ∈ alarms, s.responses alarms i < 4) :
    exec (.tamperAlarm srcs) s = .next ((s.raised enter alarms).haltEach alarms (s.halts alarms)).announced := by
  have onCell : s.tam.onCell = true → alarms = [] := fun cell => List.eq_nil_iff_forall_not_mem.2 fun i hi =>
    absurd (spares i hi) (by rw [responses_on_cell cell]; decide)
  rw [exec_tamperAlarm units ent someone raise, erasing_of_none spares, if_neg (by simp)]
  split
  · rw [onCell ‹_›]
    rfl
  · rfl

/-! ## The responses -/

theorem bits_eq_b2n_bit (w : Word) (i : Nat) : bits w i i = b2n (bit w i) := by
  have lt := bits_lt w i i
  rw [Nat.add_sub_cancel_left] at lt
  by_cases one : bits w i i = 1
  · simp [bit, one, b2n]
  · have zero : bits w i i = 0 := by omega
    simp [bit, zero, b2n]

theorem srcHalf_of_lt {src : Nat} (lt : src < 16) : srcHalf src = none := by
  rw [srcHalf, if_neg (by omega), if_neg (by omega)]

theorem srcHalf_of_half {src : Nat} {x : Half} (h : src = 16 + x.idx ∨ src = 18 + x.idx) : srcHalf src = some x := by
  cases x <;> rcases h with rfl | rfl <;> rfl

/-- An alarm of a source that names no half is reported, and erases where its map says so. -/
theorem responses_of_low {s : State} {alarms : List Nat} {src : Nat} (mains : s.tam.onCell = false) (low : src < 16) :
    s.responses alarms src = if bit (s.tmpMap src) 2 then 5 else 1 := by
  cases e : bit (s.tmpMap src) 2 <;> simp [State.responses, mains, srcHalf_of_lt low, bits_eq_b2n_bit, e, b2n]

theorem halts_eq_nil {s : State} {src : Nat} (h : srcHalf src = none) : s.halts [src] = [] := by
  simp [State.halts, h]

/-- A source halts its half: its map says so, or it is a BUS source. -/
def State.haltsBy (s : State) (src : Nat) : Bool := bit (s.tmpMap src) 1 || decide (src = 18 ∨ src = 19)

theorem halts_eq_singleton {s : State} {src : Nat} {x : Half} (h : srcHalf src = some x) (by_ : s.haltsBy src = true) :
    s.halts [src] = [x] := by
  rw [State.haltsBy] at by_
  simp only [State.halts, List.filterMap_cons, List.filterMap_nil, by_, if_true, h]

/-- An alarm that halts its half is an erasure where that would leave no half running (R467). -/
theorem responses_of_half {s : State} {alarms : List Nat} {src : Nat} {x : Half} (mains : s.tam.onCell = false)
    (mem : src ∈ alarms) (h : srcHalf src = some x) (by_ : s.haltsBy src = true) : s.responses alarms src =
      if s.leavesNone (s.halts alarms) x then 5 else if bit (s.tmpMap src) 2 then 7 else 3 := by
  rw [State.haltsBy] at by_
  have named : (s.halts alarms).contains x = true := by
    rw [List.contains_iff_mem]
    exact List.mem_filterMap.2 ⟨src, mem, by rw [if_pos by_, h]⟩
  simp only [State.responses, mains, h, Option.filter_some, named, by_, Bool.and_self, if_true, Bool.false_eq_true,
    if_false, bits_eq_b2n_bit]
  cases bit (s.tmpMap src) 2 <;> rfl

/-! ## Halts and erasures -/

/-- A running half enters HALTED_HALF: its claim ends and HALT goes out (R40). -/
theorem haltHalf_running {s : State} {x : Half} {cause fifo : Nat} (phase : s.phase ≠ .cold)
    (running : (s.half x).haltCause = 0) :
    ∃ h : HState, h.helm.st = .halted ∧ h.helm.claim = false ∧ h.haltCause = cause ∧
      OnlyTold ((s.setHalf x h).emit (.halt x)) (s.haltHalf x cause fifo) := by
  rw [(haltHalf_cases s x cause fifo).2 phase running]
  exact ⟨_, rfl, rfl, rfl, onlyTold_noteState _⟩

/-- What the halt of a running half, once announced, changes and leaves. -/
theorem haltHalf_announced {s u : State} {x : Half} {cause fifo : Nat} (phase : s.phase ≠ .cold)
    (running : (s.half x).haltCause = 0) (hu : u = (s.haltHalf x cause fifo).announced) :
    u.tam = s.tam ∧ (u.half x).helm.st = .halted ∧ (u.half x).helm.claim = false ∧ (u.half x).haltCause = cause ∧
    u.out = s.out ++ [.halt x] ∧ (u.half x.other).helm = (s.half x.other).helm ∧ u.flash = s.flash := by
  obtain ⟨h, st, claim, halted, halts⟩ := haltHalf_running (cause := cause) (fifo := fifo) phase running
  have told := hu ▸ halts.trans (onlyTold_announced _)
  simp [told.tam, told.helm, told.haltCause, told.out, told.flash, st, claim, halted]

@[simp] theorem afterReset_helm (x : HState) : x.afterReset.helm = {} := by
  unfold HState.afterReset
  split <;> rfl

/-- The next run, as an erasure of E on mains leaves it: one step of evidence is burned, the run ended with cause 3,
both halves are reset and the alert is told (R463, R468). -/
def State.runErased (s : State) (srcs : List Nat) (key : Nat) : State :=
  { s with
    tam := { s.tam with
      seed := false, evidence := max s.tam.evidence (min 127 (s.tam.evidence + 1)),
      saturated := s.tam.saturated || decide (126 < s.tam.evidence), erasedAt := some s.now,
      erasedMask := srcMask srcs, endCause := 3 },
    a := hashed s.a.afterReset key, b := hashed s.b.afterReset key, phase := .booting, lastState := 1, fv := s.fv + 1,
    flash := { s.flash with recs := [], compacting := false }, board := { s.board with alert := true } }

/-- The first erasure on mains burns the next step of evidence and ends the run with cause 3 (R463, R468). -/
theorem erase_on_mains {s : State} {srcs : List Nat} (mains : s.tam.onCell = false) (first : s.tam.erasedAt = none) :
    s.erase srcs = State.endRun { s with
      tam := { Tamper.burn { s.tam with seed := false, erasedMask := srcMask srcs } s.tam.nextTarget with
        erasedAt := some s.now, pend := none } } 3 := by
  simp only [State.erase, first, Option.any_none, mains, Bool.false_eq_true, if_false]
  rfl

/-- The first erasure on mains ends the run; its halves are reset, so nobody is left to post the alarm. -/
theorem erase_announced_on_mains {s : State} (srcs : List Nat) (mains : s.tam.onCell = false)
    (first : s.tam.erasedAt = none) (pend : s.tam.pend = none) (phase : s.phase ≠ .cold) :
    ∃ key, (s.erase srcs).announced = s.runErased srcs key := by
  have past : decide (127 < s.tam.evidence + 1) = decide (126 < s.tam.evidence) := decide_eq_decide.2 (by omega)
  refine ⟨Config.freeNat s.fv, ?_⟩
  rw [erase_on_mains mains first, endRun_eq _ _ (by exact phase),
    announced_of_no_holder (holder_of_halted fun k => by cases k <;> simp [State.half, State.drawHash])]
  simp only [State.runErased, Tamper.burn, Tamper.nextTarget, pend, Nat.max_zero, past]
  rfl

/-- A decision on mains within 5 µs of an erasure joins it (R466). -/
theorem erase_joining {s : State} {srcs : List Nat} {t0 : Nat} (mains : s.tam.onCell = false)
    (at_ : s.tam.erasedAt = some t0) (soon : s.now < t0 + 5000) :
    s.erase srcs = { s with tam := { s.tam with seed := false, erasedMask := s.tam.erasedMask ||| srcMask srcs } } := by
  simp [State.erase, at_, soon, mains]

/-- The first erasure on the cell enters the pending record (R469, R470). -/
theorem erase_on_cell {s : State} {srcs : List Nat} (cell : s.tam.onCell = true) (first : s.tam.erasedAt = none)
    (pend : s.tam.pend = none) : s.erase srcs = { s with tam := { s.tam with
      seed := false, erasedMask := srcMask srcs, erasedAt := some s.now,
      pend := some { target := s.tam.evidence + 1, mask := srcMask srcs, seconds := s.cellSeconds } } } := by
  simp [State.erase, Tamper.nextTarget, cell, first, pend]

@[simp] theorem srcMask_one (src : Nat) : srcMask [src] = 2 ^ src := by simp [srcMask]

/-! ## One source that raises an alarm -/

theorem watches_on_mains {t : Tamper} {src : Nat} (mains : t.onCell = false) (lt : src < 20) :
    t.watches src = true := by
  simp [Tamper.watches, mains, lt]

theorem watches_on_cell {t : Tamper} {src : Nat} (cell : t.onCell = true) (h : src < 16 ∨ src = 20) :
    t.watches src = true := by
  simp [Tamper.watches, cell, h]

/-- The source enters alarm and raises one: it is watched, not in alarm and not latched (R461). -/
structure Raises (t : Tamper) (src : Nat) : Prop where
  lt : src < 21
  watched : t.watches src = true
  out : src ∉ t.inAlarm
  unlatched : src ∉ t.latched

section
variable {s : State} {src : Nat} {x : Half}

theorem Raises.raise (h : Raises s.tam src) : ([src].filter fun i => !s.tam.latched.contains i) = [src] := by
  simp [h.unlatched]

theorem exec_tamperAlarm_erased (h : Raises s.tam src) (answer : s.responses [src] src = 5) :
    exec (.tamperAlarm [src]) s = .next ((s.raised [src] [src]).erase [src]).announced :=
  exec_tamperAlarm_erases (by simpa using h.lt) (entering_one h.lt h.watched h.out) h.raise (List.cons_ne_nil _ _)
    (by simpa using answer)

theorem exec_tamperAlarm_erased_on_mains {t' : Tamper} (h : Raises s.tam src) (answer : s.responses [src] src = 5)
    (raised : s.raised [src] [src] = { s with tam := t' }) (mains : t'.onCell = false) (first : t'.erasedAt = none)
    (pend : t'.pend = none) (phase : s.phase ≠ .cold) :
    ∃ key, exec (.tamperAlarm [src]) s = .next (State.runErased { s with tam := t' } [src] key) := by
  obtain ⟨key, erased⟩ := erase_announced_on_mains (s := { s with tam := t' }) [src] mains first pend phase
  exact ⟨key, by rw [exec_tamperAlarm_erased h answer, raised, erased]⟩

theorem exec_tamperAlarm_spared (h : Raises s.tam src) (answer : s.responses [src] src < 4) :
    exec (.tamperAlarm [src]) s = .next ((s.raised [src] [src]).haltEach [src] (s.halts [src])).announced :=
  exec_tamperAlarm_spares (by simpa using h.lt) (entering_one h.lt h.watched h.out) (List.cons_ne_nil _ _) h.raise
    (by simpa using answer)

theorem exec_tamperAlarm_reported (h : Raises s.tam src) (nobody : srcHalf src = none)
    (answer : s.responses [src] src = 1) :
    exec (.tamperAlarm [src]) s = .next (s.raised [src] [src]).announced := by
  rw [exec_tamperAlarm_spared h (by omega), halts_eq_nil nobody]
  rfl

theorem haltsBy_of_half (named : src = 16 + x.idx ∨ src = 18 + x.idx)
    (halts : bit (s.tmpMap src) 1 = true ∨ 18 ≤ src) : s.haltsBy src = true := by
  rw [State.haltsBy, Bool.or_eq_true, decide_eq_true_iff]
  refine halts.imp_right fun bus => ?_
  cases x <;> simp only [Half.idx] at named <;> omega

theorem raises_of_low (mains : s.tam.onCell = false) (low : src < 16) (out : src ∉ s.tam.inAlarm)
    (unlatched : src ∉ s.tam.latched) : Raises s.tam src :=
  ⟨by omega, watches_on_mains mains (by omega), out, unlatched⟩

theorem raises_of_half (mains : s.tam.onCell = false) (named : src = 16 + x.idx ∨ src = 18 + x.idx)
    (out : src ∉ s.tam.inAlarm) (unlatched : src ∉ s.tam.latched) : Raises s.tam src := by
  have lt : src < 20 := by cases x <;> simp only [Half.idx] at named <;> omega
  exact ⟨by omega, watches_on_mains mains lt, out, unlatched⟩

theorem exec_tamperAlarm_halted (h : Raises s.tam src) (named : src = 16 + x.idx ∨ src = 18 + x.idx)
    (by_ : s.haltsBy src = true) (answer : s.responses [src] src = 3) : exec (.tamperAlarm [src]) s =
      .next ((s.raised [src] [src]).haltHalf x (if src < 18 then 4 else 3) 0).announced := by
  have cause : (if [src].contains (18 + x.idx) then 3 else 4) = if src < 18 then 4 else 3 := by
    cases x <;> rcases named with rfl | rfl <;> rfl
  rw [exec_tamperAlarm_spared h (by omega), halts_eq_singleton (srcHalf_of_half named) by_, State.haltEach,
    List.foldl_cons, List.foldl_nil, cause]
end

/-! ## A source that leaves alarm -/

/-- Only the two temperature sources are held in alarm, each by a sensor within 5 °C of its limit (R461). -/
theorem mayLeave_iff (src : Nat) (t0 t1 : Int) : mayLeave src t0 t1 = true ↔
    ¬(src = 12 ∧ (t0 < -400 ∨ t1 < -400)) ∧ ¬(src = 13 ∧ (1440 < t0 ∨ 1440 < t1)) := by
  unfold mayLeave
  split
  · rw [decide_eq_true_iff]
    omega
  · split
    · rw [decide_eq_true_iff]
      omega
    · simp [*]

theorem exec_sourceLeavesAlarm {s : State} {v : SourceEnd} (lt : v.src < 21) : exec (.sourceLeavesAlarm v) s = .next
    (if mayLeave v.src v.sensor0 v.sensor1 then { s with tam :=
      { s.tam with temp0 := v.sensor0, temp1 := v.sensor1, inAlarm := s.tam.inAlarm.filter (· ≠ v.src) } }
    else { s with tam := { s.tam with temp0 := v.sensor0, temp1 := v.sensor1 } }) := by
  show onUnit (decide (v.src < 21)) _ = _
  rw [decide_eq_true lt]
  rfl

/-! ## The statement -/

theorem alarmsAreLatchedLoggedAndAnswered : AlarmsAreLatchedLoggedAndAnswered := by
  rintro src resp e t s lt rfl out unlatched room pend first entry t' ht
  have raised : s.responses [src] src = resp → s.raised [src] [src] = { s with tam := t' } := fun answer =>
    by rw [ht, raised_one room entry answer]
  have first' : t'.erasedAt = none := ht ▸ first
  have pend' : t'.pend = none := ht ▸ pend
  have cell' : t'.onCell = s.tam.onCell := ht ▸ rfl
  refine ⟨fun mains low keeps hr => ?reported, fun mains low erases hr phase => ?erased,
    fun x mains named halts phase => ⟨fun keeps hr running others => ?halted, fun hr alone => ?leavesNone⟩,
    fun cell watched hr idle => ?onCell⟩
  case reported =>
    have raises : Raises s.tam src := raises_of_low mains low out unlatched
    have answer : s.responses [src] src = resp := by
      rw [responses_of_low mains low, keeps, hr]
      rfl
    rw [exec_tamperAlarm_reported raises (srcHalf_of_lt low) (answer.trans hr), raised answer]
    refine ⟨fun idle => by rw [announced_of_no_holder (by exact idle)]; rfl,
      fun x holds log queue fns unsent kept => ?_⟩
    have logged : t'.log = [e] := by rw [ht, log]; rfl
    rw [announced_of_holder (by exact holds), postLog_one (by exact holder_active holds) (by exact logged)
      (by rw [entry]) (by exact queue) (by exact fns) (by exact unsent) (by exact kept)]
    subst entry hr
    exact ⟨_, _, rfl, rfl, rfl, by rw [mkEv, LogEntry.payload, mains]; rfl⟩
  case erased =>
    have raises : Raises s.tam src := raises_of_low mains low out unlatched
    have answer : s.responses [src] src = 5 := by rw [responses_of_low mains low, if_pos erases]
    obtain ⟨key, erased⟩ := exec_tamperAlarm_erased_on_mains raises answer (raised (answer.trans hr.symm))
      (cell'.trans mains) first' pend' phase
    rw [erased, State.runErased, srcMask_one]
    subst ht
    exact ⟨_, key, rfl, rfl, rfl, rfl, rfl, rfl, rfl, rfl⟩
  case halted =>
    have raises : Raises s.tam src := raises_of_half mains named out unlatched
    have by_ : s.haltsBy src = true := haltsBy_of_half named halts
    have answer : s.responses [src] src = resp := by
      rw [responses_of_half mains (List.mem_singleton_self src) (srcHalf_of_half named) by_,
        halts_eq_singleton (srcHalf_of_half named) by_, keeps, hr]
      simp [State.leavesNone, others]
    have same : ∀ k, ({ s with tam := t' } : State).half k = s.half k := fun k => by cases k <;> rfl
    have changes := haltHalf_announced (s := { s with tam := t' }) (cause := if src < 18 then 4 else 3) (fifo := 0) phase
      (by rw [same, running]) rfl
    rw [same] at changes
    rw [exec_tamperAlarm_halted raises named by_ (answer.trans hr), raised answer]
    exact ⟨_, rfl, changes⟩
  case leavesNone =>
    have raises : Raises s.tam src := raises_of_half mains named out unlatched
    have answer : s.responses [src] src = 5 := by
      rw [responses_of_half mains (List.mem_singleton_self src) (srcHalf_of_half named) (haltsBy_of_half named halts),
        if_pos (by simp [State.leavesNone, alone])]
    obtain ⟨key, erased⟩ := exec_tamperAlarm_erased_on_mains raises answer (raised (answer.trans hr.symm))
      (cell'.trans mains) first' pend' phase
    rw [erased]
    subst ht
    exact ⟨_, rfl, rfl, rfl, rfl, rfl, rfl⟩
  case onCell =>
    have raises : Raises s.tam src := ⟨lt, watches_on_cell cell watched, out, unlatched⟩
    have answer : s.responses [src] src = resp := (responses_on_cell cell _ _).trans hr.symm
    rw [exec_tamperAlarm_erased raises (answer.trans hr), raised answer,
      erase_on_cell (s := { s with tam := t' }) (cell'.trans cell) first' pend', announced_of_no_holder (by exact idle),
      srcMask_one]
    subst ht
    rfl

theorem twoHaltsAtOnceErase : TwoHaltsAtOnceErase := by
  rintro t s rfl mains quiet unlatched log pend first phase map16 map17
  have ent : entering s.tam [16, 17] = [16, 17] := by
    simp only [entering, Tamper.watches, mains, quiet]
    decide
  have raise : ([16, 17].filter fun i => !s.tam.latched.contains i) = [16, 17] := by simp [unlatched]
  have halts : s.halts [16, 17] = [.A, .B] := by simp [State.halts, map16, map17, srcHalf]
  have both : ∀ i ∈ [16, 17], s.responses [16, 17] i = 5 := by
    have by16 : s.haltsBy 16 = true := by simp [State.haltsBy, map16]
    have by17 : s.haltsBy 17 = true := by simp [State.haltsBy, map17]
    intro i hi
    have named : i = 16 ∨ i = 17 := by
      simpa only [List.mem_cons, List.not_mem_nil, or_false] using hi
    rcases named with rfl | rfl
    · rw [responses_of_half (x := .A) mains hi rfl by16, halts]
      simp [State.leavesNone, Half.other]
    · rw [responses_of_half (x := .B) mains hi rfl by17, halts]
      simp [State.leavesNone, Half.other]
  obtain ⟨l, n, u, tam⟩ := raised_tam s [16, 17] [16, 17]
  obtain ⟨key, erased⟩ := erase_announced_on_mains (s := s.raised [16, 17] [16, 17]) [16, 17]
    (by rw [tam]; exact mains) (by rw [tam]; exact first) (by rw [tam]; exact pend) phase
  rw [exec_tamperAlarm_erases (by simp) ent raise (List.cons_ne_nil _ _) both, erased]
  refine ⟨_, rfl, ?_, rfl, by simp only [State.runErased, tam], rfl, rfl, key, rfl, rfl⟩
  have answers : s.answers [16, 17] = [(16, 5), (17, 5)] := by
    rw [State.answers, List.map_cons, List.map_cons, both 16 (by simp), both 17 (by simp)]
    rfl
  show (s.raised [16, 17] [16, 17]).tam.log.map _ = _
  simp [State.raised, answers, logAlarm_of_room, log]

theorem latchesHoldAlarmsBack : LatchesHoldAlarmsBack := by
  rintro src t s lt rfl
  refine ⟨fun h => exec_tamperAlarm_nothing (by simpa using lt) (entering_nothing h),
    fun out latched watched idle => ?_, fun t0 low mains out unlatched erases at_ soon idle => ?_, rfl,
    fun t0 t1 => ⟨fun cold hot => ?_, fun limit => ?_⟩⟩
  · have nothing : ([src].filter fun i => !s.tam.latched.contains i) = [] := by simp [latched]
    rw [exec_tamperAlarm_spares (by simpa using lt) (entering_one lt watched out) (List.cons_ne_nil _ _) nothing
      (by simp), announced_of_no_holder (by exact idle)]
    simp [State.raised, State.answers, State.halts, State.haltEach, State.modTam, State.alerted, State.modBoard]
  · have raises : Raises s.tam src := raises_of_low mains low out unlatched
    have answer : s.responses [src] src = 5 := by
      rw [responses_of_low mains low, if_pos erases]
    obtain ⟨l, n, u, tam⟩ := raised_tam s [src] [src]
    rw [exec_tamperAlarm_erased raises answer, erase_joining (s := s.raised [src] [src]) (t0 := t0)
      (by rw [tam]; exact mains) (by rw [tam]; exact at_) soon, announced_of_no_holder (by exact idle)]
    refine ⟨_, rfl, ?_, rfl, ?_, ?_, rfl, rfl, rfl, rfl⟩
    all_goals simp [State.alerted, tam]
  · rw [exec_sourceLeavesAlarm lt, if_pos ((mayLeave_iff ..).2 ⟨cold, hot⟩)]
  · rw [exec_sourceLeavesAlarm lt, if_neg fun may => ?_]
    obtain ⟨cold, hot⟩ := (mayLeave_iff ..).1 may
    exact limit.elim cold hot

/-- Settles O54: what answers an alarm follows from which sources enter alarm, which of them are latched and what their
maps say; a halt that would leave no half running, and every alarm on the cell, is an erasure. -/
theorem alarmsAreLatchedAndAnswered : Obligations.AlarmsAreLatchedAndAnswered :=
  ⟨alarmsAreLatchedLoggedAndAnswered, twoHaltsAtOnceErase, latchesHoldAlarmsBack⟩

end Sys2Proof.Machine
end

section
/-! SUPPORT. Programmable counters: where their registers stand, what a write to one does, what a read of the counter
window answers, and an increment past 2^48 − 1 (R504–R513, R519). -/

namespace Sys2Proof.Machine

open Sys2Proof Sys2Proof.Claims

/-! ## Where the registers of the counters stand -/

/-- The first offset above the registers of a specification. -/
def RegSpec.stop (r : RegSpec) : Nat := r.base + r.stride * (r.count - 1) + r.stride2 * r.count2

theorem lt_stop_of_covers {r : RegSpec} {off : Nat} (pos : 0 < r.stride2) (h : r.covers off = true) : off < r.stop := by
  simp only [RegSpec.covers, Bool.and_eq_true, decide_eq_true_eq] at h
  obtain ⟨⟨⟨base, row⟩, -⟩, column⟩ := h
  have split := Nat.div_add_mod (off - r.base) r.stride
  have rows : r.stride * ((off - r.base) / r.stride) ≤ r.stride * (r.count - 1) :=
    Nat.mul_le_mul_left _ (by omega)
  have columns := Nat.lt_mul_of_div_lt column pos
  rw [RegSpec.stop, Nat.mul_comm r.stride2]
  omega

/-- `CNT_CFG[i]` (17). -/
def cntCfgSpec : RegSpec :=
  { base := 0x1000000, home := .half, own := true, count := 256, stride := 0x10,
    flds := [fullF 31 31 0, fullF 30 30 0, rangeF 29 28 0 0 2, fullF 27 24 0, fullF 23 16 0, fullF 9 0 0] }

/-- `CNT_THRESH[i]` (17). -/
def cntThreshSpec : RegSpec :=
  { base := 0x1000004, home := .half, own := true, count := 256, stride := 0x10, flds := [fullF 17 0 0] }

/-- The specifications before those of the counters in the register map. -/
def regsBeforeCnt : List RegSpec :=
  regsGlbHif ++ (regsLne ++ (regsCwy ++ (regsPkt ++ (regsKey ++ (regsTim ++ regsHlm.take 4)))))

theorem regMap_eq_counters :
    regMap = regsBeforeCnt ++ cntCfgSpec :: cntThreshSpec :: regsHlm.drop 6 := by
  simp only [regMap, regsBeforeCnt, List.append_assoc]
  rfl

theorem regsBeforeCnt_stop : ∀ r ∈ regsBeforeCnt, 0 < r.stride2 ∧ r.stop ≤ 0x1000000 := by decide

theorem regsBeforeCnt_not_covers {r : RegSpec} {off : Nat} (hr : r ∈ regsBeforeCnt) (h : 0x1000000 ≤ off) :
    r.covers off = false :=
  Bool.eq_false_iff.2 fun c => by
    obtain ⟨pos, le⟩ := regsBeforeCnt_stop r hr
    exact absurd (lt_stop_of_covers pos c) (by omega)

theorem regSpecOf_cntCfg {i : Nat} (h : i < 256) : regSpecOf (0x1000000 + 0x10 * i) = some cntCfgSpec := by
  have own : cntCfgSpec.covers (0x1000000 + 0x10 * i) = true := by simp [RegSpec.covers, cntCfgSpec, h]
  rw [regSpecOf, regMap_eq_counters, List.find?_eq_some_iff_append]
  exact ⟨own, regsBeforeCnt, _, rfl, fun r hr => by rw [regsBeforeCnt_not_covers hr (by omega)]; rfl⟩

theorem regSpecOf_cntThresh {i : Nat} (h : i < 256) : regSpecOf (0x1000004 + 0x10 * i) = some cntThreshSpec := by
  have own : cntThreshSpec.covers (0x1000004 + 0x10 * i) = true := by simp [RegSpec.covers, cntThreshSpec, h]
  have other : cntCfgSpec.covers (0x1000004 + 0x10 * i) = false := by
    have column : (0x1000004 + 0x10 * i - 0x1000000) % 0x10 / 4 = 1 := by omega
    simp only [RegSpec.covers, cntCfgSpec, column, Nat.lt_irrefl, decide_false, Bool.and_false]
  rw [regSpecOf, regMap_eq_counters, List.find?_eq_some_iff_append]
  refine ⟨own, regsBeforeCnt ++ [cntCfgSpec], _, by rw [List.append_assoc]; rfl, fun r hr => ?_⟩
  rcases List.mem_append.1 hr with before | last
  · rw [regsBeforeCnt_not_covers before (by omega)]
    rfl
  · rw [List.mem_singleton.1 last, other]
    rfl

/-! ## Writes -/

theorem writeReg_of_not_reaches {s : State} {x : Half} {fn off : Nat} (w : Word) (h : reaches fn off = false) :
    s.writeReg x fn off w = s := by
  unfold State.writeReg
  split
  · rfl
  · simp [h]

/-- A write to a register of one half is that half's alone, whether it holds the helm or not (R505). -/
theorem writeReg_half {s : State} {x : Half} {fn off : Nat} {r : RegSpec} (w : Word) (hr : regSpecOf off = some r)
    (hp : r.home = .half) (h : reaches fn off = true) :
    s.writeReg x fn off w = s.modHalf x fun y => y.writeOwn fn off r w := by
  simp [State.writeReg, hr, hp, h]

/-- A field whose range is all its bits hold takes whatever is written. -/
theorem fullF_takes_all (w : Word) (hi lo rst : Nat) :
    (decide ((fullF hi lo rst).min ≤ bits w (fullF hi lo rst).hi (fullF hi lo rst).lo) &&
      decide (bits w (fullF hi lo rst).hi (fullF hi lo rst).lo ≤ (fullF hi lo rst).max)) = true := by
  have top : bits w hi lo ≤ 2 ^ (hi + 1 - lo) - 1 := Nat.le_sub_one_of_lt (bits_lt w hi lo)
  simp [fullF, top]

/-- MODE is the one field of `CNT_CFG` that does not take every value of its bits (R507). -/
theorem cntCfgSpec_inRange (w : Word) : cntCfgSpec.inRange w = decide (bits w 29 28 ≤ 2) := by
  simp only [RegSpec.inRange, cntCfgSpec, List.all_cons, List.all_nil, fullF_takes_all, rangeF, Nat.zero_le,
    decide_true, Bool.true_and, Bool.and_true]

theorem cntThreshSpec_inRange (w : Word) : cntThreshSpec.inRange w = true := by
  simp only [RegSpec.inRange, cntThreshSpec, List.all_cons, List.all_nil, fullF_takes_all, Bool.and_true]

/-- A write of `CNT_CFG[i]` reprograms the counter where MODE is in range and Table 17.1 lists the setting (R507,
R510). -/
theorem writeOwn_cntCfg (y : HState) (i : Nat) (w : Word) :
    y.writeOwn 0 (0x1000000 + 0x10 * i) cntCfgSpec w =
      if decide (bits w 29 28 ≤ 2) && cntSettingOk (cntCfgSpec.apply (y.ctr i).cfg w) then
        y.reprogram i fun c => { c with cfg := cntCfgSpec.apply (y.ctr i).cfg w }
      else y := by
  have index : (0x1000000 + 0x10 * i - cntCfgSpec.base) / 0x10 = i := by
    show (0x1000000 + 0x10 * i - 0x1000000) / 0x10 = i
    omega
  rw [HState.writeOwn, if_neg (by decide), if_pos (show cntCfgSpec.base = 0x1000000 from rfl)]
  simp only [index, cntCfgSpec_inRange]
  rfl

theorem writeOwn_cntThresh (y : HState) (i : Nat) (w : Word) :
    y.writeOwn 0 (0x1000004 + 0x10 * i) cntThreshSpec w = y.reprogram i fun c => { c with thresh := bits w 17 0 } := by
  have index : (0x1000004 + 0x10 * i - cntThreshSpec.base) / 0x10 = i := by
    show (0x1000004 + 0x10 * i - 0x1000004) / 0x10 = i
    omega
  rw [HState.writeOwn, if_neg (by decide), if_neg (by decide),
    if_pos (show cntThreshSpec.base = 0x1000004 from rfl), if_pos (cntThreshSpec_inRange w), index]

section
variable {x : Half} {fn i : Nat} (s : State) (w : Word) (hi : i < 256)
include hi

theorem exec_cntCfgWrite_pf : exec (.cntCfgWrite x 0 i w) s =
    .next (s.modHalf x fun y => y.writeOwn 0 (0x1000000 + 0x10 * i) cntCfgSpec w) := by
  show execCntCfgWrite x 0 i w s = _
  simp [execCntCfgWrite, onUnit, hi, writeReg_half (fn := 0) w (regSpecOf_cntCfg hi) rfl rfl]

theorem exec_cntThreshWrite_pf : exec (.cntThreshWrite x 0 i w) s =
    .next (s.modHalf x fun y => y.writeOwn 0 (0x1000004 + 0x10 * i) cntThreshSpec w) := by
  show execCntThreshWrite x 0 i w s = _
  simp [execCntThreshWrite, onUnit, hi, writeReg_half (fn := 0) w (regSpecOf_cntThresh hi) rfl rfl]
end

/-- A virtual function reaches no register of a counter (R505). -/
theorem reaches_vf_counters {fn off : Nat} (hf : 0 < fn) (h : 0x1000000 ≤ off) : reaches fn off = false :=
  reaches_vf_outside_hif hf (by simp only [inHif, decide_eq_false_iff_not]; omega)

/-- A virtual function's write to a counter changes nothing (R505). -/
theorem exec_cntWrite_vf {x : Half} {fn i : Nat} (s : State) (w : Word) (hi : i < 256) (hf : 0 < fn) (h16 : fn < 16) :
    exec (.cntCfgWrite x fn i w) s = .next s ∧ exec (.cntThreshWrite x fn i w) s = .next s := by
  constructor
  · show execCntCfgWrite x fn i w s = _
    simp [execCntCfgWrite, onUnit, h16, hi, writeReg_of_not_reaches w (reaches_vf_counters hf (Nat.le_add_right _ _))]
  · show execCntThreshWrite x fn i w s = _
    simp [execCntThreshWrite, onUnit, h16, hi, writeReg_of_not_reaches w
      (reaches_vf_counters (off := 0x1000004 + 0x10 * i) hf (by omega))]

/-! ## Reads -/

/-- A read of `CNT_VAL_LO[i]` answers the low dword of the counter's word and latches the high one (R519). -/
theorem exec_cntValLoRead_pf (s : State) (x : Half) {i : Nat} (hi : i < 256) :
    exec (.cntValLoRead x 0 i) s = .next ((s.modHalf x fun y =>
      { y with ctrHi := tabSet 0 y.ctrHi i (((s.half x).ctr i).word / 2 ^ 32) }).emit
        (.read (((s.half x).ctr i).word % 2 ^ 32))) :=
  onUnit_readAs_of_reaches (off := 0x1000008 + 0x10 * i) (decide_eq_true ⟨by decide, hi⟩) rfl

/-- The word of a counter fits its 64 bits (R504). -/
theorem ctr_word_lt {c : Ctr} (h : c.val < 2 ^ 48) : c.word < 2 ^ 64 := by
  have := b2n_le_one c.sticky
  unfold Ctr.word
  omega

/-- Both dwords of a counter, read together, are its one word, and nothing is latched (R511). -/
theorem winRead_pair (fn i : Nat) (y : HState) :
    HState.winRead fn 2 (2 * i) y = (if y.winOpen fn i then (y.ctr i).word else 0, y) := by
  simp [HState.winRead]

/-- The low dword latches the high one of the same sample (R513). -/
theorem winRead_low {fn i : Nat} {y : HState} (h : y.winOpen fn i = true) : HState.winRead fn 1 (2 * i) y =
    ((y.ctr i).word % 2 ^ 32, { y with winHi := tabSet 0 y.winHi i ((y.ctr i).word / 2 ^ 32) }) := by
  simp [HState.winRead, HState.winDword, h]

/-- The high dword is the one that was latched (R513). -/
theorem winRead_high {fn i : Nat} {y : HState} (h : y.winOpen fn i = true) :
    HState.winRead fn 1 (2 * i + 1) y = (tabGet 0 y.winHi i, y) := by
  have half : (2 * i + 1) / 2 = i := by omega
  have odd : (2 * i + 1) % 2 = 1 := by omega
  simp [HState.winRead, HState.winDword, half, odd, h]

/-- A read of `n` whole dwords of a page from dword `d` answers what `winRead` does. -/
theorem exec_counterWindowRead_dwords {x : Half} {fn d n : Nat} (s : State) (h16 : fn < 16) (pos : 0 < n)
    (page : d + n ≤ 1024) : exec (.counterWindowRead x fn (4 * d) (4 * n)) s =
      .next ((s.setHalf x (HState.winRead fn n d (s.half x)).2).emit
        (.read ((HState.winRead fn n d (s.half x)).1 % 2 ^ (32 * n)))) := by
  have first : 4 * d / 4 = d := by omega
  have count : (4 * d + 4 * n + 3) / 4 - d = n := by omega
  have inside : fn < 16 ∧ 1 ≤ 4 * n ∧ 4 * d + 4 * n ≤ 4096 := by omega
  have width : 8 * (4 * n) = 32 * n := by omega
  show execCounterWindowRead x fn (4 * d) (4 * n) s = _
  simp only [execCounterWindowRead, onUnit, first, count, decide_eq_true inside, width, Nat.mul_mod_right, if_true,
    Nat.mul_zero, Nat.pow_zero, Nat.div_one]

section
variable {x : Half} {fn i : Nat} {s : State} (h16 : fn < 16) (hi : i < 256)
include h16 hi

/-- An 8-byte read of a counter answers its word where the page shows it, else 0, and changes no half (R511, R513). -/
theorem exec_counterWindowRead_whole (fits : (s.half x).winOpen fn i = true → ((s.half x).ctr i).val < 2 ^ 48) :
    exec (.counterWindowRead x fn (8 * i) 8) s =
      .next (s.emit (.read (if (s.half x).winOpen fn i then ((s.half x).ctr i).word else 0))) := by
  have place : 8 * i = 4 * (2 * i) := by omega
  rw [place, exec_counterWindowRead_dwords (d := 2 * i) (n := 2) s h16 (by decide) (by omega), winRead_pair,
    setHalf_half]
  split
  next shown => rw [Nat.mod_eq_of_lt (ctr_word_lt (fits shown))]
  next => rfl

theorem exec_counterWindowRead_low (shown : (s.half x).winOpen fn i = true) :
    exec (.counterWindowRead x fn (8 * i) 4) s = .next ((s.modHalf x fun y =>
      { y with winHi := tabSet 0 y.winHi i (((s.half x).ctr i).word / 2 ^ 32) }).emit
        (.read (((s.half x).ctr i).word % 2 ^ 32))) := by
  have place : 8 * i = 4 * (2 * i) := by omega
  rw [place, exec_counterWindowRead_dwords (d := 2 * i) (n := 1) s h16 (by decide) (by omega), winRead_low shown]
  simp only [Nat.mul_one, Nat.mod_mod]
  rfl

theorem exec_counterWindowRead_high (shown : (s.half x).winOpen fn i = true) :
    exec (.counterWindowRead x fn (8 * i + 4) 4) s =
      .next (s.emit (.read (tabGet 0 (s.half x).winHi i % 2 ^ 32))) := by
  have place : 8 * i + 4 = 4 * (2 * i + 1) := by omega
  rw [place, exec_counterWindowRead_dwords (d := 2 * i + 1) (n := 1) s h16 (by decide) (by omega),
    winRead_high shown, setHalf_half]
end

/-! ## The wrap -/

/-- With INT_EN clear an increment past 2^48 − 1 continues modulo 2^48, sets STICKY and posts nothing (R508, R509). -/
theorem ctrAdd_of_silent_wrap {s : State} {x : Half} {i n : Nat} (silent : bit ((s.half x).ctr i).cfg 30 = false)
    (wraps : 2 ^ 48 ≤ ((s.half x).ctr i).val + n) : s.ctrAdd x i n = s.modHalf x fun y =>
      { y with ctrs := tabSet {} y.ctrs i { (s.half x).ctr i with
          val := (((s.half x).ctr i).val + n) % 2 ^ 48, sticky := true } } := by
  unfold HState.ctr at *
  simp only [State.ctrAdd, silent, decide_eq_true wraps, Bool.and_false, Bool.or_true]
  rfl

theorem exec_counterWrap_of_mayAdd {s : State} {x : Half} {i n : Nat} (hi : i < 256) (up : (s.half x).up = true)
    (may : ((s.half x).ctr i).mayAdd n = true) : exec (.counterWrap x i n) s = .next (s.ctrAdd x i n) := by
  show execCounterWrap x i n s = _
  simp [execCounterWrap, onUnit, hi, up, may]

/-- In MODE 0 an enabled counter may take an increment of up to 4 past its end in one nanosecond (R507). -/
theorem mayAdd_of_mode0 {c : Ctr} {n : Nat} (enabled : bit c.cfg 31 = true) (mode : bits c.cfg 29 28 = 0)
    (wraps : 2 ^ 48 ≤ c.val + n) (few : n ≤ 4) : c.mayAdd n = true := by
  simp only [Ctr.mayAdd, enabled, mode, if_true, decide_eq_true (And.intro wraps few), Bool.or_true, Bool.and_self]

/-! ## The statement -/

theorem counterReadsAreOneSample : CounterReadsAreOneSample := by
  intro x fn i s h16 hi
  refine ⟨?_, fun shown fits => ⟨?_, exec_counterWindowRead_low h16 hi shown,
    exec_counterWindowRead_high h16 hi shown⟩, fun hidden => ?_⟩
  · rintro rfl
    exact exec_cntValLoRead_pf s x hi
  · rw [exec_counterWindowRead_whole h16 hi fun _ => fits, if_pos shown]
  · rw [exec_counterWindowRead_whole h16 hi (by simp [hidden]), hidden]
    rfl

theorem countersReprogramAndWrap : CountersReprogramAndWrap := by
  intro x i w s hi
  refine ⟨?_, ?_, fun fn hf h16 => exec_cntWrite_vf s w hi hf h16, ?_⟩
  · have new_eq : newWord (0x1000000 + 0x10 * i) ((s.half x).ctr i).cfg w =
        cntCfgSpec.apply ((s.half x).ctr i).cfg w := by
      rw [newWord, regSpecOf_cntCfg hi]
    rintro new rfl
    rw [exec_cntCfgWrite_pf s w hi, new_eq]
    refine ⟨fun mode listed => ?_, fun unlisted => ?_⟩
    · rw [State.modHalf, writeOwn_cntCfg, if_pos (by simp [mode, listed])]
      rfl
    · rw [State.modHalf, writeOwn_cntCfg, if_neg (by simp [unlisted]), setHalf_half]
  · simp only [exec_cntThreshWrite_pf s w hi, writeOwn_cntThresh]
  · rintro n c rfl up enabled silent wraps few mode
    rw [exec_counterWrap_of_mayAdd hi up (mayAdd_of_mode0 enabled mode wraps few), ctrAdd_of_silent_wrap silent wraps]

/-- Settles O10: every read of a counter samples its one word, a write to `CNT_CFG` or `CNT_THRESH` acts on its own half
through `writeOwn`, and a wrap is one `ctrAdd`. -/
theorem countersSampleReprogramAndWrap : Obligations.CountersSampleReprogramAndWrap :=
  ⟨counterReadsAreOneSample, countersReprogramAndWrap⟩

end Sys2Proof.Machine
end

section
/-! SUPPORT. Power: what a half without power leaves, how the power sequence of Table 18.8 gives it, and how the board
controller says a change (R525–R537). -/

namespace Sys2Proof.Machine

open Sys2Proof Sys2Proof.Claims

/-! ## The cages -/

@[simp] theorem cage_setCage (s : State) (c : Nat) (v : Cage) : (s.setCage c v).cage c = v := tabGet_tabSet ..

theorem cage_setCage_of_ne (s : State) {c k : Nat} (v : Cage) (n : k ≠ c) : (s.setCage c v).cage k = s.cage k :=
  tabGet_tabSet_of_ne _ _ _ n

/-- One change made to each cage of a list changes these cages and nothing else. -/
theorem setCage_foldl (f : Cage → Cage) (l : List Nat) (s : State) (once : l.Nodup) :
    ∃ t, l.foldl (fun s c => s.setCage c (f (s.cage c))) s = { s with board := { s.board with cages := t } } ∧
      (∀ c ∈ l, tabGet {} t c = f (s.cage c)) ∧ ∀ c ∉ l, tabGet {} t c = s.cage c := by
  induction l generalizing s with
  | nil => exact ⟨s.board.cages, rfl, fun _ m => absurd m List.not_mem_nil, fun _ _ => rfl⟩
  | cons c l ih =>
    obtain ⟨fresh, once⟩ := List.nodup_cons.1 once
    obtain ⟨t, e, changed, kept⟩ := ih (s.setCage c (f (s.cage c))) once
    refine ⟨t, e, fun k m => ?_, fun k m => ?_⟩
    · rcases List.mem_cons.1 m with rfl | m
      · rw [kept k fresh, cage_setCage]
      · rw [changed k m, cage_setCage_of_ne _ _ fun same : k = c => fresh (same ▸ m)]
    · rw [kept k fun out => m (List.mem_cons_of_mem _ out),
        cage_setCage_of_ne _ _ fun same => m (List.mem_cons.2 (.inl same))]

/-- Powering a list of cages leaves everything but the cages. -/
theorem cagePower_foldl (l : List Nat) (s : State) :
    ∃ t, l.foldl State.cagePower s = { s with board := { s.board with cages := t } } := by
  induction l generalizing s with
  | nil => exact ⟨s.board.cages, rfl⟩
  | cons c l ih =>
    obtain ⟨t, e⟩ := cagePower_eq s c
    rw [List.foldl_cons, e]
    exact ih _

/-! ## Power for the halves (R533, R534) -/

/-- Below −10 °C the halves stay as they are and the sequence stands at step 4 (R534). -/
theorem envelopeCheck_cold (s : State) {t0 t1 : Int} (h : ¬(-160 ≤ t0 ∧ -160 ≤ t1)) :
    s.envelopeCheck t0 t1 =
      { s with tam := { s.tam with temp0 := t0, temp1 := t1 }, board := { s.board with power := .cold } } := if_neg h

/-- At −10 °C or more both halves get power and hold nothing but the hash key of the station table. -/
theorem envelopeCheck_warm (s : State) {t0 t1 : Int} (h : -160 ≤ t0 ∧ -160 ≤ t1) :
    ∃ cages, s.envelopeCheck t0 t1 = { s with
      tam := { s.tam with temp0 := t0, temp1 := t1 },
      a := hashed { boot := { powered := true } } (Config.freeNat s.fv),
      b := hashed { boot := { powered := true } } (Config.freeNat s.fv), phase := .booting, lastState := 1, fv := s.fv + 1,
      modRegs := s.modRegs.filter fun p => decide (0x1000000 ≤ p.1),
      board := { s.board with power := .on, powerFail := false, cages := cages } } := by
  obtain ⟨cages, e⟩ := cagePower_foldl (List.range 8) _
  exact ⟨cages, (if_pos h).trans e⟩

/-- What the check of the envelope sensors does to the halves does not depend on the tamper and board controllers. -/
theorem powered_envelopeCheck (s : State) (fv : Nat) (tam : Tamper) (board : Board) (modRegs : Tab Word) (t0 t1 : Int) :
    Powered s t0 t1 ({ s with fv, tam, board, modRegs }.envelopeCheck t0 t1) := by
  by_cases h : -160 ≤ t0 ∧ -160 ≤ t1
  · obtain ⟨cages, e⟩ := envelopeCheck_warm { s with fv, tam, board, modRegs } h
    rw [e]
    exact ⟨rfl, rfl, rfl, rfl, rfl, fun _ => ⟨rfl, rfl, rfl, _, fun x => by cases x <;> rfl⟩, fun low => by omega⟩
  · rw [envelopeCheck_cold _ h]
    exact ⟨rfl, rfl, rfl, rfl, rfl, fun warm => absurd warm h, fun _ => ⟨rfl, rfl, fun x => by cases x <;> rfl⟩⟩

/-- Of the tamper controller the check takes the readings alone; of the board it changes where the power stands, POWER_FAIL
and the cages; registers at their reset values stay so. -/
theorem envelopeCheck_keeps (s : State) (t0 t1 : Int) :
    (s.envelopeCheck t0 t1).tam = { s.tam with temp0 := t0, temp1 := t1 } ∧
    (s.modRegs = [] → (s.envelopeCheck t0 t1).modRegs = []) ∧
    ∃ power powerFail cages,
      (s.envelopeCheck t0 t1).board = { s.board with power, powerFail, cages } := by
  by_cases h : -160 ≤ t0 ∧ -160 ≤ t1
  · obtain ⟨cages, e⟩ := envelopeCheck_warm s h
    rw [e]
    exact ⟨rfl, fun none => by simp [none], _, _, cages, rfl⟩
  · rw [envelopeCheck_cold s h]
    exact ⟨rfl, id, _, s.board.powerFail, s.board.cages, rfl⟩

/-! ## The tamper controller at power-up (R469, R471) -/

/-- With nothing pending and the canary right, power-up changes only what was noted of the last one. -/
theorem powerUp_idle {t : Tamper} (h : t.pend = none) :
    t.powerUp true = { t with committed := none, lostNow := false, erasedAt := none } := by
  simp [Tamper.powerUp, h]

/-- A pending record is completed (R469). -/
theorem powerUp_pending {t : Tamper} {p : Pending} (h : t.pend = some p) : t.powerUp true = { t with
    evidence := max t.evidence (min 127 p.target), saturated := t.saturated || decide (127 < p.target), pend := none,
    lostNow := false, erasedAt := none,
    committed := some { old := t.evidence, new := max t.evidence (min 127 p.target), mask := p.mask,
                        seconds := p.seconds } } := by
  simp [Tamper.powerUp, Tamper.burn, h]

/-- A wrong canary is EVIDENCE_LOST and one step, and erases (R471). -/
theorem powerUp_wrong (t : Tamper) : t.powerUp false = { t with
    evidence := max t.evidence (min 127 (t.evidence + 1)), saturated := t.saturated || decide (127 < t.evidence + 1),
    seed := false, pend := none, latched := [], log := [], unlogged := 0, evidenceLost := true, canary := true,
    endCause := 0, committed := none, lostNow := true, erasedAt := none } := rfl

/-- No record is pending once mains is back. -/
theorem powerUp_pend (t : Tamper) (right : Bool) : (t.powerUp right).pend = none := by
  cases right with
  | false => rfl
  | true =>
    cases h : t.pend with
    | none => rw [powerUp_idle h, h]
    | some p => rw [powerUp_pending h]

/-- Evidence is found lost exactly where the canary is wrong. -/
theorem powerUp_lostNow (t : Tamper) (right : Bool) : (t.powerUp right).lostNow = !right := by
  cases right with
  | false => rfl
  | true =>
    cases h : t.pend with
    | none => rw [powerUp_idle h]; rfl
    | some p => rw [powerUp_pending h]; rfl

/-- The canary as the return of mains finds it (R471): it can be wrong only where CELL_EXHAUST is latched. -/
def State.canaryRight (s : State) : Bool := !(s.tam.latched.contains 20 && decide (Config.freeNat s.fv % 2 = 1))

theorem canaryRight_of_unlatched {s : State} (h : 20 ∉ s.tam.latched) : s.canaryRight = true := by
  simp [State.canaryRight, h]

theorem latched_of_canary_wrong {s : State} (h : s.canaryRight = false) : 20 ∈ s.tam.latched := by
  by_cases latched : 20 ∈ s.tam.latched
  · exact latched
  · rw [canaryRight_of_unlatched latched] at h
    cases h

/-- The module as the return of mains leaves it before the check of the envelope sensors (Table 18.8, steps 1 to 3). -/
def State.mainsBack (s : State) (ps1 ps2 : Bool) : State :=
  { s with
    fv := s.fv + 1, modRegs := [],
    tam := { s.tam.powerUp s.canaryRight with onCell := false, cellSec := s.cellSeconds },
    board := { s.board with
      ps1 := { ac := ps1, dc := ps1 }, ps2 := { ac := ps2, dc := ps2 }, trips := 0, tripTimes := [], heldOff := false,
      powerFail := false, duty := 60 } }

theorem exec_mainsApplied {s : State} {ps1 ps2 : Bool} (t0 t1 : Int) (off : s.board.power = .off)
    (mains : ps1 = true ∨ ps2 = true) :
    exec (.mainsApplied ps1 ps2 t0 t1) s = .next ((s.mainsBack ps1 ps2).envelopeCheck t0 t1) :=
  congrArg Host.Outcome.next (if_neg (by rcases mains with h | h <;> simp [off, h]))

theorem mainsPowersTheHalves : MainsPowersTheHalves := by
  rintro ps1 ps2 t0 t1 t s rfl
  refine ⟨fun off mains => ?applied, fun h => ?ignored, fun cold => ?recheck, fun h => congrArg _ (if_neg h)⟩
  case applied =>
    obtain ⟨tam, regs, power, powerFail, cages, board⟩ := envelopeCheck_keeps (s.mainsBack ps1 ps2) t0 t1
    refine ⟨_, exec_mainsApplied t0 t1 off mains, powered_envelopeCheck s _ _ _ _ t0 t1, regs rfl, ?_⟩
    rw [tam, board]
    refine ⟨rfl, rfl, powerUp_pend _ _, rfl, rfl, rfl, fun unlatched idle => ?idle, fun p unlatched pend => ?pending,
      fun lost => ?lost⟩
    case idle => simp [State.mainsBack, canaryRight_of_unlatched unlatched, powerUp_idle idle]
    case pending => simp [State.mainsBack, canaryRight_of_unlatched unlatched, powerUp_pending pend]
    case lost =>
      have wrong : s.canaryRight = false := by
        have found := (powerUp_lostNow s.tam s.canaryRight).symm.trans lost
        rwa [Bool.not_eq_true'] at found
      simp [State.mainsBack, wrong, powerUp_wrong, latched_of_canary_wrong wrong]
  case ignored =>
    refine congrArg Host.Outcome.next (if_pos ?_)
    rcases h with on | ⟨h1, h2⟩
    · exact .inl on
    · simp [h1, h2]
  case recheck =>
    exact ⟨_, congrArg Host.Outcome.next (if_pos cold), powered_envelopeCheck s _ _ _ _ t0 t1,
      (envelopeCheck_keeps s t0 t1).1⟩

/-! ## What a trip posts and writes before the power goes (R537) -/

/-- `t` differs from `s` in none of what outlives the power of the halves: flash, host memory, cages, trips, and of the
tamper controller the seed, the evidence and the serials of the log. -/
structure PowerKept (s t : State) : Prop where
  now : t.now = s.now
  flash : t.flash = s.flash
  host : t.host = s.host
  cages : t.board.cages = s.board.cages
  trips : t.board.trips = s.board.trips
  tripTimes : t.board.tripTimes = s.board.tripTimes
  heldOff : t.board.heldOff = s.board.heldOff
  seed : t.tam.seed = s.tam.seed
  evidence : t.tam.evidence = s.tam.evidence
  serials : t.tam.log.map (·.serial) = s.tam.log.map (·.serial)

theorem PowerKept.refl (s : State) : PowerKept s s := ⟨rfl, rfl, rfl, rfl, rfl, rfl, rfl, rfl, rfl, rfl⟩

theorem PowerKept.trans {s t u : State} (h : PowerKept s t) (g : PowerKept t u) : PowerKept s u :=
  ⟨g.now.trans h.now, g.flash.trans h.flash, g.host.trans h.host, g.cages.trans h.cages, g.trips.trans h.trips,
    g.tripTimes.trans h.tripTimes, g.heldOff.trans h.heldOff, g.seed.trans h.seed, g.evidence.trans h.evidence,
    g.serials.trans h.serials⟩

theorem powerKept_modHalf (s : State) (x : Half) (f : HState → HState) : PowerKept s (s.modHalf x f) := by
  constructor <;> simp

theorem powerKept_alerted (s : State) : PowerKept s s.alerted := ⟨rfl, rfl, rfl, rfl, rfl, rfl, rfl, rfl, rfl, rfl⟩

theorem powerKept_setTemp (s : State) (k : Sensor) (v : Int) : PowerKept s (s.setTemp k v) := by
  cases k <;> exact ⟨rfl, rfl, rfl, rfl, rfl, rfl, rfl, rfl, rfl, rfl⟩

theorem powerKept_boardEv (s : State) (code key : Nat) (p : List Fld) : PowerKept s (s.boardEv code key p) := by
  cases h : s.holder with
  | none => exact (boardEv_eq s code key p).1 h ▸ powerKept_alerted s
  | some x =>
    obtain ⟨q, f, e⟩ := (boardEv_eq s code key p).2 x h
    exact e ▸ (powerKept_alerted s).trans (powerKept_modHalf _ x _)

/-- That an alarm is marked as posted changes no entry's serial, and nothing but the log. -/
theorem markPosted_eq (t : Tamper) (p : Placed) :
    ∃ l, t.markPosted p = { t with log := l } ∧ l.map (·.serial) = t.log.map (·.serial) := by
  unfold Tamper.markPosted
  split
  · split
    · refine ⟨_, rfl, ?_⟩
      rw [List.map_map]
      refine List.map_congr_left fun e _ => ?_
      simp only [Function.comp]
      split <;> rfl
    · exact ⟨t.log, rfl, rfl⟩
  · exact ⟨t.log, rfl, rfl⟩

theorem powerKept_writeEntry (x : Half) (s : State) (p : Placed) : PowerKept s (s.writeEntry x p) := by
  obtain ⟨l, marked, serials⟩ := markPosted_eq s.tam p
  have written : ∀ rings, PowerKept s { s with tam := s.tam.markPosted p, rings } := fun rings => by
    rw [marked]
    exact ⟨rfl, rfl, rfl, rfl, rfl, rfl, rfl, rfl, rfl, serials⟩
  have told : ∀ t o, PowerKept t (t.emit o) := fun t o => ⟨rfl, rfl, rfl, rfl, rfl, rfl, rfl, rfl, rfl, rfl⟩
  simp only [State.writeEntry]
  split
  · exact ((written _).trans (powerKept_modHalf _ x _)).trans (told _ _)
  · exact (written _).trans (powerKept_modHalf _ x _)

theorem powerKept_drainPosts (s : State) (x : Half) : PowerKept s (s.drainPosts x) := by
  have writes : ∀ (l : List Placed) (t : State), PowerKept s t → PowerKept s (l.foldl (State.writeEntry x) t) := by
    intro l
    induction l with
    | nil => exact fun _ kept => kept
    | cons p l ih => exact fun t kept => ih _ (kept.trans (powerKept_writeEntry x t p))
  exact writes _ _ ((powerKept_modHalf s x _).trans (powerKept_modHalf _ x _))

/-! ## The loss of power (R532, R537) -/

/-- The halves without power: they hold nothing, and no cage draws power. -/
theorem halvesOff_eq (s : State) : ∃ cages, s.halvesOff = { s with
      a := {}, b := {}, phase := .cold, carried := [], lastState := 0,
      flash := { s.flash with recs := [], compacting := false }, board := { s.board with cages } } ∧
    ∀ c, c < 8 → tabGet {} cages c = { s.cage c with powered := false, ready := false, powerQ := 0 } := by
  obtain ⟨cages, e, off, -⟩ := setCage_foldl (fun v => { v with powered := false, ready := false, powerQ := 0 })
    (List.range 8) { s with a := {}, b := {}, phase := .cold, carried := [], lastState := 0,
                            flash := { s.flash with recs := [], compacting := false } } List.nodup_range
  exact ⟨cages, e, fun c lt => off c (List.mem_range.2 lt)⟩

/-- The halves lose their power, whatever else the board and tamper controllers then note. -/
theorem unpowered_halvesOff {s r : State} {f : Board → Board} {g : Tamper → Tamper} (kept : PowerKept s r)
    (cages : ∀ b, (f b).cages = b.cages) (seed : ∀ t, (g t).seed = t.seed) (evidence : ∀ t, (g t).evidence = t.evidence)
    (log : ∀ t, (g t).log = t.log) : Unpowered s ((r.halvesOff.modBoard f).modTam g) := by
  obtain ⟨off, e, dark⟩ := halvesOff_eq r
  have cage : ∀ c, ((r.halvesOff.modBoard f).modTam g).cage c = tabGet {} off c := fun c => by
    simp only [State.cage, modTam_board, modBoard_board, cages, e]
  have same : ∀ c, r.cage c = s.cage c := fun c => by simp only [State.cage, kept.cages]
  refine ⟨by simp [e], fun x => by cases x <;> simp [State.half, e], by simp [e, kept.flash], fun c lt => ?_,
    by simp [e, kept.host], by simp [seed, e, kept.seed], by simp [evidence, e, kept.evidence],
    by simp [log, e, kept.serials]⟩
  rw [cage, dark c lt, same]
  exact ⟨rfl, rfl, rfl, rfl⟩

/-- The state once THERMAL has been posted and has reached the rings, before the power goes (R537). -/
def State.tripSaid (s : State) (k : Sensor) (v : Int) : State :=
  let r := (s.setTemp k v).postThermal true false (sensorCode k) v
  match r.holder with
  | some x => r.drainPosts x
  | none => r

theorem powerKept_tripSaid (s : State) (k : Sensor) (v : Int) : PowerKept s (s.tripSaid k v) := by
  have posted := (powerKept_setTemp s k v).trans (powerKept_boardEv _ 0x0D11 (16 * b2n true + sensorCode k)
    [(1, b2n true), (1, b2n false), (1, sensorCode k), (2, (v % 65536).toNat)])
  simp only [State.tripSaid]
  split
  · exact posted.trans (powerKept_drainPosts _ _)
  · exact posted

/-- The trips of the last hour, with one now. -/
def State.recentTrips (s : State) : List Nat :=
  s.now :: s.board.tripTimes.filter fun t => decide (s.now < t + 3600000000000)

theorem exec_thermalTrip {s : State} {k : Sensor} {l v : Int} (on : s.board.power = .on) (limit : tripLimit k = some l)
    (hot : l ≤ v) : exec (.thermalTrip k v) s = .next (((s.tripSaid k v).halvesOff.modBoard fun b =>
      { b with power := .tripped, trips := min 255 (b.trips + 1), tripTimes := (s.tripSaid k v).recentTrips,
               heldOff := b.heldOff || decide (3 ≤ (s.tripSaid k v).recentTrips.length) }).modTam fun t =>
      { t with endCause := 5 }) :=
  congrArg Host.Outcome.next (if_neg (by simp [on, limit, hot]))

/-- What a trip leaves: the halves lose power, the trip is counted, and the third one within an hour holds the module
off. -/
theorem exec_thermalTrip_unpowered {s : State} {k : Sensor} {l v : Int} (on : s.board.power = .on)
    (limit : tripLimit k = some l) (hot : l ≤ v) : ∃ u, exec (.thermalTrip k v) s = .next u ∧ Unpowered s u ∧
      u.board.power = .tripped ∧ u.board.trips = min 255 (s.board.trips + 1) ∧ u.tam.endCause = 5 ∧
      u.board.heldOff = (s.board.heldOff || decide (3 ≤ s.recentTrips.length)) := by
  have kept := powerKept_tripSaid s k v
  have recent : (s.tripSaid k v).recentTrips = s.recentTrips := by simp only [State.recentTrips, kept.now, kept.tripTimes]
  obtain ⟨cages, off, -⟩ := halvesOff_eq (s.tripSaid k v)
  refine ⟨_, exec_thermalTrip on limit hot,
    unpowered_halvesOff kept (fun _ => rfl) (fun _ => rfl) (fun _ => rfl) fun _ => rfl, rfl, ?_, rfl, ?_⟩
  · simp [off, kept.trips]
  · simp [off, kept.heldOff, recent]

theorem exec_thermalTrip_ignored {s : State} {k : Sensor} {v : Int}
    (h : s.board.power ≠ .on ∨ tripLimit k = none) : exec (.thermalTrip k v) s = .next s :=
  congrArg Host.Outcome.next (if_pos (h.imp_right fun none => by simp [none]))

theorem tripsRemovePower : TripsRemovePower := by
  rintro k v t0 t1 b s rfl
  refine ⟨fun on junction hot => ?junction, fun on envelope hot => ?envelope, fun h => ?ignored,
    fun tripped held l0 l1 => ?restart, fun h => congrArg _ (if_neg ?_)⟩
  case junction =>
    have limit : tripLimit k = some 1840 := by rcases junction with rfl | rfl <;> rfl
    obtain ⟨u, e, unpowered, power, trips, cause, held⟩ := exec_thermalTrip_unpowered on limit hot
    refine ⟨u, e, unpowered, power, trips, cause, fun free few => ?_, fun many => ?_⟩
    · have less : ¬3 ≤ s.recentTrips.length := by simpa [State.recentTrips] using few
      simp [held, free, less]
    · have more : 3 ≤ s.recentTrips.length := by simpa [State.recentTrips] using many
      simp [held, more]
  case envelope =>
    have limit : tripLimit k = some 1408 := by rcases envelope with rfl | rfl <;> rfl
    obtain ⟨u, e, unpowered, power, -, cause, -⟩ := exec_thermalTrip_unpowered on limit hot
    exact ⟨u, e, unpowered, power, cause⟩
  case ignored => exact exec_thermalTrip_ignored (h.imp_right fun k => by rcases k with rfl | rfl | rfl <;> rfl)
  case restart =>
    exact ⟨_, congrArg Host.Outcome.next (if_pos (by simp [tripped, held, l0, l1])),
      powered_envelopeCheck s _ _ _ _ t0 t1⟩
  · rintro ⟨tripped, held, l0, l1⟩
    simp only [Bool.not_eq_true'] at held
    rcases h with h | h | h | h
    · exact h tripped
    · rw [held] at h
      cases h
    · omega
    · omega

/-! ## What the board controller says (R527) -/

/-- The half that holds the helm posts as an active half does. -/
theorem posting_of_holder {s : State} {x : Half} (h : s.holder = some x) : Posting s x := by
  have active := holder_active h
  rw [State.isActive] at active
  rw [Posting]
  cases st : (s.half x).helm.st <;> simp [st, HelmSt.active] at active ⊢

/-- A waiting event of the same source takes the new event's code and payload. -/
theorem mem_of_mergeLevel {e : Ev} {q l : List (Src × Post)} (h : mergeLevel e q = some l) :
    ∃ k n, (k, .ev { e with absorbed := n }) ∈ l := by
  induction q generalizing l with
  | nil => cases h
  | cons p q ih =>
    obtain ⟨src, post⟩ := p
    have deeper : ∀ {p}, (mergeLevel e q).map (p :: ·) = some l → ∃ k n, (k, .ev { e with absorbed := n }) ∈ l := by
      intro p h
      obtain ⟨r, hr, rfl⟩ := Option.map_eq_some_iff.1 h
      obtain ⟨k, n, m⟩ := ih hr
      exact ⟨k, n, List.mem_cons_of_mem _ m⟩
    cases post with
    | ev o =>
      rw [mergeLevel] at h
      split at h
      · cases h
        exact ⟨src, _, List.mem_cons_self⟩
      · exact deeper h
    | cpl c => exact deeper h
    | due c => exact deeper h

/-- An event of an active half enters its queue, or takes the place of the waiting one of its source. -/
theorem postEv_of_posting {s : State} {x : Half} (src : Src) (e : Ev) (p : Posting s x) :
    s.postEv x src e = s.modHalf x fun y => { y with
      queue := (mergeLevel e (s.half x).queue).getD ((s.half x).queue ++ [(src, .ev e)]) } := by
  refine congrArg (s.setHalf x) ?_
  rcases p with p | p <;> simp only [p]

/-- What an active half posts stands in its queue with the event's code and payload, and nothing else changes. -/
theorem postEv_stands {s : State} {x : Half} (src : Src) (e : Ev) (p : Posting s x) :
    ∃ o : Ev, o.code = e.code ∧ o.payload = e.payload ∧ (∃ k, (k, .ev o) ∈ ((s.postEv x src e).half x).queue) ∧
      s.postEv x src e = s.modHalf x (fun y => { y with queue := ((s.postEv x src e).half x).queue }) ∧
      ((s.half x).queue = [] → ((s.postEv x src e).half x).queue = [(src, .ev o)]) := by
  rw [postEv_of_posting src e p, half_modHalf]
  cases merged : mergeLevel e (s.half x).queue with
  | none => exact ⟨e, rfl, rfl, ⟨src, by simp⟩, rfl, fun empty => by simp [empty]⟩
  | some l =>
    obtain ⟨k, n, m⟩ := mem_of_mergeLevel merged
    refine ⟨{ e with absorbed := n }, rfl, rfl, ⟨k, m⟩, rfl, fun empty => ?_⟩
    rw [empty] at merged
    cases merged

/-- The event that `postLevel` posts. -/
def levelEv (s : State) (x : Half) (code key : Nat) (payload : List Fld) : Ev :=
  { code, origin := x, absorbed := 0, payload, route := .pf, key := levelKey code key, times := (s.half x).times }

theorem boardSays_boardEv (s : State) (code key : Nat) (payload : List Fld) :
    BoardSays s code payload (s.boardEv code key payload) := by
  rintro s' rfl
  refine ⟨(boardEv_eq s code key payload).1, fun x h => ?_⟩
  have same : s.alerted.half x = s.half x := modBoard_half ..
  have posting : Posting s.alerted x := by
    rw [Posting, same]
    exact posting_of_holder h
  have said : s.boardEv code key payload = s.alerted.postEv x .level (levelEv s.alerted x code key payload) := by
    simp only [State.boardEv, h]
    rfl
  rw [said, ← same]
  exact postEv_stands .level (levelEv s.alerted x code key payload) posting

theorem boardSays_postPsu (s : State) (k : Nat) (v : Supply) :
    BoardSays s 0x0D0F [(1, k), (1, b2n v.ac), (1, b2n v.dc), (1, b2n v.fault)] (s.postPsu k v) := boardSays_boardEv _ _ k _

/-! ## Rails, resets and supplies (R525, R526, R530, R532) -/

/-- MOD_RESET# held long enough ends the run with cause 2 and frees a module held off. -/
theorem exec_modReset {s : State} {ms : Nat} (long : 100 ≤ ms) (mains : s.board.power ≠ .off) (phase : s.phase ≠ .cold) :
    ∃ key, exec (.modReset ms) s = .next { s with
      fv := s.fv + 1, board := { s.board with heldOff := false }, tam := { s.tam with endCause := 2 },
      a := hashed s.a.afterReset key, b := hashed s.b.afterReset key, phase := .booting, lastState := 1,
      flash := { s.flash with recs := [], compacting := false } } := by
  refine ⟨Config.freeNat s.fv, congrArg Host.Outcome.next ((if_neg ?_).trans (endRun_eq _ 2 phase))⟩
  exact fun h => h.elim (by omega) mains

theorem exec_railsOff {s : State} (mains : s.board.power ≠ .off) : ∃ u, exec (.railsOff) s = .next u ∧ Unpowered s u ∧
    u.board.power = .off ∧ u.tam = { s.tam with onCell := true, cellSince := s.now } := by
  obtain ⟨cages, off, -⟩ := halvesOff_eq s
  refine ⟨_, congrArg Host.Outcome.next (if_neg mains),
    unpowered_halvesOff (.refl s) (fun _ => rfl) (fun _ => rfl) (fun _ => rfl) fun _ => rfl, rfl, ?_⟩
  simp [off]

/-- A reading of a supply that is known is not said; a change of it is. -/
theorem exec_psuState {s : State} {k w : Nat} (ac dc fault : Bool) (supply : k = 1 ∨ k = 2) (mains : s.board.power ≠ .off)
    {b : Board} (hb : b = { s.board with
      loadW := min 1023 w, ps1 := if k = 1 then { ac, dc, fault } else s.board.ps1,
      ps2 := if k = 2 then { ac, dc, fault } else s.board.ps2 }) :
    exec (.psuState k ac dc fault w) s = .next
      (if (if k = 1 then s.board.ps1 else s.board.ps2) = { ac, dc, fault } then { s with board := b }
       else State.postPsu { s with board := b } k { ac, dc, fault }) := by
  show onUnit (decide (k = 1 ∨ k = 2)) _ = _
  rw [decide_eq_true supply, if_neg mains, hb]
  rfl

theorem powerLossAndResets : PowerLossAndResets := by
  rintro x y s rfl
  refine ⟨fun on powered waiting => congrArg _ (if_pos ⟨on, powered, by simp [waiting]⟩),
    fun h => congrArg _ (if_neg ?_), fun on => congrArg _ (if_pos on),
    fun h => congrArg _ (if_neg h), fun failing r => ?_, exec_railsOff, fun off => congrArg _ (if_pos off),
    fun ms => ⟨exec_modReset, fun h => congrArg _ (if_pos h)⟩, rfl, fun _ => rfl,
    fun k ac dc fault w supply mains b hb => ?_⟩
  · rintro ⟨on, -, waiting⟩
    rcases h with h | started
    · exact h on
    · simp [started] at waiting
  · rw [(record_eq s x r).2.2, if_pos failing]
  · rw [exec_psuState ac dc fault supply mains hb]
    exact ⟨fun same => by rw [if_pos same], fun change => ⟨_, by rw [if_neg change], boardSays_postPsu _ k _⟩⟩

/-- Settles O55: power for the halves comes through `envelopeCheck` alone and goes through `halvesOff` alone, and what a
trip posts and writes before changes nothing that outlives the power. -/
theorem powerComesAndGoes : Obligations.PowerComesAndGoes :=
  ⟨mainsPowersTheHalves, powerLossAndResets, tripsRemovePower⟩

end Sys2Proof.Machine
end
